-- ==== Sys2Proof/Word.lean ====
section
/-! DEFINITION. The word types of the model and their plainest arithmetic.
Every multi-byte value is little-endian (R13); bit 0 is the least significant bit of a field (R12). -/
namespace Sys2Proof

/-- One byte. -/
abbrev Byte := BitVec 8
/-- A BAR0 register, and a lane of a vector register (R14, R53). -/
abbrev W32 := BitVec 32
/-- A 64-bit quantity held in two consecutive registers (R15). -/
abbrev W64 := BitVec 64
/-- A 64 B scratchpad slot or stack granule (R31). -/
abbrev Slot := BitVec 512
/-- A vector register or accumulator row: 32 lanes of 32 bits, lane 0 in bits [31:0] (R31). -/
abbrev Row := BitVec 1024
/-- A tile index, die × 144 + y × 12 + x (R20). -/
abbrev TileIdx := Fin 576

end Sys2Proof
end

