-- ==== Sys2Proof/Syntax.lean ====
section
/-! DEFINITION. The commands of the block: one constructor per row of the opcode table, with the row's operands.
A command is an operation a tile issues, an access of the host, or an event at a pin, a link or an engine. -/
namespace Sys2Proof

/-- The five slots of a bundle (R40). -/
inductive SlotName where | mac | vec | mov | sync | ctl
deriving DecidableEq, Repr

/-- The predicate of the bundle an operation belongs to, with the PMAC, PVEC or PMOV bit of its own slot (R43). -/
structure Pred where
  pe : Bool
  ppol : Bool
  pflg : BitVec 4
  sel : Bool
deriving DecidableEq, Repr

/-- The fields of MM (R46-R50). -/
structure MmF where
  n : BitVec 4
  tm : BitVec 2
  inc : Bool
  aoff : BitVec 6
  p : Bool
  z : Bool
  ws : Bool
  ph : Bool
  xsel : BitVec 4
deriving DecidableEq, Repr

/-- The fields of WLD (R50, R51). -/
structure WldF where
  n : BitVec 4
  tm : BitVec 2
  inc : Bool
  part : BitVec 4
  ws : Bool
  fmt : BitVec 4
deriving DecidableEq, Repr

/-- The fields of XLD (R50). -/
structure XldF where
  n : BitVec 4
  tm : BitVec 2
  inc : Bool
deriving DecidableEq, Repr

/-- The fields of a VEC slot other than its opcode; `vc` is also the immediate IMM5 (R53). -/
structure VecF where
  vd : BitVec 5
  va : BitVec 5
  vb : BitVec 5
  vc : BitVec 5
  ty : BitVec 3
  md : BitVec 3
deriving DecidableEq, Repr

/-- The fields of LDV and STV (R60-R62). -/
structure LdvF where
  n : BitVec 4
  tm : BitVec 2
  inc : Bool
  x : BitVec 5
  fmt : BitVec 3
  h : Bool
  off : BitVec 11
deriving DecidableEq, Repr

/-- The fields of CPY (R60): source A[n] + OFF under TM, destination A[m] under TM2. -/
structure CpyF where
  n : BitVec 4
  tm : BitVec 2
  inc : Bool
  m : BitVec 4
  tm2 : BitVec 2
  off : BitVec 11
deriving DecidableEq, Repr

/-- The fields of PUT (R60): DM 0 is FILL and 1 is OVER at the remote slot. -/
structure PutF where
  n : BitVec 4
  tm : BitVec 2
  inc : Bool
  m : BitVec 3
  dinc : Bool
  dm : Bool
  off : BitVec 11
deriving DecidableEq, Repr

/-- The fields of GLD and GST (R60, R63). -/
structure GldF where
  n : BitVec 4
  tm : BitVec 2
  inc : Bool
  m : BitVec 3
  ginc : Bool
deriving DecidableEq, Repr

/-- What a patrol scrub visits (R137). -/
inductive ScrubUnit where
  | stack (stack : Fin 6) (granule : BitVec 22)
  | ddr (granule : BitVec 31)
deriving DecidableEq, Repr

/-- A lease holder (R132): a tile, a sluice engine in PLAN mode, or the queue that feeds one in QUEUE mode. -/
inductive Holder where
  | tile (t : TileIdx)
  | engine (e : Fin 32)
  | queue (q : Fin 8192)
deriving DecidableEq, Repr


/-- A camera port: its I/O die and its place there. -/
structure CamPort where
  die : Fin 2
  port : Fin 6
deriving DecidableEq, Repr

/-- A 66-bit block of a port's stream (R198): a control block (sync header 10) or a data block (01), and its 8 octets, the first in
the low bits. -/
structure Block where
  ctl : Bool
  data : BitVec 64
deriving DecidableEq, Repr


/-- A lane of a camera port's block or of a ring port (R337). -/
inductive LaneId where
  | cam (die : Fin 2) (l : Fin 12)
  | ring (p : Fin 4) (l : Fin 4)
deriving DecidableEq, Repr

/-- A port that is brought up over its lanes: a camera port or a ring port. -/
inductive PortId where
  | cam (die : Fin 2) (port : Fin 6)
  | ring (p : Fin 4)
deriving DecidableEq, Repr

/-- Cipher suites, groups and signature schemes of TLS 1.3 that R424 names, and the others. -/
inductive TlsSuite where | aes256GcmSha384 | aes128GcmSha256 | other
deriving DecidableEq, Repr
inductive TlsGroup where | secp256r1 | other
deriving DecidableEq, Repr
inductive TlsScheme where | ecdsaSecp256r1Sha256 | other
deriving DecidableEq, Repr

/-- What a TLS client of Dexzon offers (R424): TLS 1.3, its suites, groups and signature schemes, and a full handshake, that is neither a
PSK mode nor a resumed session alone. -/
structure TlsHello where
  tls13 : Bool
  suites : List TlsSuite
  groups : List TlsGroup
  schemes : List TlsScheme
  fullHandshake : Bool
deriving DecidableEq, Repr

/-- What a client of Dexzon opens with (R424, R425): its TLS offer and the major version of the API that it asks for. -/
structure DexzonHello where
  tls : TlsHello
  major : BitVec 8
deriving DecidableEq, Repr

/-- What the cage's management interface shows (R344, R509): a passive cable of so many metres, an active cable or optical
module, one of these whose power class needs more than 1.5 W and which therefore stays in low-power mode, or nothing readable. -/
inductive Cable where
  | passive (metres : Nat)
  | active
  | highPower (metres : Option Nat)
  | unreadable
deriving DecidableEq, Repr

/-- An encoder receiver (R275). -/
inductive EncPin where | a | b | z
deriving DecidableEq, Repr

/-- The part-trigger registers whose writes are checked together (R285). -/
inductive PtReg where | cfg | pitch | len
deriving DecidableEq, Repr

/-- The identity of a PTP port: its clock's, octet 0 in bits [7:0], and its number. -/
structure PtpPort where
  clock : W64
  port : BitVec 16
deriving DecidableEq, Repr

/-- What names a received PTP message: its sender and its sequenceId. -/
structure PtpId where
  src : PtpPort
  seq : BitVec 16
deriving DecidableEq, Repr

/-- A received Announce message (R304): its sender, the logarithm to base 2 of its interval in s, and the fields the default best master clock
algorithm compares. -/
structure AnnounceMsg where
  src : PtpPort
  domain : BitVec 8
  interval : BitVec 8
  priority1 : BitVec 8
  clockClass : BitVec 8
  accuracy : BitVec 8
  variance : BitVec 16
  priority2 : BitVec 8
  gm : W64
  stepsRemoved : BitVec 16
deriving DecidableEq, Repr

/-- A received Sync message (R304, R306): its sender, its two-step flag, its sequenceId and, from a one-step master, its origin time
stamp. -/
structure SyncMsg where
  src : PtpPort
  domain : BitVec 8
  twoStep : Bool
  seq : BitVec 16
  t1 : W64
deriving DecidableEq, Repr

/-- The FLD registers whose host write queues a configuration frame (R327). -/
inductive FldCfgReg where
  | deb (i : Fin 16)
  | safe
  | timeout
  | wben
deriving DecidableEq, Repr

/-- A received Rill frame whose CRC was correct (R353): the type is the command's. `spec` holds octets 16-31, octet 16 in
bits [7:0]; with ENC `payload` is cipher text and `tag` its GCM tag, octet 0 in bits [7:0]. -/
structure RFrame where
  west : Bool
  enc : Bool
  wrapped : Bool
  src : BitVec 8
  dst : BitVec 8
  hops : Nat
  seq : W32
  session : W32
  spec : BitVec 128
  payload : List Slot
  tag : BitVec 128
deriving DecidableEq, Repr

/-- Why a received Rill frame is discarded (R353, R414). -/
inductive FrameFault where | crc | tag | seq
deriving DecidableEq, Repr


/-- A base address register of the endpoint (R374). -/
inductive Bar where | bar0 | bar2 | bar4
deriving DecidableEq, Repr

/-- The way a mailbox command reaches the RoT: the host's write of SEC_MBX_CTL, whose arguments stand in SEC_MBX_IN, or the
steward on behalf of a Dexzon client, with its argument bytes (R426). -/
inductive MbxVia where
  | host (ctl : W32)
  | dexzon (args : List Byte)
deriving DecidableEq, Repr

/-- The commands. The docstring of each constructor names its row of the opcode table. -/
inductive Instr where
  /-- POWER_ON (R469): The 48 V input rises through its input threshold, and the rails and domains come up in the fixed power-up order. -/
  | powerOn
  /-- POWER_LOSS (R470): The 48 V input falls below its threshold: the module enters reset, the weirs go to BYPASS and the domains go down. -/
  | powerLoss
  /-- MRST (R467): MRST# is held low for at least 10 µs, which resets the module with the rails kept on. -/
  | mrst
  /-- GLB_RST (R467): A host write of GLB_RST with KEY 0x4C39 and MODULE 1 resets the module. -/
  | glbRst (v : W32)
  /-- DEXZON_RESET (R467): An authenticated Dexzon client requests a module reset. -/
  | dexzonReset
  /-- THERMAL_TRIP (R467): A die sensor reaches 120 °C and the package domains are switched off. -/
  | thermalTrip (sensor : Fin 7) (temp : BitVec 16)
  /-- REGULATOR_FAULT (R467): A regulator protection trips, or a domain is not good in time, and every domain except 35 goes off. -/
  | regulatorFault
  /-- RESET_RELEASE (R469): Module reset is released once every fitted domain is good and the PLLs are locked. -/
  | resetRelease
  /-- CLOCK_ALIGNMENT (R471): After reset release the clocks are aligned by SYNC, training and marker checks, and then TB1 starts from 0. -/
  | clockAlignment (fails : Fin 4)
  /-- ROT_BOOT (R403): The RoT boots from ROM, rebuilds S_DEV, verifies and measures the firmware, and opens the mailbox. -/
  | rotBoot (puf : Bool)
  /-- DDR_READY (R469): DDR4 training completes and the bank tables are read, with any invalid table copy rewritten. -/
  | ddrReady
  /-- REF_LOSS (R474): The reference clock is lost, which is a FATAL CLK event. -/
  | refLoss
  /-- PLL_UNLOCK (R474): A PLL loses lock, which is FATAL when it serves an aligned domain. -/
  | pllUnlock (d : Fin 25)
  /-- PHASE_DRIFT (R472): The buffer depth of an aligned crossing changes by one cy(CORE) or more. -/
  | phaseDrift
  /-- PG_FAULT (R474): A power domain loses its good state, which is a FATAL CLK event. -/
  | pgFault (d : Fin 36)
  /-- THERM_WARN (R492): A temperature sensor reaches the WARN threshold. -/
  | thermWarn (sensor : Fin 8) (temp : BitVec 16)
  /-- THERM_CRIT (R492): A temperature sensor reaches the CRIT threshold. -/
  | thermCrit (sensor : Fin 8) (temp : BitVec 16)
  /-- VIN_UV (R501): The 48 V input stays below 40 V for 1 ms. -/
  | vinUv (vin : BitVec 16)
  /-- VIN_OV (R501): The 48 V input stays above 60 V for 1 ms. -/
  | vinOv (vin : BitVec 16)
  /-- OVERPOWER (R492): The measured package or module power stays above the limits of R22 for 1 ms. -/
  | overpower (pkg : BitVec 16) (mod : BitVec 16)
  /-- PERST (R468): PCIe PERST# resets only the endpoint and the HIF block. -/
  | perst
  /-- FUNCTION_LEVEL_RESET (R397): A function-level reset resets the HIF registers and disables every queue and MSI-X vector, while the line keeps running. -/
  | functionLevelReset
  /-- NOP (R511): A NOP slot issues and does nothing. -/
  | nop (t : TileIdx) (sl : SlotName)
  /-- MM (R48): MM multiplies the four activation vectors by the weight set and accumulates into accumulator rows, occupying the array. -/
  | macMm (t : TileIdx) (p : Pred) (f : MmF)
  /-- WLD (R51): WLD loads one part of a weight set, setting the format on part 0 and advancing the part counter. -/
  | macWld (t : TileIdx) (p : Pred) (f : WldF)
  /-- XLD (R50): XLD loads the activation block scales XS0 to XS63 from a slot. -/
  | macXld (t : TileIdx) (p : Pred) (f : XldF)
  /-- ACLR (R146): ACLR sets a range of accumulator rows to 0. -/
  | macAclr (t : TileIdx) (p : Pred) (row : BitVec 6) (cnt : BitVec 6)
  /-- ADD (R92): Vector add, in FP32, INT32 or BF16-in-FP32. -/
  | vecAdd (t : TileIdx) (p : Pred) (f : VecF)
  /-- SUB (R92): Vector subtract, in FP32, INT32 or BF16-in-FP32. -/
  | vecSub (t : TileIdx) (p : Pred) (f : VecF)
  /-- MUL (R92): Vector multiply, in FP32, INT32 or BF16-in-FP32. -/
  | vecMul (t : TileIdx) (p : Pred) (f : VecF)
  /-- FMA (R92): Vector fused multiply-add with a single rounding. -/
  | vecFma (t : TileIdx) (p : Pred) (f : VecF)
  /-- MIN (R94): Lane-wise minimum under the NaN and signed-zero rules. -/
  | vecMin (t : TileIdx) (p : Pred) (f : VecF)
  /-- MAX (R94): Lane-wise maximum under the NaN and signed-zero rules. -/
  | vecMax (t : TileIdx) (p : Pred) (f : VecF)
  /-- ABS (R94): Lane-wise absolute value, saturating for INT32. -/
  | vecAbs (t : TileIdx) (p : Pred) (f : VecF)
  /-- NEG (R94): Lane-wise negation, saturating for INT32. -/
  | vecNeg (t : TileIdx) (p : Pred) (f : VecF)
  /-- CLT (R94): Lane-wise less-than comparison, giving all ones or 0. -/
  | vecClt (t : TileIdx) (p : Pred) (f : VecF)
  /-- CEQ (R94): Lane-wise equality comparison, giving all ones or 0. -/
  | vecCeq (t : TileIdx) (p : Pred) (f : VecF)
  /-- SEL (R53): Lane-wise select of va or vb by vc. -/
  | vecSel (t : TileIdx) (p : Pred) (f : VecF)
  /-- AND (R53): Bitwise AND of two vector registers. -/
  | vecAnd (t : TileIdx) (p : Pred) (f : VecF)
  /-- OR (R53): Bitwise OR of two vector registers. -/
  | vecOr (t : TileIdx) (p : Pred) (f : VecF)
  /-- XOR (R53): Bitwise XOR of two vector registers. -/
  | vecXor (t : TileIdx) (p : Pred) (f : VecF)
  /-- SHL (R95): INT32 left shift by vb[4:0]. -/
  | vecShl (t : TileIdx) (p : Pred) (f : VecF)
  /-- SHR (R95): INT32 logical right shift by vb[4:0]. -/
  | vecShr (t : TileIdx) (p : Pred) (f : VecF)
  /-- SRA (R95): INT32 arithmetic right shift by vb[4:0]. -/
  | vecSra (t : TileIdx) (p : Pred) (f : VecF)
  /-- RCP (R96): Correctly rounded FP32 reciprocal. -/
  | vecRcp (t : TileIdx) (p : Pred) (f : VecF)
  /-- RSQ (R96): Correctly rounded FP32 reciprocal square root. -/
  | vecRsq (t : TileIdx) (p : Pred) (f : VecF)
  /-- EXP2 (R96): Correctly rounded FP32 base-2 exponential. -/
  | vecExp2 (t : TileIdx) (p : Pred) (f : VecF)
  /-- LOG2 (R96): Correctly rounded FP32 base-2 logarithm. -/
  | vecLog2 (t : TileIdx) (p : Pred) (f : VecF)
  /-- RSUM (R55): Fixed-tree sum of all lanes, broadcast to every lane. -/
  | vecRsum (t : TileIdx) (p : Pred) (f : VecF)
  /-- RMAX (R55): Fixed-tree maximum of all lanes, broadcast to every lane. -/
  | vecRmax (t : TileIdx) (p : Pred) (f : VecF)
  /-- SHUF (R53): Lane shuffle by XOR with IMM5. -/
  | vecShuf (t : TileIdx) (p : Pred) (f : VecF)
  /-- ROT (R53): Lane rotation by IMM5. -/
  | vecRot (t : TileIdx) (p : Pred) (f : VecF)
  /-- BCST (R53): Broadcast of lane IMM5 to every lane. -/
  | vecBcst (t : TileIdx) (p : Pred) (f : VecF)
  /-- CVT (R83): Format conversion chosen by the IMM5 selector. -/
  | vecCvt (t : TileIdx) (p : Pred) (f : VecF)
  /-- QNT (R97): Requantises INT32 with a multiplier, a shift and a zero point to a narrow integer. -/
  | vecQnt (t : TileIdx) (p : Pred) (f : VecF)
  /-- SRND (R98): Stochastic rounding of FP32 to BF16 with random bits, in adaptation programs only. -/
  | vecSrnd (t : TileIdx) (p : Pred) (f : VecF)
  /-- GEN (R58): Fills the lanes with the next 32 generator draws of a stream and advances its draw counter. -/
  | vecGen (t : TileIdx) (p : Pred) (f : VecF)
  /-- RDAC (R53): Reads an accumulator row into a V register, optionally clearing the row. -/
  | vecRdac (t : TileIdx) (p : Pred) (f : VecF)
  /-- WRAC (R53): Writes a V register into an accumulator row. -/
  | vecWrac (t : TileIdx) (p : Pred) (f : VecF)
  /-- MOVV (R53): Copies one V register to another. -/
  | vecMovv (t : TileIdx) (p : Pred) (f : VecF)
  /-- LDV (R61): Loads a scratchpad slot into V registers, widened by FMT. -/
  | movLdv (t : TileIdx) (p : Pred) (f : LdvF)
  /-- STV (R80): Stores V register bits into a slot, packed by FMT, under its tag mode. -/
  | movStv (t : TileIdx) (p : Pred) (f : LdvF)
  /-- CPY (R60): Copies one local slot to another with a read and a write tag mode. -/
  | movCpy (t : TileIdx) (p : Pred) (f : CpyF)
  /-- PUT (R150): Sends a local slot to a slot of a remote tile through the routers. -/
  | movPut (t : TileIdx) (p : Pred) (f : PutF)
  /-- GLD (R63): Requests a stack granule into a local slot. -/
  | movGld (t : TileIdx) (p : Pred) (f : GldF)
  /-- GST (R63): Sends a local slot to a stack granule. -/
  | movGst (t : TileIdx) (p : Pred) (f : GldF)
  /-- SETA (R60): Sets an address register to an immediate. -/
  | movSeta (t : TileIdx) (p : Pred) (n : BitVec 4) (imm : BitVec 13)
  /-- TAGS (R160): Sets the tag of a slot and resets its skew. -/
  | movTags (t : TileIdx) (p : Pred) (n : BitVec 4) (inc : Bool) (tag : Bool) (off : BitVec 11)
  /-- VOUT (R64): Sends a slot as the current sample's verdict payload to the host interface. -/
  | movVout (t : TileIdx) (n : BitVec 4) (tm : BitVec 2) (inc : Bool)
  /-- LWAIT (R156): Presents a wait on a latch, which the bundle holds for until the latch unit grants it. -/
  | syncLwait (t : TileIdx) (n : BitVec 4) (imm : BitVec 8)
  /-- LSIG (R65): Sends a signal that adds IMM8 to a latch count. -/
  | syncLsig (t : TileIdx) (n : BitVec 4) (imm : BitVec 8)
  /-- NEXT (R66): Loads the sample register from a descriptor slot with TAKE and clears the draw counters. -/
  | syncNext (t : TileIdx) (n : BitVec 4)
  /-- PASS (R66): Writes the sample register to a descriptor slot with FILL. -/
  | syncPass (t : TileIdx) (n : BitVec 4)
  /-- WOPN (R118): Opens a window descriptor and advances its generation. -/
  | syncWopn (t : TileIdx) (w : BitVec 3)
  /-- WCLS (R118): Closes a window descriptor. -/
  | syncWcls (t : TileIdx) (w : BitVec 3)
  /-- LOOP (R67): Starts a zero-overhead loop level with a trip count. -/
  | ctlLoop (t : TileIdx) (level : BitVec 2) (n : BitVec 4)
  /-- ENDL (R67): Ends a loop body, decrementing the count or falling through. -/
  | ctlEndl (t : TileIdx) (level : BitVec 2)
  /-- STEP (R38): Ends a step: increments the step counter and returns to the entry address. -/
  | ctlStep (t : TileIdx)
  /-- ARST (R148): Resets chosen registers, ACP or part counters to their descriptor values. -/
  | ctlArst (t : TileIdx) (kind : BitVec 3) (index : BitVec 4)
  /-- TALY (R455): Adds the bundle's STV, CPY or PUT data as a unit to a tally stream. -/
  | ctlTaly (t : TileIdx) (stream : BitVec 3)
  /-- HALT (R68): Stops issuing and puts an adaptation tile in HALT. -/
  | ctlHalt (t : TileIdx)
  /-- SLIP (R159): A held bundle's counted cycles reach its slack budget: F2 is set, the slip is reported and the bundle issues with its conditions resolved. -/
  | slip (t : TileIdx)
  /-- REMOTE_WRITE_ARRIVAL (R120): A PUT, sluice, ring or device-block write reaches its target and is checked against the windows. -/
  | remoteWriteArrival (n : Nat)
  /-- INBOUND_DRAIN (R34): A ready inbound buffer entry drains into its bank and sets its tag, or is discarded by skew. -/
  | inboundDrain (t : TileIdx) (bank : Fin 8)
  /-- GLD_REPLY (R152): A GLD reply becomes visible in its local slot at c + S, or later when the channel was late. -/
  | gldReply (n : Nat)
  /-- STACK_CHANNEL_ACCESS (R103): A stack channel serves one waiting request in an accepting phase, scheduled requests first. -/
  | stackChannelAccess (stack : Fin 6) (ch : Fin 32)
  /-- STACK_WINDOW_UPDATE (R148): The state change of a stack window from WOPN or WCLS takes effect at the stack after q cycles. -/
  | stackWindowUpdate (n : Nat)
  /-- LATCH_SIGNAL_ARRIVAL (R130): A signal reaches the latch unit and is added to the count, or is discarded at a revoked or free latch. -/
  | latchSignalArrival (n : Nat)
  /-- LATCH_WAIT_GRANT (R130): The latch unit grants a pending wait of a tile, engine, sampler or PREP in order and subtracts its amount. -/
  | latchWaitGrant (l : Fin 16384)
  /-- SLUICE_DESCRIPTOR_START (R125): A sluice engine starts a descriptor after its gate, fixes its generation and checks later-pass ranges. -/
  | sluiceDescriptorStart (e : Fin 32)
  /-- SLUICE_COMPLETE (R125): A sluice descriptor completes in order, writes its completion record and signals its latch. -/
  | sluiceComplete (e : Fin 32)
  /-- SLUICE_QUEUE_DESCRIPTOR (R123): A sluice descriptor is taken from a SLUICE queue for an engine in QUEUE mode. -/
  | sluiceQueueDescriptor (e : Fin 32) (entry : Slot)
  /-- SLUICE_ABORT (R127): A write of MEM_SLU_CTL.ABORT aborts in-flight descriptors without completion records. -/
  | sluiceAbort (e : Fin 32)
  /-- SLUICE_FAULT (R128): An internal engine error puts the engine in FAULT, which is FATAL. -/
  | sluiceFault (e : Fin 32)
  /-- PATROL_SCRUB (R137): A patrol scrub uses an unclaimed channel cycle to correct or report memory errors. -/
  | patrolScrub (u : ScrubUnit)
  /-- LEASE_EXPIRY (R133): A holder stays not live for TERM µs and its lease expires. -/
  | leaseExpiry (h : Holder)
  /-- REVOCATION_COMPLETE (R135): The zero-fill of a revocation completes and REVOKING clears. -/
  | revocationComplete
  /-- MEM_CE_CLR (R138): A write of MEM_CE_CLR.CLR zeroes the corrected-error counters. -/
  | memCeClr
  /-- TILE_CNT_CLR (R70): A write of TILE_CNT_CTL.CLR zeroes the tile's counters. -/
  | tileCntClr (t : TileIdx)
  /-- PMEM_UE (R438): An uncorrectable program memory error puts a tile in FAULT, which is FATAL. -/
  | pmemUe (t : TileIdx)
  /-- STEM_LINE_TAKE (R228): The stem engine takes a port's next line from the vision buffer once its line store has room. -/
  | stemLineTake (die : Fin 2) (port : Fin 6)
  /-- STEM_ROW_WRITE (R182): A stem output row is computed and written to the stem ring once its last input line has arrived. -/
  | stemRowWrite (die : Fin 2) (port : Fin 6)
  /-- STEM_ROW_DONE (R182): Every granule of a stem row has been checked: STEM_ROWS advances and the row is reported to PREP. -/
  | stemRowDone (die : Fin 2) (port : Fin 6)
  /-- ROI_JOB_START (R188): An ROI sampler job starts after its gate and reads its box list. -/
  | roiJobStart (die : Fin 2)
  /-- ROI_JOB_COMPLETE (R188): Once every crop write has been checked, the sampler writes the status slot and signals completion. -/
  | roiJobComplete (die : Fin 2)
  /-- ROI_ABORT (R193): A write of ROI_CTL.ABORT aborts the current job and leaves the sampler IDLE. -/
  | roiAbort (die : Fin 2)
  /-- ROI_FAULT (R193): An internal sampler error puts the sampler in FAULT, which is FATAL. -/
  | roiFault (die : Fin 2)
  /-- PORT_ENABLE (R347): A PORT_CFG write of EN = 1 checks the port and starts camera lane bring-up. -/
  | portEnable (die : Fin 2) (port : Fin 6) (v : W32) (cable : Cable)
  /-- PORT_DISABLE (R229): A PORT_CFG write of EN = 0 ends acquisition and closes the open frame without padding. -/
  | portDisable (die : Fin 2) (port : Fin 6) (v : W32)
  /-- TRAINING_BLOCK (R346): A training block is received and its tap requests, status and lane report are acted on. -/
  | trainingBlock (lane : LaneId) (octets : W64) (inv : Bool)
  /-- TAP_UPDATE (R342): A requested tap change takes effect at a block boundary within 2 µs. -/
  | tapUpdate (lane : LaneId)
  /-- BLOCK_LOCK (R338): A lane receiver gains block lock after 64 valid sync headers. -/
  | blockLock (lane : LaneId) (marker : Option (BitVec 2)) (inv : Bool)
  /-- BLOCK_LOCK_LOSS (R338): A lane receiver slips after 16 invalid headers within 64 blocks. -/
  | blockLockLoss (lane : LaneId) (bad : Nat)
  /-- WINDOW_FAULT (R338): An error window of 32 768 blocks ends holding 16 or more invalid headers. -/
  | windowFault (lane : LaneId) (bad : Nat)
  /-- LOCK_TIMEOUT (R347): A lane has not locked within 10 ms of training start or preset trial. -/
  | lockTimeout (port : PortId)
  /-- QUALITY_CHECK (R347): The 65 536-block quality check of a port's lanes ends, passing or failing. -/
  | qualityCheck (port : PortId) (bad : List Nat)
  /-- ADAPTIVE_TRAINING_END (R346): Adaptive training ends at the best tap setting found, within 50 ms per lane. -/
  | adaptiveTrainingEnd (port : PortId)
  /-- DESKEW_DONE (R340): A port's lanes are aligned by markers, or report DESKEW when the skew exceeds 48 blocks. -/
  | deskewDone (port : PortId) (skew : Nat)
  /-- BRINGUP_RETRY (R347): 100 ms after a failed bring-up step, the port restarts bring-up. -/
  | bringupRetry (port : PortId)
  /-- RELOCK_TIMEOUT (R350): A READY camera port that has not relocked within 1 ms returns to full bring-up. -/
  | relockTimeout (die : Fin 2) (port : Fin 6)
  /-- VER_SEND (R205): Every 100 µs until a camera VER arrives, the intake sends VER on the port. -/
  | verSend (die : Fin 2) (port : Fin 6)
  /-- VER (R205): A VER packet from a camera agrees a version, or restarts agreement from READY or ACQUIRE. -/
  | camVer (cam : CamPort) (blks : List Block)
  /-- FRAME_START (R211): A Frame Start opens a frame, enters ACQUIRE and applies any pending flat-field bank change. -/
  | frameStart (cam : CamPort) (blks : List Block)
  /-- FRAME_END (R212): A Frame End closes the frame, pads it with FILL lines and writes its statistics record. -/
  | frameEnd (cam : CamPort) (blks : List Block)
  /-- LINE_START (R208): A Line Start gives the next line its tag and the position stamp of that tag. -/
  | lineStart (cam : CamPort) (blks : List Block)
  /-- LINE_END (R200): A Line End is accepted and ignored. -/
  | lineEnd (cam : CamPort) (blks : List Block)
  /-- PIXEL_PACKET (R209): A pixel packet becomes a line that is stamped, corrected and handed to the three taps. -/
  | pixelPacket (die : Fin 2) (port : Fin 6) (start : Block) (rest : List Block)
  /-- ECHO (R204): A camera ECHO packet is copied into PORT_ECHO. -/
  | camEcho (cam : CamPort) (blks : List Block)
  /-- PMARK (R210): A PMARK packet becomes a marker record stamped with the position at arrival. -/
  | pmark (cam : CamPort) (blks : List Block)
  /-- HDR_UE (R213): A packet with an uncorrectable header is discarded, and the next line carries GAP. -/
  | hdrUe (cam : CamPort) (blks : List Block)
  /-- FRAMING_ERROR (R198): A block-stream framing error ends any open packet as truncated. -/
  | framingError (die : Fin 2) (port : Fin 6) (blks : List Block)
  /-- LTRIG (R207): The position reaches the triggered-mode target T, and an LTRIG is sent and recorded in the tag table. -/
  | ltrig (die : Fin 2) (port : Fin 6)
  /-- PORT_EXP_COMMIT (R219): A write of PORT_EXP_CMD.COMMIT advances GEN, sets TGT and sends an EXPCTL. -/
  | portExpCommit (die : Fin 2) (port : Fin 6)
  /-- FFC_TABLE_WRITE (R217): A host write to a flat-field table is accepted, or discarded when that table is in use. -/
  | ffcTableWrite (die : Fin 2) (port : Fin 6) (bank : Bool) (x : BitVec 14) (v : W32)
  /-- CROP_REQUEST (R226): A crop request is taken from the archive request queue. -/
  | cropRequest (die : Fin 2) (req : BitVec 256)
  /-- CODER_START (R225): The JPEG-LS coder starts the next ready image, or answers EXPIRED, RANGE or CFG. -/
  | coderStart (die : Fin 2)
  /-- ARCHIVE_RECORD (R227): The coder finishes an image and writes its archive-output record. -/
  | archiveRecord (die : Fin 2)
  /-- MARKER_RECORD (R235): PREP processes a marker record, opening or closing parts and stripes, or a SWAP part in a drain window. -/
  | markerRecord
  /-- SAMPLE_READY (R245): Every plane of a sample and its reference have been written and checked. -/
  | sampleReady (idx : BitVec 48)
  /-- PREP_DEADLINE (R245): A sample that is not ready at t_rows + T_SDL becomes a void, LATE or CORRUPT. -/
  | prepDeadline (idx : BitVec 48)
  /-- REF_DECODE_START (R240): A reference decoder starts the next reference in index order. -/
  | refDecodeStart (die : Fin 2)
  /-- REF_DECODE_DONE (R240): A reference decode ends and is written, or makes the part a CORRUPT void. -/
  | refDecodeDone (die : Fin 2)
  /-- BATCH_CLOSE_TIMEOUT (R244): A batch closes at t_open + T_CLOSE, with the unassigned places made PAD. -/
  | batchCloseTimeout (b : Fin 8)
  /-- BATCH_HANDOVER (R244): A closed batch whose samples are ready or void has its descriptors written and RDY signalled. -/
  | batchHandover (b : Fin 8)
  /-- LABEL (R254): A label record is handled and a label result is written. -/
  | adaptLabel (ent : BitVec 128)
  /-- RUN (R257): An adaptation RUN command starts a drain, an update run and a reload. -/
  | adaptRun (ent : Slot)
  /-- SELECT (R266): An adaptation SELECT command changes the active version through a drain. -/
  | adaptSelect (ent : Slot)
  /-- COMMIT (R267): An adaptation COMMIT command writes a version to flash as the boot version of its weave. -/
  | adaptCommit (ent : Slot)
  /-- ADAPT_DISCARD (R273): An adaptation DISCARD command frees a version slot. -/
  | adaptDiscard (ent : Slot)
  /-- EXPORT (R270): An adaptation EXPORT command produces a wrapped weight package of a version. -/
  | adaptExport (ent : Slot)
  /-- CLEAR (R272): An adaptation CLEAR command empties the label store. -/
  | adaptClear (ent : Slot)
  /-- STATUS (R274): An adaptation STATUS command reports the active version, the occupied slots and the boot version. -/
  | adaptStatus (ent : Slot)
  /-- EPOCH_START (R262): After its release-latch grant, PREP writes one epoch of run descriptors. -/
  | epochStart
  /-- RUN_END (R263): Every ADAPT tile has halted and every plan has reached its limit: the run's checks run and WDIGEST is computed. -/
  | runEnd
  /-- RUN_TIMEOUT (R263): A run has not ended within its timeout and fails with TIMEOUT. -/
  | runTimeout
  /-- P_STOP (R258): The position base reaches P_STOP and intake stops accepting for a drain. -/
  | pStop
  /-- DRAIN_END (R489): Every part accepted before P_STOP has its record, and the old weave stops. -/
  | drainEnd
  /-- LOAD_COMPLETE (R483): A weave load finishes, and the weave starts at a common start on an alignment tick. -/
  | loadComplete
  /-- P_RESUME (R489): The position reaches P_RESUME, or the load ends later, and intake accepts again. -/
  | pResume
  /-- P_SW (R487): The side-by-side switch position is reached, and the bank rotation commits. -/
  | pSw
  /-- OLD_WEAVE_DONE (R487): Every part of the old weave has its record, and its resources become FREE. -/
  | oldWeaveDone
  /-- ENCODER_STEP (R276): An accepted change of A and B moves the raw count and the reported position. -/
  | encoderStep (enc : Fin 2) (a : Bool) (b : Bool) (close : Bool)
  /-- LOS (R279): An encoder receiver stays in the loss-of-signal band for 1 µs. -/
  | los (enc : Fin 2) (pin : EncPin)
  /-- LOS_CLEAR (R279): An encoder signal has been valid for 1 µs and its loss status clears. -/
  | losClear (enc : Fin 2) (pin : EncPin)
  /-- INDEX_EDGE (R280): A rising edge of Z captures ENC_ZCAP and checks the index distance. -/
  | indexEdge (enc : Fin 2)
  /-- ENC_CMD_LOAD (R281): A write of ENC_CMD.LOAD sets the base to ENC_LOAD, or is refused. -/
  | encCmdLoad (enc : Fin 2)
  /-- ENC_CFG_WRITE (R283): An ENC_CFG write that changes DIV resets the observer state. -/
  | encCfgWrite (enc : Fin 2) (v : W32)
  /-- OBS_G3_WRITE (R283): A write of OBS_G3 makes the held gains take effect at the next update. -/
  | obsG3Write (enc : Fin 2) (v : W32)
  /-- OBSERVER_UPDATE (R283): The tracking observer updates d, u and w at its interval. -/
  | observerUpdate (enc : Fin 2)
  /-- OVERSPEED_CLEAR (R299): The speed has stayed at or below V_MAX × 63/64 for 1 ms and OVERSPEED clears. -/
  | overspeedClear (enc : Fin 2)
  /-- PT_WRITE (R285): A write of PT_CFG, PT_PITCH or PT_LEN is applied, or ignored as a whole with PT_CFG. -/
  | ptWrite (t : Fin 4) (r : PtReg) (v : W32)
  /-- PITCH_MARKER (R285): The position reaches the next fixed-pitch target and a leading marker is produced. -/
  | pitchMarker (t : Fin 4)
  /-- TRAILING_MARKER (R285): The position reaches the leading position plus PT_LEN and a trailing marker is produced. -/
  | trailingMarker (t : Fin 4)
  /-- ARM (R289): An ARM record is checked and arms the lowest free spout entry, or is refused. -/
  | spoutArm (q : Fin 8192) (ent : BitVec 256)
  /-- CANCEL (R294): A CANCEL record frees or ends a matching spout entry, or returns NOENT. -/
  | spoutCancel (q : Fin 8192) (ent : BitVec 256)
  /-- SPOUT_RULE_ARM (R296): When a verdict record becomes VALID, each matching spout rule arms an entry within 200 ns. -/
  | spoutRuleArm
  /-- STROBE_FIRE (R291): The position reaches an entry's target and its strobe outputs switch on. -/
  | strobeFire (e : Fin 4096)
  /-- COMMAND_INSTANT (R292): The estimated position plus the lead reaches the target and the isolated outputs are commanded. -/
  | commandInstant (e : Fin 4096)
  /-- PULSE_END (R293): An entry's pulse ends by width or position, and its final record is written. -/
  | pulseEnd (e : Fin 4096)
  /-- PULSE_MAXON (R293): A pulse reaches SPT_CFG.MAXON and ends with FIRED_MAXON. -/
  | pulseMaxon (e : Fin 4096)
  /-- LATE_CHECK (R300): While OVERSPEED is raised, outstanding samples are checked at least every microsecond and late ones get LATE records. -/
  | lateCheck
  /-- BACKSTOP (R166): A sample without a record reaches its backstop position and gets UNDECIDED, SLIP or LATE. -/
  | backstop (idx : BitVec 48)
  /-- POS_SNAP_CAPTURE (R309): A write of POS_SNAP_CTL.CAPTURE copies TB0 to TB4 at one instant. -/
  | posSnapCapture
  /-- ANNOUNCE (R304): A PTP Announce message is received and fed to the best master clock algorithm. -/
  | ptpAnnounce (m : AnnounceMsg)
  /-- SYNC (R306): A PTP Sync message is received and time-stamped. -/
  | ptpSync (m : SyncMsg)
  /-- FOLLOW_UP (R304): A PTP Follow_Up message from a two-step master is received. -/
  | ptpFollowUp (id : PtpId) (t1 : W64)
  /-- DELAY_REQ (R307): A PTP Delay_Req is sent and its transmit stamp is queued. -/
  | ptpDelayReq (seq : BitVec 16)
  /-- DELAY_RESP (R304): A PTP Delay_Resp message is received. -/
  | ptpDelayResp (id : PtpId) (t4 : W64)
  /-- TB0_STEP (R305): The servo steps TB0 by a signed value and sets PTP_STEP. -/
  | tb0Step (v : W64)
  /-- HOLDOVER (R308): The announce timeout, a grandmaster change or link loss puts TB0 in HOLDOVER. -/
  | holdover (gmChange : Bool)
  /-- MGMT_LINK_DOWN (R308): The management link goes down. -/
  | mgmtLinkDown
  /-- DOWN_FRAME (R326): At each 400 ns slot the FLD block sends an event or configuration down frame. -/
  | downFrame
  /-- EVENT_FRAME (R325): The field side receives a valid event frame and schedules its output states. -/
  | eventFrame (fr : W64)
  /-- STATE_APPLY (R325): The field side applies a frame's output state at its offset. -/
  | stateApply
  /-- CONFIGURATION_FRAME (R327): The field side applies a configuration frame to a debounce, safe-state, timeout, wire-break or overcurrent setting. -/
  | configurationFrame (fr : W64)
  /-- RESUME (R331): The field side applies a RESUME frame and leaves SAFE. -/
  | fldResume (fr : W64)
  /-- FORCE_SAFE (R331): The field side applies a FORCE_SAFE frame and enters SAFE. -/
  | fldForceSafe (fr : W64)
  /-- UP_FRAME_SEND (R328): The field side sends an edge or diagnostic up frame in each slot. -/
  | upFrameSend
  /-- UP_FRAME (R329): The module side receives an up frame, updates the levels and delivers any edge to the part triggers. -/
  | upFrame (fr : W64)
  /-- INPUT_EDGE (R315): A raw input level holds for DEB µs and is accepted as an edge at t_e. -/
  | inputEdge (ch : Fin 16) (level : Bool)
  /-- SILENCE_TIMEOUT (R331): No valid down frame arrives for the silence timeout and the field side enters SAFE. -/
  | silenceTimeout
  /-- DOWN_LOCK_LOSS (R331): The field side's down receiver loses lock and the field side enters SAFE. -/
  | downLockLoss
  /-- CONTROLLER_START (R312): L+ rises through 10 V and the field controller starts in SAFE with its defaults. -/
  | controllerStart
  /-- LPLUS_UV (R311): L+ falls below its undervoltage threshold and every output is off. -/
  | lplusUv
  /-- OVERCURRENT (R318): An output passes its current or temperature limit and is latched off. -/
  | overcurrent (ch : Fin 16)
  /-- WIRE_BREAK (R316): An input current stays below the break threshold for 10 ms and a break is reported. -/
  | wireBreak (ch : Fin 16)
  /-- WIRE_BREAK_CLEAR (R316): An input current stays above the break threshold for 10 ms and the break clears. -/
  | wireBreakClear (ch : Fin 16)
  /-- RB_MIS (R319): An output's readback mismatch lasts RBT µs. -/
  | rbMis (ch : Fin 16)
  /-- UP_LOCK (R334): The up receiver gains lock, and every field-side setting is queued for writing. -/
  | upLock
  /-- UP_LOST (R335): The up receiver loses lock, and the module side keeps its last values and suspends readback. -/
  | upLost
  /-- FLD_CMD_RESUME (R332): A host write of FLD_CMD.RESUME queues a RESUME frame. -/
  | fldCmdResume
  /-- FLD_CMD_FORCE_SAFE (R327): A host write of FLD_CMD.FORCE_SAFE queues a FORCE_SAFE frame. -/
  | fldCmdForceSafe
  /-- FLD_OC_CLEAR (R318): A W1C write of FLD_OC clears latch bits and queues an overcurrent clear. -/
  | fldOcClear (v : W32)
  /-- FLD_OUT_HOST_WRITE (R320): A write of FLD_OUT_HOST changes the commanded outputs without lead. -/
  | fldOutHostWrite (v : W32)
  /-- RING_LINK_ENABLE (R352): RP_CTL.EN is set and the ring link starts blind bring-up. -/
  | ringLinkEnable (p : Fin 4) (v : W32) (cable : Cable)
  /-- RETRAIN (R365): A write of RP_CTL.RETRAIN faults the link and brings it up again. -/
  | ringRetrain (p : Fin 4)
  /-- PRESET_RETRY (R352): After 10 ms the ring port tries the next preset, or reports RP_DOWN. -/
  | presetRetry (p : Fin 4)
  /-- RING_LINK_FAULT (R365): A ring link faults: the transmitter stops and bring-up restarts. -/
  | ringLinkFault (p : Fin 4)
  /-- UNWRAP_HOLDOFF (R367): The link has been ACTIVE for HOLDOFF with UNWRAP_ARM set and the port unwraps. -/
  | unwrapHoldoff (p : Fin 4)
  /-- UNWRAP (R367): A write of LNK_WRAP.UNWRAP unwraps every wrapped port whose link is ACTIVE. -/
  | unwrap
  /-- RILL_VER_SEND (R358): Every 10 µs until a VER arrives, the link sends a VER frame. -/
  | rillVerSend (p : Fin 4)
  /-- RILL_VER (R358): A ring VER frame is received and the Rill version and the ports are agreed or failed. -/
  | rillVer (p : Fin 4) (fr : RFrame)
  /-- RILL_ECHO (R362): An ECHO frame is received, answered, or used as one of 64 hop-latency measurements. -/
  | rillEcho (p : Fin 4) (fr : RFrame) (t : W64)
  /-- HELLO_SEND (R354): Every 50 µs the module broadcasts HELLO. -/
  | helloSend
  /-- HELLO (R360): A HELLO frame is received and its sender is kept as a member, with duplicate IDs detected. -/
  | ringHello (p : Fin 4) (fr : RFrame)
  /-- MEMBER_EXPIRY (R360): No HELLO has arrived from a module for 200 µs and it leaves the members. -/
  | memberExpiry (m : Fin 32)
  /-- TOKEN_SEND (R361): The token holder sends TOKEN every 10 µs. -/
  | tokenSend
  /-- TOKEN (R361): A TOKEN frame is accepted or discarded by generation, holder and NEXT. -/
  | ringToken (p : Fin 4) (fr : RFrame)
  /-- TOKEN_EXPIRY (R361): No TOKEN is accepted for TERM µs and the token's lease expires. -/
  | tokenExpiry
  /-- TOKEN_PASS (R361): A write of LNK_TOKEN.PASS sends TOKEN naming PASS_TO as the next holder. -/
  | tokenPass
  /-- TB2SYNC_SEND (R363): The TB2 master sends TB2SYNC every 10 µs out of both ports. -/
  | tb2syncSend
  /-- TB2SYNC (R363): A TB2SYNC is accepted, steps or slews TB2, and is sent onward. -/
  | tb2sync (p : Fin 4) (fr : RFrame)
  /-- TB2_LOST (R363): No TB2SYNC arrives for 100 µs and TB2_VALID clears. -/
  | tb2Lost
  /-- WRAPN (R366): A WRAPN frame is received and routes are recomputed. -/
  | ringWrapn (p : Fin 4) (fr : RFrame)
  /-- WRITE (R356): A ring WRITE frame is received and its granules become remote writes at this module. -/
  | ringWrite (p : Fin 4) (fr : RFrame)
  /-- DROP (R357): A DROP frame is received and logged in LNK_DROP_STAT. -/
  | ringDrop (p : Fin 4) (fr : RFrame)
  /-- VERDICT (R390): A VERDICT frame is received and handled as a local VOUT with REMOTE. -/
  | ringVerdict (p : Fin 4) (fr : RFrame)
  /-- REMAP (R354): A REMAP frame of the current token generation is delivered to the ring message queue. -/
  | ringRemap (p : Fin 4) (fr : RFrame)
  /-- FRAME_CRC_FAIL (R353): A Rill frame fails its CRC, or its GCM tag or sequence check, and is discarded. -/
  | frameCrcFail (p : Fin 4) (k : FrameFault)
  /-- XOFF (R355): An XOFF block pauses a frame class on the link. -/
  | ringXoff (p : Fin 4) (cls : Fin 6)
  /-- XON (R355): An XON block resumes a frame class on the link. -/
  | ringXon (p : Fin 4) (cls : Fin 6)
  /-- RING_PLAN_DESCRIPTOR (R356): The ring send engine starts a ring-plan descriptor and sends its WRITE frames. -/
  | ringPlanDescriptor (plane : Fin 2)
  /-- RING_PLAN_COMPLETE (R356): A ring descriptor completes once its last WRITE frame has left the port. -/
  | ringPlanComplete (plane : Fin 2)
  /-- WEIR_INSERT (R370): A write of LNK_WEIR.INSERT switches a weir between BYPASS and INSERTED. -/
  | weirInsert (v : W32)
  /-- WEIR_SWITCH_DONE (R370): A weir finishes switching, or reports WEIR when it has not settled within 60 µs. -/
  | weirSwitchDone (plane : Fin 2) (settled : Bool)
  /-- STAGING_ACCESS (R377): A BAR2 access reads or writes DDR4 in the host region, or is refused. -/
  | stagingAccess (write : Bool) (off : BitVec 30) (size : Nat) (data : List Byte)
  /-- BAD_WIDTH_ACCESS (R14): A BAR access of a width or alignment that is not allowed returns all ones or is discarded, and sets WIDTH. -/
  | badWidthAccess (bar : Bar) (off : W32) (size : Nat) (write : Bool)
  /-- LOW_HALF_READ (R15): A read of the lower register of a 64-bit pair copies the upper half into the shadow. -/
  | lowHalfRead (addr : BitVec 26)
  /-- RECORD_AREA_WRITE (R374): A write to a BAR4 record area is discarded and sets BAR4W. -/
  | recordAreaWrite (off : BitVec 24) (size : Nat)
  /-- REGISTER_WRITE (R17): A write to any register without a row of its own acts by its access code. -/
  | registerWrite (bar : Bar) (addr : BitVec 26) (v : W32)
  /-- DOORBELL_WRITE (R381): A doorbell write sets the host-owned index of a queue, or is ignored. -/
  | doorbellWrite (q : Fin 8192) (v : W32)
  /-- Q_CFG_WRITE (R379): A Q_CFG write enables or disables a queue after the checks of R379. -/
  | qCfgWrite (q : Fin 8192) (v : W32)
  /-- IRQ_TIMER (R384): TIME µs pass after an unsignalled entry, and the queue's MSI-X vector is signalled. -/
  | irqTimer (q : Fin 8192)
  /-- QUEUE_FETCH_FAIL (R382): An H2D DMA read fails and the queue is disabled. -/
  | queueFetchFail (q : Fin 8192)
  /-- RECIPE (R386): A RECIPE command loads and admits a recipe image, or refuses it. -/
  | recipeLoad (q : Fin 8192) (ent : Slot)
  /-- LOT_START (R388): A LOT_START command opens a lot with an index base. -/
  | lotStart (q : Fin 8192) (ent : Slot)
  /-- LOT_END (R388): A LOT_END command closes the lot at P_END. -/
  | lotEnd (q : Fin 8192) (ent : Slot)
  /-- LOT_END_DONE (R388): Every part accepted in the lot has its record, and the LOT_END completion is written. -/
  | lotEndDone
  /-- FENCE (R385): A FENCE command completes in queue order. -/
  | fence (q : Fin 8192) (ent : Slot)
  /-- RING_TX (R389): A ring message from the RING_TX queue is sent as a REMAP frame and completes as RING_SEND. -/
  | ringTx (q : Fin 8192) (msg : List Slot)
  /-- VERDICT_COMMIT (R392): A VOUT payload reaches the host interface, and a verdict record is committed with its reason. -/
  | verdictCommit
  /-- GET_ID (R426): The GET_ID mailbox command returns the identity and alias keys, the SVN and DEVID. -/
  | mbxGetId (via : MbxVia)
  /-- GET_CERTS (R426): The GET_CERTS mailbox command writes the certificate chain. -/
  | mbxGetCerts (via : MbxVia)
  /-- QUOTE (R407): The QUOTE mailbox command signs a quote, with a fresh ephemeral pair for KIND 3 and 4. -/
  | mbxQuote (via : MbxVia)
  /-- HOST_REGION (R404): The HOST_REGION mailbox command moves the host region while no context is defined. -/
  | mbxHostRegion (via : MbxVia)
  /-- CTX_CREATE (R415): The CTX_CREATE mailbox command defines a context and places its regions. -/
  | mbxCtxCreate (via : MbxVia)
  /-- CTX_DELETE (R415): The CTX_DELETE mailbox command crypto-erases and frees a defined context. -/
  | mbxCtxDelete (via : MbxVia)
  /-- CTX_SWITCH (R417): The CTX_SWITCH mailbox command stops the weave, scrubs, draws keys, loads and imports the new context. -/
  | mbxCtxSwitch (via : MbxVia)
  /-- SCRUB_DONE (R418): The scrub's zeroing and transient zero-fill end and the switch proceeds to its key phase. -/
  | scrubDone
  /-- IMPORT_DONE (R411): The import engine finishes a package import, and a switch reaches its end phase. -/
  | importDone
  /-- KEY_IMPORT (R410): The KEY_IMPORT mailbox command checks a blob and a package and imports the weights. -/
  | mbxKeyImport (via : MbxVia)
  /-- REVOKE (R426): The REVOKE mailbox command revokes a holder's leases. -/
  | mbxRevoke (via : MbxVia)
  /-- RING_KEYGEN (R413): The RING_KEYGEN mailbox command verifies the peers, draws a ring key and writes blobs. -/
  | mbxRingKeygen (via : MbxVia)
  /-- RING_INSTALL (R413): The RING_INSTALL mailbox command verifies the leader and installs the ring session. -/
  | mbxRingInstall (via : MbxVia)
  /-- MGMT_CA (R425): The MGMT_CA mailbox command installs a management CA, optionally locking it. -/
  | mbxMgmtCa (via : MbxVia)
  /-- FW_UPDATE (R426): The FW_UPDATE mailbox command verifies an image and writes it to the inactive flash copy. -/
  | mbxFwUpdate (via : MbxVia)
  /-- EPHEMERAL_EXPIRY (R408): An ephemeral key pair is destroyed 60 s after its quote. -/
  | ephemeralExpiry
  /-- DEXZON_CONNECT (R424): A TLS client connects to Dexzon and is accepted or refused. -/
  | dexzonConnect (hello : DexzonHello) (chain : List Byte)
  /-- STAGE (R481): The STAGE weave command checks an image and commits it as STAGED. -/
  | weaveStage (ctl : W32)
  /-- LOAD (R483): The LOAD weave command loads ACTIVE while no weave runs. -/
  | weaveLoad (ctl : W32)
  /-- ACTIVATE (R481): The ACTIVATE weave command makes STAGED the running weave by a side-by-side or drain swap. -/
  | weaveActivate (ctl : W32)
  /-- ROLLBACK (R481): The ROLLBACK weave command swaps back to PREVIOUS. -/
  | weaveRollback (ctl : W32)
  /-- STOP (R481): The STOP weave command stops the weave at once or by a drain, and unloads the recipe. -/
  | weaveStop (ctl : W32)
  /-- DISCARD (R481): The DISCARD weave command empties STAGED. -/
  | weaveDiscard (ctl : W32)
  /-- ABORT (R481): The ABORT weave command ends a pending swap or stop that has not reached its position. -/
  | weaveAbort (ctl : W32)
  /-- RESPONSE (R442): A matching armed response entry starts its action within 2 µs of the event. -/
  | response
  /-- NONE (R441): Response action NONE does nothing. -/
  | actNone (r : Fin 32)
  /-- FIELD_SAFE (R441): Response action FIELD_SAFE queues FORCE_SAFE. -/
  | actFieldSafe (r : Fin 32)
  /-- FIELD_RESUME (R441): Response action FIELD_RESUME waits up to ARG ms for the crossing to be ready. -/
  | actFieldResume (r : Fin 32)
  /-- FIELD_RESUME_WAIT_END (R441): A FIELD_RESUME wait ends, queueing RESUME or giving TIMEOUT. -/
  | actFieldResumeWaitEnd (r : Fin 32)
  /-- PORT_OFF (R441): Response action PORT_OFF disables a camera port. -/
  | actPortOff (r : Fin 32)
  /-- RING_PORT_OFF (R441): Response action RING_PORT_OFF disables a ring port. -/
  | actRingPortOff (r : Fin 32)
  /-- WEAVE_STOP (R441): Response action WEAVE_STOP stops the weave without a drain and flushes outstanding samples. -/
  | actWeaveStop (r : Fin 32)
  /-- REVOKE_ACTION (R441): Response action REVOKE revokes the leases of the event's source holder. -/
  | actRevoke (r : Fin 32)
  /-- DUMP (R441): Response action DUMP requests a state dump. -/
  | actDump (r : Fin 32)
  /-- DUMP_REQ (R447): A write of FLT_DUMP_CTL.REQ requests a state dump. -/
  | dumpReq
  /-- DUMP_COMPLETE (R447): A state dump finishes writing, VALID is set and DEV DUMP is logged. -/
  | dumpComplete
  /-- DUMP_COPY (R452): A write of FLT_DUMP_CTL.COPY copies the held dump into the host region, or is refused. -/
  | dumpCopy
  /-- DUMP_RELEASE (R447): Writing 1 to FLT_DUMP_STAT.VALID releases the dump area and clears MISSED. -/
  | dumpRelease
  /-- RESTART (R461): Replay command RESTART restarts the ACTIVE weave from its loader state. -/
  | rplRestart
  /-- INJECT (R461): Replay command INJECT claims a batch place, copies a batch image and hands it to the weave. -/
  | rplInject
  /-- RPL_CAPTURE (R462): Replay command CAPTURE writes a tile capture image into the host region. -/
  | rplCapture
  /-- THAW (R462): Replay command THAW releases every frozen tile in the same cycle. -/
  | rplThaw
  /-- FREEZE (R462): The step counter of FLT_RPL_TILE reaches STOP and the fabric freezes. -/
  | freeze
  /-- BATCH_CAPTURE (R460): A write of FLT_BCAP_CTL.START makes PREP copy the next batches of a bucket into images. -/
  | batchCapture (v : W32)
  /-- LPLUS_OK (R311): L+ rises through its rising undervoltage threshold, the field side enables its output stage and reports LPLUS_OK = 1. -/
  | lplusOk
  /-- LPLUS_LOSS (R312): L+ falls below 10 V and the field controller stops, losing its settings. -/
  | lplusLoss
  /-- FIELD_SIDE_OVERTEMP (R328): The field-side controller's over-temperature condition sets or clears, and it is reported on diagnostic page 2 bit 2. -/
  | fieldSideOvertemp (on : Bool)
  /-- MGMT_LINK_UP (R308): The management link comes up again, so PTP messages and Dexzon traffic can flow. -/
  | mgmtLinkUp
  /-- PTP_ENABLE (R304): A write of PTP_CFG.EN starts or stops the PTP port, moving PTP_STAT.STATE between DISABLED and LISTENING. -/
  | ptpEnable (v : W32)
  /-- CONFIGURATION_WRITE (R327): A host write of FLD_DEB, FLD_SAFE, FLD_TIMEOUT or FLD_WBEN queues a configuration frame and sets CFG_PEND. -/
  | configurationWrite (r : FldCfgReg) (v : W32)
  /-- SEC_CFG_WRITE (R402): A write of SEC_CFG changing JTAG_EN or TRACE_EN extends M3 and changes debug access. -/
  | secCfgWrite (v : W32)
  /-- D3HOT (R373): The host moves the endpoint into or out of D3hot, which stops or resumes its answers to memory requests. -/
  | d3hot (enter : Bool)
  /-- THERM_WARN_CLEAR (R492): Every sensor falls back below WARN and CLK_STAT.THERM_WARN clears. -/
  | thermWarnClear (temps : List (BitVec 16))
  /-- VIN_IN_RANGE (R501): The 48 V input returns inside 40 V to 60 V, ending an excursion so that a new one reports VIN_UV or VIN_OV again. -/
  | vinInRange (vin : BitVec 16)
  /-- REF_RESTORED (R474): The reference clock returns and CLK_STAT.REF_OK is set again. -/
  | refRestored
  /-- PLL_RELOCK (R474): A PLL that had lost lock locks again, and its CLK_LOCK bit and PLL_OK are set. -/
  | pllRelock (d : Fin 25)
deriving DecidableEq, Repr

end Sys2Proof
end

