-- ==== Sys2Proof/Decode.lean ====
section
/-! DEFINITION. The command that a word spells. No row of the opcode table gives bits, so no word spells a command. -/
namespace Sys2Proof

/-- The command a word of the table spells: none, because the table gives no row bits (log 3). -/
def decodeTableWord (_nbits _w : Nat) : Option Instr := none

end Sys2Proof
end

