-- ==== Sys2Proof/Machine/FMap.lean ====
section
/-! DEFINITION. Maps from numbers in one canonical form: a list of keys and values, keys strictly rising, that lists no entry
equal to what an unlisted key reads as (`d`). Equal maps are equal lists. -/
namespace Sys2Proof.Machine

/-- The value at a key. -/
def FMap.get {α : Type} (d : Nat → α) : List (Nat × α) → Nat → α
  | [], k => d k
  | e :: m, k => if e.1 = k then e.2 else FMap.get d m k

/-- The map without a key. -/
def FMap.erase {α : Type} (m : List (Nat × α)) (k : Nat) : List (Nat × α) := m.filter fun e => e.1 != k

/-- The map with an entry put before the first greater key. -/
def FMap.ins {α : Type} (k : Nat) (v : α) : List (Nat × α) → List (Nat × α)
  | [] => [(k, v)]
  | e :: m => if k < e.1 then (k, v) :: e :: m else e :: FMap.ins k v m

/-- The map with the value at a key replaced. -/
def FMap.put {α : Type} [DecidableEq α] (d : Nat → α) (m : List (Nat × α)) (k : Nat) (v : α) : List (Nat × α) :=
  if v = d k then FMap.erase m k else FMap.ins k v (FMap.erase m k)

/-- The map with every key of a set back at what an unlisted key reads as. -/
def FMap.clear {α : Type} (m : List (Nat × α)) (p : Nat → Bool) : List (Nat × α) := m.filter fun e => !p e.1

/-- The canonical form. -/
abbrev FMap.Wf {α : Type} (d : Nat → α) (m : List (Nat × α)) : Prop :=
  m.Pairwise (fun e f => e.1 < f.1) ∧ ∀ e ∈ m, e.2 ≠ d e.1

end Sys2Proof.Machine
end

