-- ==== Sys2Proof/Machine/Bytes.lean ====
section
/-! DEFINITION. Bytes and little-endian values (R13), fields of registers (R12), memories as byte maps. -/
namespace Sys2Proof.Machine

/-- The bits hi..lo of a word, as a number (R12). -/
def bits {w : Nat} (v : BitVec w) (hi lo : Nat) : Nat := v.toNat / 2 ^ lo % 2 ^ (hi + 1 - lo)

/-- A bit of a word. -/
def bitAt {w : Nat} (v : BitVec w) (i : Nat) : Bool := v.getLsbD i

/-- The word with its bits hi..lo replaced. -/
def setBits {w : Nat} (v : BitVec w) (hi lo : Nat) (x : Nat) : BitVec w :=
  BitVec.ofNat w (v.toNat - bits v hi lo * 2 ^ lo + x % 2 ^ (hi + 1 - lo) * 2 ^ lo)

/-- A number's bits hi..lo. -/
def nbits (v hi lo : Nat) : Nat := v / 2 ^ lo % 2 ^ (hi + 1 - lo)

/-- 1 for true. -/
def b2n (b : Bool) : Nat := if b then 1 else 0

/-- A two's complement reading of the low w bits of a number. -/
def sext (w v : Nat) : Int :=
  let x := v % 2 ^ w
  if 2 * x < 2 ^ w then x else (x : Int) - 2 ^ w

/-- The low w bits of an integer, as a number. -/
def wrap (w : Nat) (x : Int) : Nat := (x % 2 ^ w).toNat

/-- The value of little-endian bytes (R13). -/
def leNat : List Byte → Nat
  | [] => 0
  | b :: bs => b.toNat + 256 * leNat bs

/-- The n little-endian bytes of a number (R13). -/
def leBytes : Nat → Nat → List Byte
  | 0, _ => []
  | n + 1, v => BitVec.ofNat 8 v :: leBytes n (v / 256)

/-- The value of big-endian bytes (R399). -/
def beNat (bs : List Byte) : Nat := leNat bs.reverse

/-- The n big-endian bytes of a number (R399). -/
def beBytes (n v : Nat) : List Byte := (leBytes n v).reverse

/-- The number in n bytes of a list from an offset; bytes beyond the end read 0. -/
def fieldAt (bs : List Byte) (off n : Nat) : Nat := leNat ((bs.drop off).take n)

/-- The bytes from an offset, as many as asked for. -/
def slice (bs : List Byte) (off n : Nat) : List Byte := (bs.drop off).take n

/-- The ASCII bytes of a string (R399). -/
def ascii (s : String) : List Byte := s.toList.map fun c => BitVec.ofNat 8 c.toNat

/-- Zero bytes. -/
def zeros (n : Nat) : List Byte := List.replicate n 0

/-- The list cut or filled with zeros to a length. -/
def padTo (n : Nat) (bs : List Byte) : List Byte := (bs ++ zeros (n - bs.length)).take n

/-- What a byte that nothing has written reads as. DESIGN CHOICE (log 1), unsafe: the spec gives DDR4 no content at power-up. -/
def emptyByte : Nat → Byte := fun _ => 0

/-- A byte of a memory. -/
def readByte (m : List Host.Cell) (a : Nat) : Byte := FMap.get emptyByte m a

/-- Bytes of a memory from an address upward. -/
def readBytes (m : List Host.Cell) (a : Nat) : Nat → List Byte
  | 0 => []
  | n + 1 => readByte m a :: readBytes m (a + 1) n

/-- A memory with bytes stored from an address upward. -/
def writeBytes (m : List Host.Cell) (a : Nat) : List Byte → List Host.Cell
  | [] => m
  | b :: bs => writeBytes (FMap.put emptyByte m a b) (a + 1) bs

/-- The 64 bytes of a slot or granule, byte 0 first. -/
def slotBytes (v : Slot) : List Byte := leBytes 64 v.toNat

/-- A slot or granule from 64 bytes. -/
def bytesSlot (bs : List Byte) : Slot := BitVec.ofNat 512 (leNat (bs.take 64))

/-- The element of a list, or a default. -/
def nth {α : Type} (d : α) (l : List α) (i : Nat) : α := l.getD i d

/-- The list with one element replaced. -/
def setNth {α : Type} (l : List α) (i : Nat) (x : α) : List α := l.set i x

/-- The list without its element at a place. -/
def dropNth {α : Type} (l : List α) (i : Nat) : List α := l.eraseIdx i

/-- An element put before the first that it may not follow. -/
def insBy {α : Type} (le : α → α → Bool) (x : α) : List α → List α
  | [] => [x]
  | y :: l => if le x y then x :: y :: l else y :: insBy le x l

/-- The list in order; elements that are equal in the order keep their places among each other. -/
def sortBy {α : Type} (le : α → α → Bool) (l : List α) : List α := l.foldr (insBy le) []

/-- A saturating 32-bit count. -/
def satInc (v : W32) : W32 := if v = BitVec.ofNat 32 0xFFFFFFFF then v else v + 1

/-- A saturating sum of a 32-bit count. -/
def satAdd (v : W32) (n : Nat) : W32 := BitVec.ofNat 32 (min 0xFFFFFFFF (v.toNat + n))

/-- The signed difference of two wrapping 32-bit quantities (R282). -/
def diff32 (a b : BitVec 32) : Int := (a - b).toInt

end Sys2Proof.Machine
end

