-- ==== Sys2Proof/WellFormed.lean ====
section
/-! DEFINITION. What makes an operation of a bundle well formed: the field values that R46-R68 reserve are refused. The operands of
every other command are bounded by their types. -/
namespace Sys2Proof

/-- TM 0b11 is reserved (R60). -/
def tmOk (tm : BitVec 2) : Bool := tm != 3

/-- The TYPE is one of those that the row of the VEC table lists (R53, R68). -/
def typeOk (allowed : List Nat) (f : VecF) : Bool := allowed.contains f.ty.toNat
def anyType (f : VecF) : Bool := typeOk [0, 1, 2] f

/-- R61 and R62: FMT 1 and 6 move a whole slot with H = 1, and NIB needs V[X + 1]. -/
def ldvOk (f : LdvF) : Bool :=
  tmOk f.tm && (if f.fmt = 1 ∨ f.fmt = 6 then f.h else true) && (if f.fmt = 7 then decide (f.x.toNat ≤ 30) else true)

/-- CTL.ARST kinds 0-5, with the index values each of them admits. -/
def arstOk (kind : BitVec 3) (index : BitVec 4) : Bool :=
  match kind.toNat with
  | 0 => true
  | 1 | 2 => decide (index.toNat ≤ 7)
  | 3 | 4 | 5 => index == 0
  | _ => false

/-- The operation breaks no rule of R68 that its own fields can show. -/
def wellFormed : Instr → Bool
  | .macMm _ _ f => tmOk f.tm
  | .macWld _ _ f => tmOk f.tm && decide (f.fmt.toNat ≤ 9) && (decide (f.part.toNat ≤ 8) || f.part == 15)
  | .macXld _ _ f => tmOk f.tm
  | .vecAdd _ _ f | .vecSub _ _ f | .vecMul _ _ f | .vecFma _ _ f => typeOk [0, 1, 2] f
  | .vecMin _ _ f | .vecMax _ _ f | .vecAbs _ _ f | .vecNeg _ _ f | .vecClt _ _ f | .vecCeq _ _ f => typeOk [0, 1] f
  | .vecSel _ _ f | .vecAnd _ _ f | .vecOr _ _ f | .vecXor _ _ f => anyType f
  | .vecShl _ _ f | .vecShr _ _ f | .vecSra _ _ f => typeOk [1] f
  | .vecRcp _ _ f | .vecRsq _ _ f | .vecExp2 _ _ f | .vecLog2 _ _ f => typeOk [0] f
  | .vecRsum _ _ f | .vecRmax _ _ f => typeOk [0, 1] f
  | .vecShuf _ _ f | .vecRot _ _ f | .vecBcst _ _ f | .vecMovv _ _ f => anyType f
  | .vecCvt _ _ f => typeOk [0] f && decide (f.vc.toNat ≤ 7)
  | .vecQnt _ _ f => typeOk [1] f && decide (f.md.toNat ≤ 3)
  | .vecSrnd _ _ f => typeOk [0] f
  | .vecGen _ _ f | .vecRdac _ _ f | .vecWrac _ _ f => typeOk [0] f
  | .movLdv _ _ f | .movStv _ _ f => ldvOk f
  | .movCpy _ _ f => tmOk f.tm && tmOk f.tm2
  | .movPut _ _ f => tmOk f.tm
  | .movGld _ _ f | .movGst _ _ f => tmOk f.tm
  | .movVout _ _ tm _ => tmOk tm
  | .syncLwait _ _ imm | .syncLsig _ _ imm => decide (1 ≤ imm.toNat)
  | .ctlArst _ kind index => arstOk kind index
  | _ => true

end Sys2Proof
end

