-- ==== Sys2Proof/Machine/Program.lean ====
section
/-! DEFINITION. The stage programs of a weave image: the bundles of R40 decoded into the operations of their slots, and the checks
that the loader makes of a program (R68). -/
namespace Sys2Proof.Machine

/-! ### Slots (R40, R46-R68, R511). A reserved opcode, and a reserved field that is not 0, decode to nothing. -/

def bv (w v hi lo : Nat) : BitVec w := BitVec.ofNat w (nbits v hi lo)
def flag (v i : Nat) : Bool := v.testBit i

/-- The MAC slot. -/
def macOp (t : TileIdx) (p : Pred) (w : Nat) : Option Instr :=
  let n := bv 4 w 23 20
  let tm := bv 2 w 19 18
  match nbits w 27 24 with
  | 0 => if w = 0 then some (.nop t .mac) else none
  | 1 =>
    if nbits w 2 0 = 0 then
      some (.macMm t p { n := n, tm := tm, inc := flag w 17, aoff := bv 6 w 16 11, p := flag w 10, z := flag w 9, ws := flag w 8,
                         ph := flag w 7, xsel := bv 4 w 6 3 })
    else none
  | 2 => if nbits w 7 0 = 0 then some (.macWld t p { n := n, tm := tm, inc := flag w 17, part := bv 4 w 16 13, ws := flag w 12, fmt := bv 4 w 11 8 })
    else none
  | 3 => if nbits w 16 0 = 0 then some (.macXld t p { n := n, tm := tm, inc := flag w 17 }) else none
  | 4 => if nbits w 17 17 = 0 ∧ nbits w 10 0 = 0 then some (.macAclr t p (bv 6 w 23 18) (bv 6 w 16 11)) else none
  | _ => none

/-- The VEC slot: the opcodes 0x01 to 0x21 in the order of R53. -/
def vecOp (t : TileIdx) (p : Pred) (w : Nat) : Option Instr :=
  let f : VecF := { vd := bv 5 w 25 21, va := bv 5 w 20 16, vb := bv 5 w 15 11, vc := bv 5 w 10 6, ty := bv 3 w 5 3, md := bv 3 w 2 0 }
  match nbits w 31 26 with
  | 0x00 => if w = 0 then some (.nop t .vec) else none
  | 0x01 => some (.vecAdd t p f)
  | 0x02 => some (.vecSub t p f)
  | 0x03 => some (.vecMul t p f)
  | 0x04 => some (.vecFma t p f)
  | 0x05 => some (.vecMin t p f)
  | 0x06 => some (.vecMax t p f)
  | 0x07 => some (.vecAbs t p f)
  | 0x08 => some (.vecNeg t p f)
  | 0x09 => some (.vecClt t p f)
  | 0x0A => some (.vecCeq t p f)
  | 0x0B => some (.vecSel t p f)
  | 0x0C => some (.vecAnd t p f)
  | 0x0D => some (.vecOr t p f)
  | 0x0E => some (.vecXor t p f)
  | 0x0F => some (.vecShl t p f)
  | 0x10 => some (.vecShr t p f)
  | 0x11 => some (.vecSra t p f)
  | 0x12 => some (.vecRcp t p f)
  | 0x13 => some (.vecRsq t p f)
  | 0x14 => some (.vecExp2 t p f)
  | 0x15 => some (.vecLog2 t p f)
  | 0x16 => some (.vecRsum t p f)
  | 0x17 => some (.vecRmax t p f)
  | 0x18 => some (.vecShuf t p f)
  | 0x19 => some (.vecRot t p f)
  | 0x1A => some (.vecBcst t p f)
  | 0x1B => some (.vecCvt t p f)
  | 0x1C => some (.vecQnt t p f)
  | 0x1D => some (.vecSrnd t p f)
  | 0x1E => some (.vecGen t p f)
  | 0x1F => some (.vecRdac t p f)
  | 0x20 => some (.vecWrac t p f)
  | 0x21 => some (.vecMovv t p f)
  | _ => none

/-- The MOV slot. -/
def movOp (t : TileIdx) (p : Pred) (w : Nat) : Option Instr :=
  let n := bv 4 w 26 23
  let tm := bv 2 w 22 21
  let inc := flag w 20
  let off := bv 11 w 10 0
  let ldv : LdvF := { n := n, tm := tm, inc := inc, x := bv 5 w 19 15, fmt := bv 3 w 14 12, h := flag w 11, off := off }
  let gld : GldF := { n := n, tm := tm, inc := inc, m := bv 3 w 17 15, ginc := flag w 14 }
  let gOk := decide (nbits w 19 18 = 0) && decide (nbits w 13 0 = 0)
  match nbits w 31 27 with
  | 0 => if w = 0 then some (.nop t .mov) else none
  | 1 => some (.movLdv t p ldv)
  | 2 => some (.movStv t p ldv)
  | 3 =>
    if nbits w 19 19 = 0 ∧ nbits w 14 14 = 0 ∧ nbits w 11 11 = 0 then
      some (.movCpy t p { n := n, tm := tm, inc := inc, m := bv 4 w 18 15, tm2 := bv 2 w 13 12, off := off })
    else none
  | 4 =>
    if nbits w 19 18 = 0 ∧ nbits w 13 12 = 0 then
      some (.movPut t p { n := n, tm := tm, inc := inc, m := bv 3 w 17 15, dinc := flag w 14, dm := flag w 11, off := off })
    else none
  | 5 => if gOk then some (.movGld t p gld) else none
  | 6 => if gOk then some (.movGst t p gld) else none
  | 7 => if nbits w 22 13 = 0 then some (.movSeta t p n (bv 13 w 12 0)) else none
  | 8 => if tm ≠ 3 ∧ nbits w 19 12 = 0 then some (.movTags t p n inc (flag w 11) off) else none
  | 9 => if nbits w 19 0 = 0 then some (.movVout t n tm inc) else none
  | _ => none

/-- The SYNC slot. -/
def syncOp (t : TileIdx) (w : Nat) : Option Instr :=
  let n := bv 4 w 11 8
  let imm := bv 8 w 7 0
  match nbits w 15 12 with
  | 0 => if w = 0 then some (.nop t .sync) else none
  | 1 => some (.syncLwait t n imm)
  | 2 => some (.syncLsig t n imm)
  | 3 => some (.syncNext t n)
  | 4 => some (.syncPass t n)
  | 5 => some (.syncWopn t (bv 3 w 2 0))
  | 6 => some (.syncWcls t (bv 3 w 2 0))
  | _ => none

/-- The CTL slot without its predicate fields: opcode [10:7] and operand [6:0]. Bits of ARG that the row of LOOP, ENDL or TALY does not name
must be 0, DESIGN CHOICE (log 28). -/
def ctlOp (t : TileIdx) (w : Nat) : Option Instr :=
  let a := nbits w 6 0
  match nbits w 10 7 with
  | 0 => if a = 0 then some (.nop t .ctl) else none
  | 1 => if flag w 6 then none else some (.ctlLoop t (bv 2 w 5 4) (bv 4 w 3 0))
  | 2 => if flag w 6 ∨ nbits w 3 0 ≠ 0 then none else some (.ctlEndl t (bv 2 w 5 4))
  | 3 => if a = 0 then some (.ctlStep t) else none
  | 4 => some (.ctlArst t (bv 3 w 6 4) (bv 4 w 3 0))
  | 5 => if nbits w 6 3 = 0 then some (.ctlTaly t (bv 3 w 2 0)) else none
  | 6 => if a = 0 then some (.ctlHalt t) else none
  | _ => none

/-- The operations of a bundle in slot order; nothing when a slot is refused (R40, R43, R68). -/
def bundleOps (t : TileIdx) (b : BitVec 128) : Option (List Instr) :=
  let v := b.toNat
  let c := nbits v 127 108
  let pred := fun i => ({ pe := flag c 19, ppol := flag c 18, pflg := bv 4 c 17 14, sel := flag c i } : Pred)
  match macOp t (pred 13) (nbits v 27 0), vecOp t (pred 12) (nbits v 59 28), movOp t (pred 11) (nbits v 91 60), syncOp t (nbits v 107 92),
      ctlOp t c with
  | some a, some b, some c, some d, some e => some [a, b, c, d, e]
  | _, _, _, _, _ => none

/-! ### The checks of a program (R68) -/

/-- What a program's checks need of its descriptor and of the weave. -/
structure ProgEnv where
  tile : TileIdx
  adapt : Bool
  latches : List Nat
  targets : List Nat
  targetOk : Nat → Bool
  owned : Nat → Bool
  inWeave : Nat → Bool

/-- Formats that the program loads into a weight set. -/
def wldFormats (ws : Bool) (ops : List Instr) : List Nat :=
  ops.filterMap fun
    | .macWld _ _ f => if f.ws = ws then some f.fmt.toNat else none
    | _ => none

/-- A format forbids an MM's PH or XSEL (R49). -/
def formatForbids (f : Nat) (k : MmF) : Bool :=
  if f ≤ 3 ∨ f = 9 then k.ph || k.xsel != 0 else if f = 7 ∨ f = 8 then k.ph else false

/-- The rules of R49, R58, R62, R64, R65, R68 that one operation can break. -/
def opOk (e : ProgEnv) (all : List Instr) (i : Instr) : Bool :=
  wellFormed i && (match i with
    | .macMm _ _ f => (wldFormats f.ws all).any fun k => !formatForbids k f
    | .vecSrnd _ _ _ => e.adapt
    | .movPut _ _ f => e.targetOk f.m.toNat && e.inWeave (e.targets.getD f.m.toNat 0)
    | .syncLwait _ n imm => imm != 0 && e.owned (e.latches.getD n.toNat 0)
    | .syncLsig _ n imm => imm != 0 && e.owned (e.latches.getD n.toNat 0)
    | .ctlHalt _ => e.adapt
    | _ => true)

/-- A VOUT needs PMOV = 0 or PE = 0 (R64). -/
def voutOk (b : BitVec 128) (ops : List Instr) : Bool :=
  !(ops.any (fun | .movVout .. => true | _ => false) && b.getLsbD 127 && b.getLsbD 119)

/-- The loop depth after a bundle, or nothing when it breaks the nesting rules (R67, R68). -/
def loopStep (depth : Nat) (ops : List Instr) : Option Nat :=
  match ops.getLast? with
  | some (.ctlLoop _ l _) => if l.toNat = depth then some (depth + 1) else none
  | some (.ctlEndl _ l) => if l.toNat + 1 = depth then some l.toNat else none
  | some (.ctlStep _) => if depth = 0 then some 0 else none
  | some (.ctlHalt _) => if depth = 0 then some 0 else none
  | _ => some depth

/-- The address of the first bundle that breaks a rule, from a loop depth on. -/
def firstBad (e : ProgEnv) (all : List Instr) (depth addr : Nat) : List (BitVec 128) → Option Nat
  | [] => none
  | b :: rest =>
    match bundleOps e.tile b with
    | none => some addr
    | some ops =>
      if ops.all (opOk e all) && voutOk b ops then
        match loopStep depth ops with
        | some d => firstBad e all d (addr + 1) rest
        | none => some addr
      else some addr

/-- Every operation of a program. -/
def allOps (t : TileIdx) (prog : List (BitVec 128)) : List Instr := prog.flatMap fun b => (bundleOps t b).getD []

/-- The first bundle of a program that the loader refuses (R68). -/
def progBad (e : ProgEnv) (prog : List (BitVec 128)) : Option Nat := firstBad e (allOps e.tile prog) 0 0 prog

end Sys2Proof.Machine
end

