-- ==== Sys2Proof/Machine/Fmt.lean ====
section
/-! DEFINITION. Number formats, the rounding function and conversions (R72-R84), bit for bit. An exact finite real is a sign, a
magnitude and a power of two. -/
namespace Sys2Proof.Machine

/-- The value of a floating-point code: NaN, an infinity, or (−1)^neg × mag × 2^e (R73). -/
inductive Fp where
  | nan
  | inf (neg : Bool)
  | fin (neg : Bool) (mag : Nat) (e : Int)
deriving DecidableEq, Repr

/-- An exact real n × 2^e. -/
structure Dy where
  n : Int
  e : Int
deriving DecidableEq, Repr

/-- The integer of a dyadic on a finer grid. -/
def Dy.at (x : Dy) (e : Int) : Int := x.n * 2 ^ (x.e - e).toNat
/-- The exact sum. -/
def Dy.add (x y : Dy) : Dy := let e := min x.e y.e; ⟨x.at e + y.at e, e⟩
/-- The exact product. -/
def Dy.mul (x y : Dy) : Dy := ⟨x.n * y.n, x.e + y.e⟩
/-- A finite value as a dyadic. -/
def Dy.of (neg : Bool) (mag : Nat) (e : Int) : Dy := ⟨if neg then -(mag : Int) else mag, e⟩

/-- The parameters of a format: exponent width, fraction width, bias, and the magnitude code of its largest finite value (R72). -/
structure FpFmt where
  ew : Nat
  f : Nat
  bias : Nat
  maxCode : Nat
deriving DecidableEq, Repr

def fp32 : FpFmt := ⟨8, 23, 127, 0x7F7FFFFF⟩
def bf16 : FpFmt := ⟨8, 7, 127, 0x7F7F⟩
def e5m2 : FpFmt := ⟨5, 2, 15, 0x7B⟩
def e4m3 : FpFmt := ⟨4, 3, 7, 0x7E⟩
def e2m1 : FpFmt := ⟨2, 1, 1, 7⟩

/-- The value of a code: codes above the largest finite value are the infinity, where the format has one next, and NaN (R72-R74). -/
def FpFmt.decode (F : FpFmt) (hasInf : Bool) (code : Nat) : Fp :=
  let w := F.ew + F.f
  let neg := nbits code w w == 1
  let mag := code % 2 ^ w
  if F.maxCode < mag then
    if hasInf ∧ mag = F.maxCode + 1 then .inf neg else .nan
  else
    let E := mag / 2 ^ F.f
    let M := mag % 2 ^ F.f
    if E = 0 then .fin neg M (1 - (F.bias : Int) - F.f)
    else .fin neg (2 ^ F.f + M) ((E : Int) - F.bias - F.f)

def decFp32 (v : W32) : Fp := fp32.decode true v.toNat
def decBf16 (c : Nat) : Fp := bf16.decode true c
def decE5m2 (c : Nat) : Fp := e5m2.decode true c
def decE4m3 (c : Nat) : Fp := e4m3.decode false c
def decE2m1 (c : Nat) : Fp := e2m1.decode false c

/-- A magnitude divided by 2^k, rounded to nearest with ties to even (R81). -/
def rneShift (mag k : Nat) : Nat :=
  let n := mag / 2 ^ k
  let r := mag % 2 ^ k
  if 2 * r > 2 ^ k ∨ (2 * r = 2 ^ k ∧ n % 2 = 1) then n + 1 else n

/-- The magnitude code that the rounding function gives a non-zero magnitude mag × 2^e, before overflow is looked at (R81). -/
def FpFmt.encMag (F : FpFmt) (mag : Nat) (e : Int) : Nat :=
  let emin := 1 - (F.bias : Int)
  let top := (Nat.log2 mag : Int) + e
  let g := max top emin - F.f
  let n := if g ≤ e then mag * 2 ^ (e - g).toNat else rneShift mag (g - e).toNat
  if n < 2 ^ F.f then n else (g + F.f + F.bias).toNat * 2 ^ F.f + (n - 2 ^ F.f)

/-- The rounding function: the code of (−1)^neg × mag × 2^e, saturating at the largest finite value or overflowing to the code
above it (R81, R82). A magnitude of 0 gives a zero of the given sign. -/
def FpFmt.round (F : FpFmt) (sat neg : Bool) (mag : Nat) (e : Int) : Nat :=
  let c := if mag = 0 then 0 else F.encMag mag e
  let c := if F.maxCode < c then (if sat then F.maxCode else F.maxCode + 1) else c
  c + (if neg then 2 ^ (F.ew + F.f) else 0)

/-- The canonical NaN of FP32 (R77). -/
def nan32 : W32 := 0x7FC00000#32
def inf32 (neg : Bool) : W32 := if neg then 0xFF800000#32 else 0x7F800000#32
def zero32 (neg : Bool) : W32 := if neg then 0x80000000#32 else 0#32

/-- FP32 of a finite value. -/
def fin32 (neg : Bool) (mag : Nat) (e : Int) : W32 := BitVec.ofNat 32 (fp32.round false neg mag e)
/-- FP32 of an exact real; an exact zero takes the sign given (R81, R82, R90). -/
def dy32 (zneg : Bool) (x : Dy) : W32 := if x.n = 0 then zero32 zneg else fin32 (decide (x.n < 0)) x.n.natAbs x.e

/-- FP32 of a value: NaN is canonical, an infinity and a zero keep their sign (R77, R82). -/
def enc32 : Fp → W32
  | .nan => nan32
  | .inf neg => inf32 neg
  | .fin neg mag e => fin32 neg mag e

/-! ### Conversions (R83, R84) -/

/-- CVT 0, and the BF16 rounding of R93: the FP32 pattern of the BF16 value. -/
def toBf16 (v : W32) : W32 :=
  match decFp32 v with
  | .nan => nan32
  | .inf neg => inf32 neg
  | .fin neg mag e => BitVec.ofNat 32 (bf16.round false neg mag e * 2 ^ 16)
/-- CVT 1. -/
def toE4m3 (v : W32) : W32 :=
  match decFp32 v with
  | .nan => 0x7F
  | .inf neg => if neg then 0xFE else 0x7E
  | .fin neg mag e => BitVec.ofNat 32 (e4m3.round true neg mag e)
/-- CVT 2. -/
def toE5m2 (v : W32) : W32 :=
  match decFp32 v with
  | .nan => 0x7E
  | .inf neg => if neg then 0xFC else 0x7C
  | .fin neg mag e => BitVec.ofNat 32 (e5m2.round true neg mag e)
/-- CVT 6. -/
def toE2m1 (v : W32) : W32 :=
  match decFp32 v with
  | .nan => 0
  | .inf neg => if neg then 0xF else 7
  | .fin neg mag e => BitVec.ofNat 32 (e2m1.round true neg mag e)

/-- An integer clamped to a range. -/
def clampInt (lo hi x : Int) : Int := min (max x lo) hi
def int32Min : Int := -2147483648
def int32Max : Int := 2147483647

/-- CVT 3 and CVT 4: to INT32, to nearest even or toward zero, saturating; NaN gives 0. -/
def toInt32 (nearest : Bool) (v : W32) : W32 :=
  match decFp32 v with
  | .nan => 0
  | .inf neg => BitVec.ofInt 32 (if neg then int32Min else int32Max)
  | .fin neg mag e =>
    let n := if 0 ≤ e then mag * 2 ^ e.toNat else if nearest then rneShift mag (-e).toNat else mag / 2 ^ (-e).toNat
    BitVec.ofInt 32 (clampInt int32Min int32Max (if neg then -(n : Int) else n))
/-- CVT 5. -/
def fromInt32 (v : W32) : W32 := dy32 false ⟨v.toInt, 0⟩
/-- CVT 7: the E8M0 code of |va|. -/
def toE8m0 (v : W32) : W32 :=
  match decFp32 v with
  | .nan => 0xFF
  | .inf _ => 0xFE
  | .fin _ _ _ => BitVec.ofNat 32 (bits v 30 23)

/-- The conversion that IMM5 selects (R56); reserved selectors do not pass the loader. -/
def cvt (sel : Nat) (v : W32) : W32 :=
  match sel with
  | 0 => toBf16 v
  | 1 => toE4m3 v
  | 2 => toE5m2 v
  | 3 => toInt32 true v
  | 4 => toInt32 false v
  | 5 => fromInt32 v
  | 6 => toE2m1 v
  | 7 => toE8m0 v
  | _ => v

end Sys2Proof.Machine
end

