-- ==== Sys2Proof/Machine/Arith.lean ====
section
/-! DEFINITION. The vector unit's arithmetic on one lane (R92-R98), the four functions rounded from their exact value (R54, R96),
the fixed lane trees (R55), the generator (R241) and the sums of the MAC array (R85-R90). -/
namespace Sys2Proof.Machine

/-! ### FP32 sums and products (R92) -/

/-- The exact sum of two finite values: equal zeros keep their sign, any other zero sum is +0. -/
def finAdd (n1 : Bool) (m1 : Nat) (e1 : Int) (n2 : Bool) (m2 : Nat) (e2 : Int) : W32 :=
  dy32 (n1 && n2 && m1 == 0 && m2 == 0) ((Dy.of n1 m1 e1).add (Dy.of n2 m2 e2))

/-- The sum of two values (R92). -/
def fpAdd : Fp → Fp → W32
  | .nan, _ | _, .nan => nan32
  | .inf a, .inf b => if a = b then inf32 a else nan32
  | .inf a, _ => inf32 a
  | _, .inf b => inf32 b
  | .fin n1 m1 e1, .fin n2 m2 e2 => finAdd n1 m1 e1 n2 m2 e2

/-- The exact product of two values: ∞ × 0 is NaN. -/
def fpMulExact : Fp → Fp → Fp
  | .nan, _ | _, .nan => .nan
  | .inf a, .inf b => .inf (a != b)
  | .inf a, .fin b m _ => if m = 0 then .nan else .inf (a != b)
  | .fin a m _, .inf b => if m = 0 then .nan else .inf (a != b)
  | .fin n1 m1 e1, .fin n2 m2 e2 => .fin (n1 != n2) (m1 * m2) (e1 + e2)

/-- The value with its sign inverted. -/
def Fp.neg : Fp → Fp
  | .nan => .nan
  | .inf a => .inf (!a)
  | .fin n m e => .fin (!n) m e

def addF (a b : W32) : W32 := fpAdd (decFp32 a) (decFp32 b)
def subF (a b : W32) : W32 := fpAdd (decFp32 a) (decFp32 b).neg
def mulF (a b : W32) : W32 := enc32 (fpMulExact (decFp32 a) (decFp32 b))
/-- One rounding of va × vb + vc (R92). -/
def fmaF (a b c : W32) : W32 := fpAdd (fpMulExact (decFp32 a) (decFp32 b)) (decFp32 c)

/-! ### Comparisons (R94) -/

/-- A total order key of the non-NaN values, with −0 below +0. -/
def orderKey (v : W32) : Int := if v.msb then -(bits v 30 0 : Int) - 1 else bits v 30 0
def isNan (v : W32) : Bool := decide (0x7F800000 < bits v 30 0)
def minF (a b : W32) : W32 := if isNan a || isNan b then nan32 else if orderKey a ≤ orderKey b then a else b
def maxF (a b : W32) : W32 := if isNan a || isNan b then nan32 else if orderKey a ≤ orderKey b then b else a
/-- The value of a non-NaN pattern, with the zeros equal. -/
def cmpKey (v : W32) : Int := if v.msb then -(bits v 30 0 : Int) else bits v 30 0
def ones32 (b : Bool) : W32 := if b then 0xFFFFFFFF#32 else 0#32
def cltF (a b : W32) : W32 := ones32 (!isNan a && !isNan b && decide (cmpKey a < cmpKey b))
def ceqF (a b : W32) : W32 := ones32 (!isNan a && !isNan b && cmpKey a == cmpKey b)
def absF (a : W32) : W32 := if isNan a then nan32 else a &&& 0x7FFFFFFF#32
def negF (a : W32) : W32 := if isNan a then nan32 else a ^^^ 0x80000000#32

/-! ### INT32 (R53, R95) -/

def minI (a b : W32) : W32 := if a.toInt ≤ b.toInt then a else b
def maxI (a b : W32) : W32 := if a.toInt ≤ b.toInt then b else a
def cltI (a b : W32) : W32 := ones32 (decide (a.toInt < b.toInt))
def ceqI (a b : W32) : W32 := ones32 (a == b)
def negI (a : W32) : W32 := if a = 0x80000000#32 then 0x7FFFFFFF#32 else -a
def absI (a : W32) : W32 := if a.msb then negI a else a

/-! ### Functions rounded from their exact value (R54, R96) -/

/-- The integer square root from its bits, from bit k downward. -/
def isqrtGo (n : Nat) : Nat → Nat → Nat
  | 0, r => r
  | k + 1, r => let t := r + 2 ^ k; isqrtGo n k (if t * t ≤ n then t else r)
/-- The integer square root of a number below 2^(2 k). -/
def isqrt (k n : Nat) : Nat := isqrtGo n k 0

/-- A magnitude known as its integer part and whether something follows it, one bit finer (R81 needs no more). -/
def sticky (n : Nat) (more : Bool) : Nat := 2 * n + b2n more

def rcpF (a : W32) : W32 :=
  match decFp32 a with
  | .nan => nan32
  | .inf neg => zero32 neg
  | .fin neg m e =>
    if m = 0 then inf32 neg
    else fin32 neg (sticky (2 ^ 80 / m) (2 ^ 80 % m != 0)) (-e - 81)

def rsqF (a : W32) : W32 :=
  match decFp32 a with
  | .nan => nan32
  | .inf neg => if neg then nan32 else 0
  | .fin neg m e =>
    if m = 0 then inf32 neg
    else if neg then nan32
    else
      let odd := e % 2 != 0
      let m2 := if odd then 2 * m else m
      let e2 := if odd then e - 1 else e
      let r := isqrt 80 (2 ^ 160 / m2)
      fin32 false (sticky r (r * r * m2 != 2 ^ 160)) (-(e2 / 2) - 81)

/-- 2^frac in units of 2^-256, from below, for a fraction of k bits (most significant first in `f`, k bits left); `r` is
2^(2^-i) for the next bit. -/
def exp2Go : Nat → Nat → Nat → Nat → Nat
  | 0, _, _, acc => acc
  | k + 1, f, r, acc =>
    let r' := isqrt 258 (r * 2 ^ 256)
    exp2Go k (f % 2 ^ k) r' (if f.testBit k then acc * r' / 2 ^ 256 else acc)

def exp2F (a : W32) : W32 :=
  match decFp32 a with
  | .nan => nan32
  | .inf neg => if neg then 0 else inf32 false
  | .fin neg m e =>
    let x : Int := if neg then -(m : Int) else m
    if m = 0 then 0x3F800000#32
    else if 0 ≤ e ∧ 9 < e + Nat.log2 m then (if neg then 0 else inf32 false)
    else
      let k := (-e).toNat
      let n := if 0 ≤ e then x * 2 ^ e.toNat else x / 2 ^ k
      let f := if 0 ≤ e then 0 else (x % 2 ^ k).toNat
      if 128 ≤ n then inf32 false
      else if n < -160 then 0
      else if f = 0 then fin32 false 1 n
      else fin32 false (sticky (exp2Go k f (2 ^ 257) (2 ^ 256)) true) (n - 257)

/-- Bits of log2 of m × 2^-320, 1 ≤ m × 2^-320 < 2, most significant first, by squaring. -/
def log2Go : Nat → Nat → Nat → Nat
  | 0, _, acc => acc
  | k + 1, m, acc =>
    let s := m * m / 2 ^ 320
    if 2 ^ 321 ≤ s then log2Go k (s / 2) (2 * acc + 1) else log2Go k s (2 * acc)

def log2F (a : W32) : W32 :=
  match decFp32 a with
  | .nan => nan32
  | .inf neg => if neg then nan32 else inf32 false
  | .fin neg m e =>
    if m = 0 then inf32 true
    else if neg then nan32
    else
      let t := Nat.log2 m
      let n : Int := e + t
      if m = 2 ^ t then dy32 false ⟨n, 0⟩
      else dy32 false ⟨2 * (n * 2 ^ 120 + log2Go 120 (m * 2 ^ (320 - t)) 0) + 1, -121⟩

/-! ### Requantisation and stochastic rounding (R97, R98) -/

/-- The bounds of QNT's output by MOD. -/
def qntLo (md : Nat) : Int := if md = 0 then -128 else if md = 1 then 0 else if md = 2 then -32768 else -8
def qntHi (md : Nat) : Int := if md = 0 then 127 else if md = 1 then 255 else if md = 2 then 32767 else 7

/-- An integer divided by 2^sh, to nearest with ties to even. -/
def rneDiv (t : Int) (sh : Nat) : Int :=
  if sh = 0 then t
  else
    let q := t / 2 ^ sh
    let r := t % 2 ^ sh
    let half : Int := 2 ^ (sh - 1)
    if r > half ∨ (r = half ∧ q % 2 = 1) then q + 1 else q

/-- Requantisation with a multiplier and shift word and a zero point (R97). -/
def qntInt (md : Nat) (va : Int) (w : W32) (zp : Int) : Int :=
  clampInt (qntLo md) (qntHi md) (rneDiv (va * sext 24 (bits w 31 8)) (bits w 5 0) + zp)
def qnt (md : Nat) (a b c : W32) : W32 := BitVec.ofInt 32 (qntInt md a.toInt b c.toInt)

def srnd (a b : W32) : W32 :=
  let mag := bits a 30 0
  if isNan a then nan32
  else if mag = 0 ∨ mag = 0x7F800000 then a
  else
    let s := (mag + bits b 15 0) / 2 ^ 16 * 2 ^ 16
    let s := if 0x7F800000 ≤ s then 0x7F7F0000 else s
    BitVec.ofNat 32 (s + if a.msb then 2 ^ 31 else 0)

/-! ### The generator (R241) -/

/-- Round i with the two key words. -/
def genRound (k0 k1 : W32) (p : W32 × W32) (i : Nat) : W32 × W32 :=
  let rk := (if i % 2 = 0 then k0 else k1) + BitVec.ofNat 32 (i * 0x9E3779B9)
  let t := p.2 + rk
  (p.2, p.1 ^^^ (t ^^^ t.rotateLeft 7 ^^^ t.rotateLeft 16))
def gen (key : BitVec 64) (idx st dr : Nat) : W32 :=
  let x := BitVec.ofNat 64 (idx * 2 ^ 16 + st * 2 ^ 8 + dr)
  let r := (List.range 10).foldl (genRound (key.setWidth 32) ((key >>> 32).setWidth 32)) ((x >>> 32).setWidth 32, x.setWidth 32)
  r.1 + r.2

/-! ### Lanes of a row -/

def lane (v : Row) (i : Nat) : W32 := v.extractLsb' (32 * i) 32
/-- A row from the value of each lane. -/
def mkRow (f : Nat → W32) : Row := BitVec.ofNat 1024 ((List.range 32).foldr (fun i acc => (f i).toNat + 2 ^ 32 * acc) 0)
def splat (x : W32) : Row := mkRow fun _ => x
/-- The lanes of a mask from one row, the others from another. -/
def mixRow (mask : BitVec 32) (new old : Row) : Row := mkRow fun i => if mask.getLsbD i then lane new i else lane old i

/-- One level of the tree of R55: adjacent results combined in pairs. -/
def pairUp (op : W32 → W32 → W32) : List W32 → List W32
  | a :: b :: l => op a b :: pairUp op l
  | l => l
/-- The five levels of the tree over 32 lanes (R55). -/
def treeOf (op : W32 → W32 → W32) (v : Row) : W32 :=
  let l := (List.range 32).map (lane v)
  (pairUp op (pairUp op (pairUp op (pairUp op (pairUp op l))))).getD 0 0

/-! ### The MAC array (R46-R49, R85-R90) -/

/-- Elements per vector (R46). -/
def macK (fmt : Nat) : Nat := if fmt = 1 ∨ fmt = 7 ∨ fmt = 8 then 32 else if fmt = 9 then 8 else 16
/-- An MX format. -/
def isMx (fmt : Nat) : Bool := decide (4 ≤ fmt) && decide (fmt ≤ 8)
/-- An MX format whose block spans two MMs (R49). -/
def isMx8 (fmt : Nat) : Bool := decide (4 ≤ fmt) && decide (fmt ≤ 6)
/-- Array cycles per MM (R46). -/
def macCycles (fmt : Nat) : Nat := if fmt = 9 then 8 else 4
/-- Cycles until an MM's rows are visible (R146). -/
def macLatency (fmt : Nat) : Nat := if fmt = 9 then 12 else 8

/-- Element k of 16 bytes given as a number, as a code (R47). -/
def macElem (fmt : Nat) (v k : Nat) : Nat :=
  if macK fmt = 32 then nbits v (4 * k + 3) (4 * k)
  else if macK fmt = 8 then nbits v (16 * k + 15) (16 * k)
  else nbits v (8 * k + 7) (8 * k)

/-- The value of an element code: integers of the MX formats carry their implicit scale (R73-R76). -/
def macVal (fmt code : Nat) : Fp :=
  let int := fun (w : Nat) (e : Int) => let x := sext w code; Fp.fin (decide (x < 0)) x.natAbs e
  if fmt = 0 then int 8 0 else if fmt = 1 then int 4 0
  else if fmt = 2 ∨ fmt = 5 then decE4m3 code
  else if fmt = 3 ∨ fmt = 6 then decE5m2 code
  else if fmt = 4 then int 8 (-6) else if fmt = 7 then decE2m1 code else if fmt = 8 then int 4 (-2)
  else decBf16 code

/-- A running sum of exact terms: NaN met, +∞ met, −∞ met, and the finite part (R88). -/
structure MacSum where
  nan : Bool
  pinf : Bool
  ninf : Bool
  fin : Dy
deriving DecidableEq, Repr

def MacSum.zero : MacSum := ⟨false, false, false, ⟨0, 0⟩⟩
def MacSum.add (s : MacSum) : Fp → MacSum
  | .nan => { s with nan := true }
  | .inf neg => if neg then { s with ninf := true } else { s with pinf := true }
  | .fin neg m e => if m = 0 then s else { s with fin := s.fin.add (Dy.of neg m e) }

/-- The row's FP32 value of a sum; an exact zero is +0 (R88, R90). -/
def MacSum.toRow (s : MacSum) : W32 :=
  if s.nan || (s.pinf && s.ninf) then nan32 else if s.pinf then inf32 false else if s.ninf then inf32 true else dy32 false s.fin

/-- The exact sum of the products of a vector and a column, 16 bytes each (R86, R87). -/
def macProducts (fmt a w : Nat) : MacSum :=
  (List.range (macK fmt)).foldl
    (fun s k => s.add (fpMulExact (macVal fmt (macElem fmt a k)) (macVal fmt (macElem fmt w k)))) MacSum.zero

/-- The exact integer sum of products (R85). -/
def macIntSum (fmt a w : Nat) : Int :=
  let width := if fmt = 1 then 4 else 8
  (List.range (macK fmt)).foldl (fun s k => s + sext width (macElem fmt a k) * sext width (macElem fmt w k)) 0

/-- The new lane of an accumulator row: row value (none when Z = 1), vector, column, and the two scale codes of an MX format
(R85-R90). -/
def macLane (fmt : Nat) (row : Option W32) (a w xa xw : Nat) : W32 :=
  if fmt ≤ 1 then BitVec.ofInt 32 ((row.getD 0).toInt + macIntSum fmt a w)
  else
    let p := macProducts fmt a w
    let p := if isMx fmt then
        { p with nan := p.nan || xa == 0xFF || xw == 0xFF, fin := ⟨p.fin.n, p.fin.e + (xa + xw : Int) - 254⟩ }
      else p
    (match row with
     | none => p
     | some r => p.add (decFp32 r)).toRow

end Sys2Proof.Machine
end

