-- ==== Sys2Proof/Machine/Sha.lean ====
section
/-! DEFINITION. SHA-256, HMAC-SHA-256 and HKDF-SHA-256 (R399, with FIPS 180-4 and RFC 5869). -/
namespace Sys2Proof.Machine

/-- The largest x below 2^k with q x, for a q that fails from some number on; the bits of x from the top. -/
def greatest (q : Nat → Bool) : Nat → Nat → Nat
  | 0, x => x
  | k + 1, x => greatest q k (if q (x + 2 ^ k) then x + 2 ^ k else x)

/-- The first 64 primes. -/
def shaPrimes : List Nat := (List.range 312).filter fun p => 2 ≤ p && (List.range 18).all fun d => d < 2 || p ≤ d || p % d != 0

/-- FIPS 180-4 takes its round constants from cube roots: bits 2^-1 to 2^-32 of the root of a prime. -/
def cubeWord (p : Nat) : W32 := BitVec.ofNat 32 (greatest (fun x => x * x * x ≤ p * 2 ^ 96) 36 0)

/-- FIPS 180-4 takes its initial words from square roots in the same way. -/
def squareWord (p : Nat) : W32 := BitVec.ofNat 32 (greatest (fun x => x * x ≤ p * 2 ^ 64) 37 0)

/-- The constant that each round adds. -/
def shaAddends : List W32 := shaPrimes.map cubeWord

/-- The words A and E of the last four rounds, newest first: FIPS 180-4's a, b, c, d and e, f, g, h. -/
structure ShaTail where
  as : List W32
  es : List W32
deriving DecidableEq, Repr

/-- The tail before the first block. -/
def shaInit : ShaTail :=
  let h := (shaPrimes.take 8).map squareWord
  ⟨h.take 4, h.drop 4⟩

/-- The exclusive or of a word turned right by three amounts. -/
def turned (x : W32) (i j k : Nat) : W32 := x.rotateRight i ^^^ x.rotateRight j ^^^ x.rotateRight k

/-- The message schedule read backwards: sixteen words, newest first, grow by n words that each depend on the last sixteen. -/
def shaGrow : Nat → List W32 → List W32
  | 0, w => w
  | n + 1, w =>
    let back := fun k => w.getD (k - 1) 0
    let low := (back 15).rotateRight 7 ^^^ (back 15).rotateRight 18 ^^^ back 15 >>> 3
    let high := (back 2).rotateRight 17 ^^^ (back 2).rotateRight 19 ^^^ back 2 >>> 10
    shaGrow n ((high + back 7 + low + back 16) :: w)

/-- One round: a new A and a new E from the last four of each and the sum of a constant and a schedule word. -/
def shaRound (z : ShaTail) (kw : W32) : ShaTail :=
  let a := fun k => z.as.getD k 0
  let e := fun k => z.es.getD k 0
  let pick := e 2 ^^^ (e 0 &&& (e 1 ^^^ e 2))
  let most := (a 0 &&& (a 1 ||| a 2)) ||| (a 1 &&& a 2)
  let t := kw + e 3 + pick + turned (e 0) 6 11 25
  ⟨(t + most + turned (a 0) 2 13 22) :: z.as.take 3, (t + a 3) :: z.es.take 3⟩

/-- The tail after one 64-byte block: that before it plus what its 64 rounds make of it, word by word. -/
def shaBlock (z : ShaTail) (blk : List Byte) : ShaTail :=
  let first := (List.range 16).map fun i => BitVec.ofNat 32 (beNat (slice blk (60 - 4 * i) 4))
  let kws := List.zipWith (· + ·) shaAddends (shaGrow 48 first).reverse
  let y := kws.foldl shaRound z
  ⟨List.zipWith (· + ·) z.as y.as, List.zipWith (· + ·) z.es y.es⟩

/-- The tail after the blocks of a padded message, at most n of them. -/
def shaBlocks : Nat → ShaTail → List Byte → ShaTail
  | 0, z, _ => z
  | n + 1, z, bs => if bs = [] then z else shaBlocks n (shaBlock z (bs.take 64)) (bs.drop 64)

/-- The padded message. -/
def shaPad (bs : List Byte) : List Byte :=
  bs ++ [0x80#8] ++ zeros ((119 - bs.length % 64) % 64) ++ beBytes 8 (8 * bs.length)

/-- SHA-256, as 32 bytes. -/
def sha256 (bs : List Byte) : List Byte :=
  let p := shaPad bs
  let z := shaBlocks (p.length / 64) shaInit p
  (z.as ++ z.es).flatMap fun w => beBytes 4 w.toNat

/-- SHA-256 as a 256-bit value whose byte 0 is the digest's first byte. -/
def sha (bs : List Byte) : BitVec 256 := BitVec.ofNat 256 (leNat (sha256 bs))

/-- The bytes of a 256-bit value, byte 0 first. -/
def bytes32 (v : BitVec 256) : List Byte := leBytes 32 v.toNat

/-- HMAC-SHA-256. -/
def hmac (key msg : List Byte) : List Byte :=
  let k := padTo 64 (if 64 < key.length then sha256 key else key)
  sha256 (k.map (· ^^^ 0x5C#8) ++ sha256 (k.map (· ^^^ 0x36#8) ++ msg))

/-- The output blocks of HKDF, newest first, joined. -/
def hkdfBlocks (prk info : List Byte) : Nat → Nat → List Byte → List Byte
  | 0, _, _ => []
  | n + 1, i, last =>
    let t := hmac prk (last ++ info ++ [BitVec.ofNat 8 i])
    t ++ hkdfBlocks prk info n (i + 1) t

/-- HKDF(salt, ikm, info) with n output bytes (R399). -/
def hkdf (salt ikm info : List Byte) (n : Nat) : List Byte :=
  (hkdfBlocks (hmac salt ikm) info ((n + 31) / 32) 1 []).take n

end Sys2Proof.Machine
end

