-- ==== Sys2Proof/Machine/Crypto.lean ====
section
/-! DEFINITION. The rest of the primitives of R399: AES-256 with its GCM and XTS modes, P-256, ECDH and ECDSA (FIPS 197, SP 800-38D,
IEEE 1619, SP 800-56A, FIPS 186-5). -/
namespace Sys2Proof.Machine

/-! ### AES-256 (FIPS 197) -/

/-- A byte times x in the field of AES. -/
def gfDouble (a : Nat) : Nat := if 2 * a < 256 then 2 * a else 2 * a ^^^ 0x11B

/-- A product in the field of AES, by at most k bits of the second factor from the bottom. -/
def gfMul : Nat → Nat → Nat → Nat
  | 0, _, _ => 0
  | k + 1, a, b => if b = 0 then 0 else (if b % 2 = 1 then a else 0) ^^^ gfMul k (gfDouble a) (b / 2)

/-- The S-box of FIPS 197 and its inverse, byte 0 lowest. -/
def substBox : Nat :=
  0x16bb54b00f2d99416842e6bf0d89a18cdf2855cee9871e9b948ed9691198f8e19e1dc186b95735610ef6034866b53e708a8bbd4b1f74dde8c6b4a61c2e2578ba08ae7a65eaf4566ca94ed58d6d37c8e779e4959162acd3c25c2406490a3a32e0db0b5ede14b8ee4688902a22dc4f816073195d643d7ea7c41744975fec130ccdd2f3ff1021dab6bcf5389d928f40a351a89f3c507f02f94585334d43fbaaefd0cf584c4a39becb6a5bb1fc20ed00d153842fe329b3d63b52a05a6e1b1a2c830975b227ebe28012079a059618c323c7041531d871f1e5a534ccf73f362693fdb7c072a49cafa2d4adf04759fa7dc982ca76abd7fe2b670130c56f6bf27b777c63
def unsubstBox : Nat :=
  0x7d0c2155631469e126d677ba7e042b17619953833cbbebc8b0f52aae4d3be0a0ef9cc9939f7ae52d0d4ab519a97f51605fec8027591012b131c7078833a8dd1ff45acd78fec0db9a2079d2c64b3e56fc1bbe18aa0e62b76f89c5291d711af1476edf751ce837f9e28535ade72274ac9673e6b4f0cecff297eadc674f4111913a6b8a130103bdafc1020f3fca8f1e2cd00645b3b80558e4f70ad3bc8c00abd890849d8da75746155edab9edfd5048706c92b6655dcc5ca4d41698688664f6f87225d18b6d49a25b76b224d92866a12e084ec3fa420b954cee3d23c2a632947b54cbe9dec444438e3487ff2f9b8239e37cfbd7f3819ea340bf38a53630d56a0952

/-- The substitution of a byte, and the byte whose substitution a byte is. -/
def subst (a : Byte) : Byte := BitVec.ofNat 8 (substBox >>> (8 * a.toNat))
def unsubst (a : Byte) : Byte := BitVec.ofNat 8 (unsubstBox >>> (8 * a.toNat))

/-- Byte strings added in the field. -/
def xorBytes (a b : List Byte) : List Byte := List.zipWith (· ^^^ ·) a b

/-- Key words grow by one at a time, the newest first; `i` is the number of the word to come, `r` the round constant. -/
def aesGrow : Nat → Nat → Byte → List (List Byte) → List (List Byte)
  | 0, _, _, w => w
  | n + 1, i, r, w =>
    let t := w.headD []
    let u := if i % 8 = 0 then xorBytes ((t.drop 1 ++ t.take 1).map subst) [r, 0, 0, 0]
      else if i % 8 = 4 then t.map subst else t
    aesGrow n (i + 1) (if i % 8 = 0 then BitVec.ofNat 8 (gfDouble r.toNat) else r) (xorBytes (w.getD 7 []) u :: w)

/-- The fifteen round keys of a 32-byte key, in order. -/
def aesKeys (key : List Byte) : List (List Byte) :=
  let first := ((List.range 8).map fun i => slice key (4 * i) 4).reverse
  let w := (aesGrow 52 8 1 first).reverse
  (List.range 15).map fun i => ((w.drop (4 * i)).take 4).flatten

/-- The bytes of a state in the order that a shift of its rows by k · row gives. -/
def shiftRows (k : Nat) (s : List Byte) : List Byte := (List.range 16).map fun i => s.getD ((i + 4 * (k * (i % 4))) % 16) 0

/-- Each column times a circulant matrix with the given first row. -/
def mixColumns (c : List Nat) (s : List Byte) : List Byte :=
  (List.range 16).map fun i => BitVec.ofNat 8
    ((List.range 4).foldl (fun x j => x ^^^ gfMul 4 (s.getD (i / 4 * 4 + j) 0).toNat (c.getD ((j + 4 - i % 4) % 4) 0)) 0)

/-- A block under round keys. -/
def aesEnc (ks : List (List Byte)) (b : List Byte) : List Byte :=
  let mid := ((ks.drop 1).take 13).foldl
    (fun s k => xorBytes (mixColumns [2, 3, 1, 1] (shiftRows 1 (s.map subst))) k) (xorBytes b (ks.headD []))
  xorBytes (shiftRows 1 (mid.map subst)) (ks.getLastD [])

/-- The block whose encryption a block is. -/
def aesDec (ks : List (List Byte)) (b : List Byte) : List Byte :=
  let mid := (((ks.drop 1).take 13).reverse).foldl
    (fun s k => mixColumns [14, 11, 13, 9] (xorBytes ((shiftRows 3 s).map unsubst) k)) (xorBytes b (ks.getLastD []))
  xorBytes ((shiftRows 3 mid).map unsubst) (ks.headD [])

/-- A key of the model as AES takes it: byte 0 first. -/
def aesOf (key : BitVec 256) : List (List Byte) := aesKeys (bytes32 key)

/-! ### GCM (SP 800-38D) -/

/-- A product of two blocks in the field of GHASH; a block's first bit is its most significant. -/
def ghashMul (x y : BitVec 128) : BitVec 128 :=
  ((List.range 128).foldl (fun (p : BitVec 128 × BitVec 128) i =>
    (if x.getMsbD i then p.1 ^^^ p.2 else p.1, (p.2 >>> 1) ^^^ (if p.2.getLsbD 0 then 0xE1#128 <<< 120 else 0#128))) (0#128, y)).1

/-- A block as a number, first byte most significant. -/
def blockNat (b : List Byte) : BitVec 128 := BitVec.ofNat 128 (beNat (padTo 16 b))

/-- The 16-byte blocks of a string, the last one filled with zeros. -/
def blocks16 (bs : List Byte) : List (List Byte) := (List.range ((bs.length + 15) / 16)).map fun i => padTo 16 (slice bs (16 * i) 16)

/-- GHASH over additional data and cipher text. -/
def ghash (h : BitVec 128) (aad ct : List Byte) : BitVec 128 :=
  ((blocks16 aad ++ blocks16 ct ++ [beBytes 8 (8 * aad.length) ++ beBytes 8 (8 * ct.length)]).foldl
    (fun y b => ghashMul (y ^^^ blockNat b) h) 0#128)

/-- The counter mode of GCM with a 12-byte IV from counter 2 on. -/
def gctr (ks : List (List Byte)) (iv bs : List Byte) : List Byte :=
  ((blocks16 bs).mapIdx fun i b => xorBytes b (aesEnc ks (iv ++ beBytes 4 (i + 2)))).flatten.take bs.length

/-- The tag of additional data and cipher text. -/
def gcmTag (ks : List (List Byte)) (iv aad ct : List Byte) : List Byte :=
  xorBytes (beBytes 16 (ghash (blockNat (aesEnc ks (zeros 16))) aad ct).toNat) (aesEnc ks (iv ++ beBytes 4 1))

/-- AES-256-GCM: cipher text and tag (R399). -/
def gcmSeal (key : BitVec 256) (iv aad plain : List Byte) : List Byte × List Byte :=
  let ks := aesOf key
  let ct := gctr ks (padTo 12 iv) plain
  (ct, gcmTag ks (padTo 12 iv) aad ct)

/-- AES-256-GCM: the plain text, or nothing when the tag is another (R399). -/
def gcmOpen (key : BitVec 256) (iv aad ct tag : List Byte) : Option (List Byte) :=
  let ks := aesOf key
  if gcmTag ks (padTo 12 iv) aad ct = tag then some (gctr ks (padTo 12 iv) ct) else none

/-! ### XTS (IEEE 1619) -/

/-- A tweak times x; its bytes are little-endian. -/
def tweakDouble (t : BitVec 128) : BitVec 128 := (t <<< 1) ^^^ (if t.getMsbD 0 then 0x87#128 else 0#128)

/-- The blocks of a granule under a 512-bit key, its first half for the data, with the granule's number as tweak (R405). -/
def xts (block : List (List Byte) → List Byte → List Byte) (key : BitVec 512) (granule : Nat) (bs : List Byte) : List Byte :=
  let kb := leBytes 64 key.toNat
  let ks := aesKeys (kb.take 32)
  let t0 := BitVec.ofNat 128 (leNat (aesEnc (aesKeys (kb.drop 32)) (leBytes 16 granule)))
  (((blocks16 bs).foldl (fun (p : List (List Byte) × BitVec 128) b =>
      let t := leBytes 16 p.2.toNat
      (p.1 ++ [xorBytes (block ks (xorBytes b t)) t], tweakDouble p.2)) ([], t0)).1).flatten

/-- XTS-AES-256 of a granule of DDR4 (R405). -/
def xtsEnc (key : BitVec 512) (granule : Nat) (bs : List Byte) : List Byte := xts aesEnc key granule bs
def xtsDec (key : BitVec 512) (granule : Nat) (bs : List Byte) : List Byte := xts aesDec key granule bs

/-! ### P-256 (FIPS 186-5, SP 800-186) -/

/-- The field of P-256, its order, and the coefficient b of the curve. -/
def p256p : Nat := 2 ^ 256 - 2 ^ 224 + 2 ^ 192 + 2 ^ 96 - 1
def p256n : Nat := 0xffffffff00000000ffffffffffffffffbce6faada7179e84f3b9cac2fc632551
def p256b : Nat := 0x5ac635d8aa3a93e7b3ebbd55769886bc651d06b0cc53b0f63bce3c3e27d2604b
/-- The generator. -/
def p256x : Nat := 0x6b17d1f2e12c4247f8bce6e563a440f277037d812deb33a0f4a13945d898c296
def p256y : Nat := 0x4fe342e2fe1a7f9b8ee7eb4a7c0f9e162bce33576b315ececbb6406837bf51f5

/-- A power modulo m, by the bits of the exponent from the top; k is their number. -/
def powMod (m a e k : Nat) : Nat :=
  (List.range k).foldl (fun r i => let s := r * r % m; if e.testBit (k - 1 - i) then s * a % m else s) 1

/-- The inverse modulo a prime below 2^256. -/
def invMod (m a : Nat) : Nat := powMod m (a % m) (m - 2) 256

/-- A point in Jacobian coordinates: x = X / Z², y = Y / Z³; Z = 0 is the point at infinity. -/
structure CurvePt where
  x : Nat
  y : Nat
  z : Nat
deriving DecidableEq, Repr

/-- A difference in the field. -/
def fieldSub (a b : Nat) : Nat := (a + p256p - b % p256p) % p256p

/-- Twice a point. -/
def CurvePt.twice (q : CurvePt) : CurvePt :=
  let yy := q.y * q.y % p256p
  let s := 4 * q.x * yy % p256p
  let zz := q.z * q.z % p256p
  let t := 3 * (fieldSub q.x zz) * (q.x + zz) % p256p
  let x := fieldSub (t * t) (2 * s)
  ⟨x, fieldSub (t * fieldSub s x) (8 * yy * yy), 2 * q.y * q.z % p256p⟩

/-- The sum of two points. -/
def CurvePt.plus (q r : CurvePt) : CurvePt :=
  if q.z = 0 then r
  else if r.z = 0 then q
  else
    let qz := q.z * q.z % p256p
    let rz := r.z * r.z % p256p
    let u := q.x * rz % p256p
    let v := q.y * rz * r.z % p256p
    let h := fieldSub (r.x * qz) u
    let d := fieldSub (r.y * qz * q.z) v
    if h = 0 then (if d = 0 then q.twice else ⟨1, 1, 0⟩)
    else
      let hh := h * h % p256p
      let hc := hh * h % p256p
      let w := u * hh % p256p
      let x := fieldSub (d * d) (hc + 2 * w)
      ⟨x, fieldSub (d * fieldSub w x) (v * hc), h * q.z * r.z % p256p⟩

/-- A multiple of a point, by the bits of the scalar from the top. -/
def CurvePt.times (n : Nat) (q : CurvePt) : CurvePt :=
  (List.range 256).foldl (fun r i => if n.testBit (255 - i) then r.twice.plus q else r.twice) ⟨1, 1, 0⟩

/-- The affine coordinates of a point that is not at infinity. -/
def CurvePt.affine (q : CurvePt) : Nat × Nat :=
  let i := invMod p256p q.z
  (q.x * i * i % p256p, q.y * i * i * i % p256p)

def p256g : CurvePt := ⟨p256x, p256y, 1⟩

/-- The point that a public key stands for, if it is one of the curve (R399). -/
def pointOf (k : BitVec 512) : Option CurvePt :=
  let x := k.toNat / 2 ^ 256
  let y := k.toNat % 2 ^ 256
  if x < p256p ∧ y < p256p ∧ y * y % p256p = (x * x * x + fieldSub p256b (3 * x)) % p256p then some ⟨x, y, 1⟩ else none

/-- The public key of a scalar: X then Y (R399). -/
def publicKey (d : BitVec 256) : BitVec 512 :=
  let q := (p256g.times d.toNat).affine
  BitVec.ofNat 512 (q.1 * 2 ^ 256 + q.2)

/-- The shared secret of a scalar and a public key: the X coordinate; nothing where the key is no point or the product is at infinity. -/
def ecdh (d : BitVec 256) (k : BitVec 512) : Option (BitVec 256) :=
  match pointOf k with
  | none => none
  | some q =>
    let r := q.times d.toNat
    if r.z = 0 then none else some (BitVec.ofNat 256 r.affine.1)

/-- The ECDSA signature, r then s, of a SHA-256 digest under a scalar, with a per-message number. -/
def ecdsaSign (d k : BitVec 256) (digest : List Byte) : BitVec 512 :=
  let r := (p256g.times k.toNat).affine.1 % p256n
  let s := invMod p256n k.toNat * (beNat digest + r * d.toNat) % p256n
  BitVec.ofNat 512 (r * 2 ^ 256 + s)

/-- The ECDSA check of a signature over a SHA-256 digest under a public key. -/
def ecdsaVerify (key : BitVec 512) (digest : List Byte) (sig : BitVec 512) : Bool :=
  let r := sig.toNat / 2 ^ 256
  let s := sig.toNat % 2 ^ 256
  match pointOf key with
  | none => false
  | some q =>
    let w := invMod p256n s
    let t := (p256g.times (beNat digest * w % p256n)).plus (q.times (r * w % p256n))
    decide (0 < r) && decide (r < p256n) && decide (0 < s) && decide (s < p256n) && t.z != 0 && t.affine.1 % p256n == r

/-- A scalar from 40 bytes: c mod (n − 1) + 1 (R401). -/
def scalarOf (c : List Byte) : BitVec 256 := BitVec.ofNat 256 (beNat c % (p256n - 1) + 1)

end Sys2Proof.Machine
end

