-- ==== Sys2Proof/Config.lean ====
section
/-! DEFINITION. What an implementation or a standard outside the spec fixes, and the free values: opaque constants, so that
nothing can be proved of their values. -/
namespace Sys2Proof

/-- A free value of w bits: the n-th that the run meets. -/
opaque Config.freeBits : (w : Nat) → Nat → BitVec w

/-- The silicon revision of the part (HIF_ID.REV). -/
opaque Config.revision : BitVec 8

/-- The PCIe link as it has come up (HIF_LINK): width in bits 7:4, speed in bits 3:0. -/
opaque Config.pcieLink : BitVec 8

/-- The device secret that the SRAM array of this part reconstructs to (R400). -/
opaque Config.deviceSecret : BitVec 256

/-- The DRBG's n-th output (R399, R405): its entropy is open, and so are its numbers. -/
opaque Config.drbg : Nat → BitVec 512

/-- The certificate that a scalar's key signs for a public key, in DER (R401). -/
opaque Config.issueCert : BitVec 256 → BitVec 512 → List Byte

/-- The Valzardo device CA certificate and the IDK certificate that the manufacturer issued (R401). -/
opaque Config.deviceCerts : List Byte

/-- The public key of a certificate chain's signer when the chain ends in the given authority (R413, R424, R479). -/
opaque Config.chainKey : List Byte → List Byte → Option (BitVec 512)

/-- The Valzardo device CA, the root of the chains of R413. -/
opaque Config.deviceCa : List Byte

/-- A management CA signs its successor: old certificate, new certificate, signature (R425). -/
opaque Config.caSigns : List Byte → List Byte → List Byte → Bool

/-- What the RoT reads out of a firmware image: whether it verifies against the root key and its SVN (R403, R426). -/
opaque Config.fwCheck : List Byte → Bool × W32

/-- The digests of a firmware image: RoT, steward and the four controller images (R402). -/
opaque Config.fwDigests : List Byte → List (BitVec 256)

/-- Where the RoT places a region of so many bytes, given the ranges in use (R404). -/
opaque Config.placeRegion : List (Nat × Nat) → Nat → Option Nat

/-- A part of a context's DDR4 that an offset of a weave can name (R405, R265). -/
inductive Region where | persistent | transient | version
deriving DecidableEq, Repr, Inhabited

/-- What an offset of a weave names, given the sizes of the persistent and the transient region and whether a plan of an adaptation
section holds it: the part, and the offset in it (R405). -/
opaque Config.relocate : Nat → Nat → Bool → Nat → Region × Nat

/-- Where version slot k lies in a persistent region of a size: its offset and its length (R251, R265). -/
opaque Config.versionPlace : Nat → Nat → Nat × Nat

/-- Master copies and optimiser state with which a run from version 0 of a weave begins (R264): the spec names them and gives no content. -/
opaque Config.firstMasters : BitVec 256 → List Byte

/-- What a granule of DDR4 holds at power-on, as ciphertext. -/
opaque Config.rawDram : Nat → BitVec 512

/-- The digest of image n of the firmware that the manufacturer put into flash: RoT, steward, the four controllers (R402). -/
opaque Config.factoryDigest : Nat → BitVec 256

/-- A head tensor of the adaptation section (R251): its inference copy lies in `grans` granules of a stack from `gran` on; master
copy and optimiser state at DDR4 offsets within a version slot. -/
structure HeadTensor where
  id : Nat
  fmt : Nat
  count : Nat
  stack : Nat
  gran : Nat
  grans : Nat
  master : Nat
  opt : Nat
deriving DecidableEq, Repr

/-- The adaptation section of a weave (R251): its tensors, the stage whose output is the head's input, its stores, its programs, tables and plans as sections of R476 with the
first of their latches, the ring and latch that feed them, the header slot and W_RUN. -/
structure AdaptSec where
  tensors : List HeadTensor
  cut : Nat
  featOff : Nat
  nf : Nat
  fsz : Nat
  labOff : Nat
  nmax : Nat
  ncls : Nat
  secs : List (Nat × List Byte)
  latch0 : Nat
  ringTile : Nat
  ringSlot : Nat
  ringLen : Nat
  relLatch : Nat
  hdrTile : Nat
  hdrSlot : Nat
  wRun : Nat
deriving DecidableEq, Repr

/-- The adaptation section that a section body spells. The spec lists its items and gives no layout (R251). -/
opaque Config.adaptSection : List Byte → Option AdaptSec

/-- A stage of a weave lies downstream of another (R252), given the weave's TILEPROG bodies: the spec has no rule by which the loader
finds the order of the stages. -/
opaque Config.downstream : List (List Byte) → Nat → Nat → Bool

end Sys2Proof
end

