-- ==== Sys2Proof/Machine/RegMap.lean ====
section
/-! DEFINITION. The register map of BAR0 (R375): for every register its address, its arrays, the bits a write sets (RW), the bits
a write sets outside confidential mode (RWL), the bits a write of 1 clears (W1C) and its reset value. Fields that are RO, WO or
reserved stand in no mask (R16, R17). A reset value that the spec gives as the variant's, the part's or the image's is 0 here
and is computed where the register is read. -/
namespace Sys2Proof.Machine

/-- One row of the register map: base address, up to two arrays as (stride, count), access masks and reset value. `pair` marks
the lower register of a 64-bit pair (R15). -/
structure RegRow where
  base : Nat
  s1 : Nat
  n1 : Nat
  s2 : Nat
  n2 : Nat
  rw : Nat
  rwl : Nat
  w1c : Nat
  reset : Nat
  pair : Bool
deriving DecidableEq, Repr

/-- The registers of the block at 0x0. -/
def regRowsGlb : List RegRow :=
  [⟨0x0, 0x0, 1, 0x0, 1, 0x0, 0x0, 0x0, 0x1000000, false⟩,
   ⟨0x4, 0x0, 1, 0x0, 1, 0x0, 0x0, 0x8, 0x0, false⟩,
   ⟨0x8, 0x0, 1, 0x0, 1, 0x0, 0x0, 0x0, 0x0, false⟩,
   ⟨0xc, 0x0, 1, 0x0, 1, 0x0, 0x0, 0x0, 0x0, false⟩,
   ⟨0x10, 0x0, 1, 0x0, 1, 0x7ff800ff, 0x0, 0x0, 0x0, false⟩,
   ⟨0x14, 0x0, 1, 0x0, 1, 0x0, 0x0, 0x50000000, 0x0, false⟩,
   ⟨0x18, 0x0, 1, 0x0, 1, 0x0, 0x0, 0x0, 0x0, false⟩,
   ⟨0x1c, 0x0, 1, 0x0, 1, 0x0, 0x0, 0x0, 0x0, false⟩,
   ⟨0x20, 0x4, 12, 0x0, 1, 0xffffffff, 0x0, 0x0, 0x0, false⟩,
   ⟨0x60, 0x10, 3, 0x0, 1, 0x0, 0x0, 0x0, 0x0, false⟩,
   ⟨0x64, 0x10, 3, 0x0, 1, 0x0, 0x0, 0x0, 0x0, false⟩,
   ⟨0x68, 0x10, 3, 0x0, 1, 0x0, 0x0, 0x0, 0x0, true⟩,
   ⟨0x6c, 0x10, 3, 0x0, 1, 0x0, 0x0, 0x0, 0x0, false⟩]

/-- The registers of the block at 0x10000. -/
def regRowsClk : List RegRow :=
  [⟨0x10000, 0x0, 1, 0x0, 1, 0x0, 0x0, 0x0, 0x0, false⟩,
   ⟨0x10004, 0x0, 1, 0x0, 1, 0x0, 0x0, 0x3ff, 0x0, false⟩,
   ⟨0x10008, 0x0, 1, 0x0, 1, 0x3ff, 0x0, 0x0, 0x3ff, false⟩,
   ⟨0x1000c, 0x0, 1, 0x0, 1, 0x0, 0x0, 0x0, 0x0, false⟩,
   ⟨0x10010, 0x0, 1, 0x0, 1, 0x0, 0x0, 0x0, 0x0, false⟩,
   ⟨0x10014, 0x0, 1, 0x0, 1, 0x0, 0x0, 0x0, 0x0, true⟩,
   ⟨0x10018, 0x0, 1, 0x0, 1, 0x0, 0x0, 0x0, 0x0, false⟩,
   ⟨0x1001c, 0x0, 1, 0x0, 1, 0x0, 0x0, 0x0, 0x0, false⟩,
   ⟨0x10020, 0x0, 1, 0x0, 1, 0x0, 0x0, 0x0, 0x0, false⟩,
   ⟨0x10024, 0x0, 1, 0x0, 1, 0xffff, 0x0, 0x0, 0x6e64, false⟩,
   ⟨0x10040, 0x4, 8, 0x0, 1, 0x0, 0x0, 0x0, 0x0, false⟩]

/-- The registers of the block at 0x100000. -/
def regRowsFab : List RegRow :=
  [⟨0x100000, 0x4000, 576, 0x0, 1, 0x0, 0x0, 0x0, 0x0, false⟩,
   ⟨0x100004, 0x4000, 576, 0x0, 1, 0x0, 0x0, 0x0, 0x0, false⟩,
   ⟨0x100008, 0x4000, 576, 0x0, 1, 0x0, 0x0, 0x0, 0x0, false⟩,
   ⟨0x10000c, 0x4000, 576, 0x0, 1, 0x0, 0x0, 0x0, 0x0, true⟩,
   ⟨0x100010, 0x4000, 576, 0x0, 1, 0x0, 0x0, 0x0, 0x0, false⟩,
   ⟨0x100014, 0x4000, 576, 0x0, 1, 0x0, 0x0, 0x0, 0x0, true⟩,
   ⟨0x100018, 0x4000, 576, 0x0, 1, 0x0, 0x0, 0x0, 0x0, false⟩,
   ⟨0x10001c, 0x4000, 576, 0x0, 1, 0x0, 0x0, 0x1ff, 0x0, false⟩,
   ⟨0x100020, 0x4000, 576, 0x0, 1, 0x1ff, 0x0, 0x0, 0x1ff, false⟩,
   ⟨0x100024, 0x4000, 576, 0x0, 1, 0x0, 0x0, 0x0, 0x0, false⟩,
   ⟨0x100028, 0x4000, 576, 0x0, 1, 0x0, 0x1, 0x0, 0x0, false⟩,
   ⟨0x10002c, 0x4000, 576, 0x0, 1, 0x0, 0x0, 0x0, 0x0, true⟩,
   ⟨0x100030, 0x4000, 576, 0x0, 1, 0x0, 0x0, 0x0, 0x0, false⟩,
   ⟨0x100034, 0x4000, 576, 0x0, 1, 0x0, 0x0, 0x0, 0x0, false⟩,
   ⟨0x100038, 0x4000, 576, 0x0, 1, 0x0, 0x0, 0x0, 0x0, false⟩,
   ⟨0x10003c, 0x4000, 576, 0x0, 1, 0x0, 0x0, 0x0, 0x0, false⟩,
   ⟨0x100040, 0x4000, 576, 0x0, 1, 0x0, 0x0, 0x0, 0x0, false⟩,
   ⟨0x100044, 0x4000, 576, 0x0, 1, 0x0, 0x0, 0x0, 0x0, false⟩]

/-- The registers of the block at 0x1000000. -/
def regRowsMem : List RegRow :=
  [⟨0x1000000, 0x0, 1, 0x0, 1, 0x0, 0x0, 0x0, 0x0, false⟩,
   ⟨0x1000004, 0x0, 1, 0x0, 1, 0x1ffff, 0x0, 0x0, 0x64, false⟩,
   ⟨0x1000008, 0x0, 1, 0x0, 1, 0x0, 0x0, 0x3, 0x0, false⟩,
   ⟨0x1000010, 0x0, 1, 0x0, 1, 0x0, 0x0, 0x80000000, 0x0, false⟩,
   ⟨0x1000014, 0x0, 1, 0x0, 1, 0x0, 0x0, 0x0, 0x0, false⟩,
   ⟨0x1000018, 0x0, 1, 0x0, 1, 0x0, 0x0, 0x0, 0x0, false⟩,
   ⟨0x100001c, 0x0, 1, 0x0, 1, 0x0, 0x0, 0x0, 0x0, false⟩,
   ⟨0x100003c, 0x0, 1, 0x0, 1, 0x0, 0x0, 0x0, 0x0, false⟩,
   ⟨0x1000040, 0x4, 6, 0x0, 1, 0x0, 0x0, 0x0, 0x0, false⟩,
   ⟨0x1000060, 0x4, 8, 0x0, 1, 0x0, 0x0, 0x0, 0x0, false⟩,
   ⟨0x1000080, 0x0, 1, 0x0, 1, 0x0, 0x0, 0x0, 0x0, false⟩,
   ⟨0x1000100, 0x0, 1, 0x0, 1, 0x3fff, 0x0, 0x0, 0x0, false⟩,
   ⟨0x1000104, 0x0, 1, 0x0, 1, 0x0, 0x0, 0x0, 0x0, false⟩,
   ⟨0x1000108, 0x0, 1, 0x0, 1, 0x0, 0x0, 0x0, 0x0, false⟩,
   ⟨0x1000110, 0x0, 1, 0x0, 1, 0x1fff, 0x0, 0x0, 0x0, false⟩,
   ⟨0x1000114, 0x0, 1, 0x0, 1, 0x0, 0x0, 0x0, 0x0, false⟩,
   ⟨0x1000118, 0x0, 1, 0x0, 1, 0x0, 0x0, 0x0, 0x0, false⟩,
   ⟨0x100011c, 0x0, 1, 0x0, 1, 0x0, 0x0, 0x0, 0x0, false⟩,
   ⟨0x1001000, 0x40, 32, 0x0, 1, 0x0, 0x0, 0x0, 0x0, false⟩,
   ⟨0x1001004, 0x40, 32, 0x0, 1, 0x0, 0x0, 0x0, 0x0, false⟩]
  ++ [⟨0x1001008, 0x40, 32, 0x0, 1, 0x0, 0x0, 0x0, 0x0, false⟩,
   ⟨0x100100c, 0x40, 32, 0x0, 1, 0x0, 0x0, 0x7f, 0x0, false⟩,
   ⟨0x1001010, 0x40, 32, 0x0, 1, 0x0, 0x0, 0x0, 0x0, false⟩,
   ⟨0x1001014, 0x40, 32, 0x0, 1, 0x0, 0x0, 0x0, 0x0, false⟩,
   ⟨0x1001018, 0x40, 32, 0x0, 1, 0x7f, 0x0, 0x0, 0x7f, false⟩]

/-- The registers of the block at 0x1800000. -/
def regRowsInt : List RegRow :=
  [⟨0x18e0000, 0x100000, 2, 0x0, 1, 0x0, 0x0, 0x0, 0x0, false⟩,
   ⟨0x18e0010, 0x100000, 2, 0x4, 6, 0x0, 0x0, 0x0, 0x0, false⟩,
   ⟨0x18e0030, 0x100000, 2, 0x4, 6, 0x0, 0x0, 0x0, 0x0, false⟩,
   ⟨0x18e0048, 0x100000, 2, 0x0, 1, 0x0, 0x0, 0xf, 0x0, false⟩,
   ⟨0x18e004c, 0x100000, 2, 0x0, 1, 0xf, 0x0, 0x0, 0xf, false⟩,
   ⟨0x18e0100, 0x100000, 2, 0x0, 1, 0x0, 0x0, 0x0, 0x0, false⟩,
   ⟨0x18e0104, 0x100000, 2, 0x0, 1, 0x0, 0x0, 0x0, 0x0, false⟩,
   ⟨0x18e0108, 0x100000, 2, 0x0, 1, 0x0, 0x0, 0x0, 0x0, false⟩,
   ⟨0x18e010c, 0x100000, 2, 0x0, 1, 0x0, 0x0, 0x3f, 0x0, false⟩,
   ⟨0x18e0110, 0x100000, 2, 0x0, 1, 0x3f, 0x0, 0x0, 0x3f, false⟩,
   ⟨0x18e0114, 0x100000, 2, 0x0, 1, 0x0, 0x0, 0x0, 0x0, true⟩,
   ⟨0x18e0118, 0x100000, 2, 0x0, 1, 0x0, 0x0, 0x0, 0x0, false⟩,
   ⟨0x18e011c, 0x100000, 2, 0x0, 1, 0x0, 0x0, 0x0, 0x0, false⟩,
   ⟨0x18f0000, 0x100000, 2, 0x0, 1, 0x0, 0x0, 0x0, 0x6000101, false⟩,
   ⟨0x18f0004, 0x100000, 2, 0x0, 1, 0x0, 0x0, 0x7f, 0x0, false⟩,
   ⟨0x18f0008, 0x100000, 2, 0x0, 1, 0x7f, 0x0, 0x0, 0x7f, false⟩,
   ⟨0x18f0100, 0x100000, 2, 0x20, 4, 0xffffffc0, 0x0, 0x0, 0x0, true⟩,
   ⟨0x18f0104, 0x100000, 2, 0x20, 4, 0x1f, 0x0, 0x0, 0x0, false⟩,
   ⟨0x18f0108, 0x100000, 2, 0x20, 4, 0xffffffc0, 0x0, 0x0, 0x0, false⟩,
   ⟨0x18f010c, 0x100000, 2, 0x20, 4, 0x0, 0x0, 0x0, 0x0, false⟩]
  ++ [⟨0x18f0110, 0x100000, 2, 0x20, 4, 0xffffffc0, 0x0, 0x0, 0x0, false⟩,
   ⟨0x18f0114, 0x100000, 2, 0x20, 4, 0x0, 0x0, 0x0, 0x0, false⟩,
   ⟨0x18f1000, 0x100000, 2, 0x100, 6, 0x17fff, 0x0, 0x0, 0x4100, false⟩,
   ⟨0x18f1004, 0x100000, 2, 0x100, 6, 0xffff3fff, 0x0, 0x0, 0x3e71fff, false⟩,
   ⟨0x18f1008, 0x100000, 2, 0x100, 6, 0xffffffff, 0x0, 0x0, 0x1, false⟩,
   ⟨0x18f100c, 0x100000, 2, 0x100, 6, 0xffff, 0x0, 0x0, 0x0, false⟩,
   ⟨0x18f1010, 0x100000, 2, 0x100, 6, 0xffff0003, 0x0, 0x0, 0x0, false⟩,
   ⟨0x18f1014, 0x100000, 2, 0x100, 6, 0x1f, 0x0, 0x0, 0x0, false⟩,
   ⟨0x18f1018, 0x100000, 2, 0x100, 6, 0x7, 0x0, 0x0, 0x0, false⟩,
   ⟨0x18f101c, 0x100000, 2, 0x100, 6, 0xffffffff, 0x0, 0x0, 0x0, false⟩,
   ⟨0x18f1020, 0x100000, 2, 0x100, 6, 0xffffffff, 0x0, 0x0, 0x0, false⟩,
   ⟨0x18f1024, 0x100000, 2, 0x100, 6, 0xffff, 0x0, 0x0, 0x100, false⟩,
   ⟨0x18f1028, 0x100000, 2, 0x100, 6, 0xffffffff, 0x0, 0x0, 0x0, false⟩,
   ⟨0x18f102c, 0x100000, 2, 0x100, 6, 0x0, 0x0, 0x0, 0x0, false⟩,
   ⟨0x18f1030, 0x100000, 2, 0x100, 6, 0x0, 0x0, 0x0, 0x0, false⟩,
   ⟨0x18f1034, 0x100000, 2, 0x100, 6, 0x0, 0x0, 0x0, 0x0, false⟩,
   ⟨0x18f1038, 0x100000, 2, 0x100, 6, 0x0, 0x0, 0x3ffff, 0x0, false⟩,
   ⟨0x18f103c, 0x100000, 2, 0x100, 6, 0x3ffff, 0x0, 0x0, 0x3fffe, false⟩,
   ⟨0x18f1040, 0x100000, 2, 0x100, 6, 0x0, 0x0, 0x0, 0x0, false⟩,
   ⟨0x18f1044, 0x100000, 2, 0x100, 6, 0x0, 0x0, 0x0, 0x0, true⟩]
  ++ [⟨0x18f1048, 0x100000, 2, 0x100, 6, 0x0, 0x0, 0x0, 0x0, false⟩,
   ⟨0x18f104c, 0x100000, 2, 0x100, 6, 0x0, 0x0, 0x0, 0x0, false⟩,
   ⟨0x18f1050, 0x100000, 2, 0x100, 6, 0x0, 0x0, 0x0, 0x0, false⟩]

/-- The registers of the block at 0x1a00000. -/
def regRowsPrep : List RegRow :=
  [⟨0x1a00000, 0x0, 1, 0x0, 1, 0x0, 0x0, 0x0, 0x0, false⟩,
   ⟨0x1a00004, 0x0, 1, 0x0, 1, 0x0, 0x0, 0x0, 0x0, true⟩,
   ⟨0x1a00008, 0x0, 1, 0x0, 1, 0x0, 0x0, 0x0, 0x0, false⟩,
   ⟨0x1a0000c, 0x0, 1, 0x0, 1, 0x0, 0x0, 0x0, 0x0, true⟩,
   ⟨0x1a00010, 0x0, 1, 0x0, 1, 0x0, 0x0, 0x0, 0x0, false⟩,
   ⟨0x1a00014, 0x0, 1, 0x0, 1, 0x0, 0x0, 0x7ff, 0x0, false⟩,
   ⟨0x1a00018, 0x0, 1, 0x0, 1, 0x7ff, 0x0, 0x0, 0x5ff, false⟩,
   ⟨0x1a0001c, 0x0, 1, 0x0, 1, 0x0, 0x0, 0x0, 0x0, false⟩,
   ⟨0x1a00020, 0x0, 1, 0x0, 1, 0x0, 0x0, 0x0, 0x0, false⟩,
   ⟨0x1a00024, 0x0, 1, 0x0, 1, 0x0, 0x0, 0x0, 0x0, false⟩,
   ⟨0x1a00100, 0x10, 8, 0x0, 1, 0x0, 0x0, 0x0, 0x0, false⟩,
   ⟨0x1a00104, 0x10, 8, 0x0, 1, 0x1f, 0x0, 0x0, 0x0, false⟩,
   ⟨0x1a00108, 0x10, 8, 0x0, 1, 0x0, 0x0, 0x0, 0x0, false⟩,
   ⟨0x1a0010c, 0x10, 8, 0x0, 1, 0x0, 0x0, 0x0, 0x0, false⟩]

/-- The registers of the block at 0x1b00000. -/
def regRowsPos : List RegRow :=
  [⟨0x1b00000, 0x0, 1, 0x0, 1, 0x0, 0x0, 0x0, 0x0, false⟩,
   ⟨0x1b00004, 0x0, 1, 0x0, 1, 0x0, 0x0, 0x3ffb, 0x0, false⟩,
   ⟨0x1b00008, 0x0, 1, 0x0, 1, 0x3fff, 0x0, 0x0, 0x3ffb, false⟩,
   ⟨0x1b0000c, 0x0, 1, 0x0, 1, 0x0, 0x0, 0x0, 0x0, false⟩,
   ⟨0x1b00010, 0x8, 5, 0x0, 1, 0x0, 0x0, 0x0, 0x0, true⟩,
   ⟨0x1b00014, 0x8, 5, 0x0, 1, 0x0, 0x0, 0x0, 0x0, false⟩,
   ⟨0x1b00040, 0x8, 5, 0x0, 1, 0x0, 0x0, 0x0, 0x0, true⟩,
   ⟨0x1b00044, 0x8, 5, 0x0, 1, 0x0, 0x0, 0x0, 0x0, false⟩,
   ⟨0x1b00080, 0x0, 1, 0x0, 1, 0xffff, 0x0, 0x0, 0x64, false⟩,
   ⟨0x1b00084, 0x0, 1, 0x0, 1, 0x0, 0x0, 0x0, 0x0, false⟩,
   ⟨0x1b00088, 0x0, 1, 0x0, 1, 0x0, 0x0, 0x0, 0x0, false⟩,
   ⟨0x1b0008c, 0x0, 1, 0x0, 1, 0x0, 0x0, 0x0, 0x0, false⟩,
   ⟨0x1b00090, 0x0, 1, 0x0, 1, 0x0, 0x0, 0x0, 0x0, false⟩,
   ⟨0x1b00094, 0x0, 1, 0x0, 1, 0x0, 0x0, 0x0, 0x0, false⟩,
   ⟨0x1b00100, 0x80, 2, 0x0, 1, 0x73f, 0x0, 0x0, 0x0, false⟩,
   ⟨0x1b00104, 0x80, 2, 0x0, 1, 0x0, 0x0, 0x0, 0x0, false⟩,
   ⟨0x1b00108, 0x80, 2, 0x0, 1, 0x0, 0x0, 0x7f, 0x0, false⟩,
   ⟨0x1b0010c, 0x80, 2, 0x0, 1, 0x7f, 0x0, 0x0, 0x7f, false⟩,
   ⟨0x1b00110, 0x80, 2, 0x0, 1, 0xffffffff, 0x0, 0x0, 0x0, false⟩,
   ⟨0x1b00114, 0x80, 2, 0x0, 1, 0x0, 0x0, 0x0, 0x0, true⟩]
  ++ [⟨0x1b00118, 0x80, 2, 0x0, 1, 0x0, 0x0, 0x0, 0x0, false⟩,
   ⟨0x1b0011c, 0x80, 2, 0x0, 1, 0xffffffff, 0x0, 0x0, 0x0, true⟩,
   ⟨0x1b00120, 0x80, 2, 0x0, 1, 0xffffffff, 0x0, 0x0, 0x0, false⟩,
   ⟨0x1b00124, 0x80, 2, 0x0, 1, 0x0, 0x0, 0x0, 0x0, false⟩,
   ⟨0x1b00128, 0x80, 2, 0x0, 1, 0xffffffff, 0x0, 0x0, 0x0, false⟩,
   ⟨0x1b0012c, 0x80, 2, 0x0, 1, 0xffffffff, 0x0, 0x0, 0x0, false⟩,
   ⟨0x1b00130, 0x80, 2, 0x0, 1, 0xffffffff, 0x0, 0x0, 0x0, false⟩,
   ⟨0x1b00134, 0x80, 2, 0x0, 1, 0x0, 0x0, 0x0, 0x0, false⟩,
   ⟨0x1b00138, 0x80, 2, 0x0, 1, 0x0, 0x0, 0x0, 0x0, false⟩,
   ⟨0x1b0013c, 0x80, 2, 0x0, 1, 0x0, 0x0, 0x0, 0x0, false⟩,
   ⟨0x1b00140, 0x80, 2, 0x0, 1, 0x0, 0x0, 0x0, 0x0, false⟩,
   ⟨0x1b00144, 0x80, 2, 0x0, 1, 0x0, 0x0, 0x0, 0x0, false⟩,
   ⟨0x1b00148, 0x80, 2, 0x0, 1, 0x0, 0x0, 0x0, 0x0, false⟩,
   ⟨0x1b00200, 0x20, 4, 0x0, 1, 0x3fd, 0x0, 0x0, 0x0, false⟩,
   ⟨0x1b00204, 0x20, 4, 0x0, 1, 0xfff, 0x0, 0x0, 0x0, false⟩,
   ⟨0x1b00208, 0x20, 4, 0x0, 1, 0xffffffff, 0x0, 0x0, 0x0, false⟩,
   ⟨0x1b0020c, 0x20, 4, 0x0, 1, 0xffffffff, 0x0, 0x0, 0x0, false⟩,
   ⟨0x1b00210, 0x20, 4, 0x0, 1, 0xffffffff, 0x0, 0x0, 0x0, false⟩,
   ⟨0x1b00214, 0x20, 4, 0x0, 1, 0x0, 0x0, 0x0, 0x0, false⟩,
   ⟨0x1b00300, 0x10, 8, 0x0, 1, 0x0, 0x0, 0x0, 0x0, false⟩]
  ++ [⟨0x1b00304, 0x10, 8, 0x0, 1, 0x0, 0x0, 0x0, 0x0, false⟩,
   ⟨0x1b00308, 0x10, 8, 0x0, 1, 0x0, 0x0, 0x0, 0x0, false⟩,
   ⟨0x1b0030c, 0x10, 8, 0x0, 1, 0x0, 0x0, 0x0, 0x0, false⟩,
   ⟨0x1b00400, 0x0, 1, 0x0, 1, 0xfffffff3, 0x0, 0x0, 0x3e80030, false⟩,
   ⟨0x1b00404, 0x0, 1, 0x0, 1, 0x0, 0x0, 0x0, 0x0, false⟩,
   ⟨0x1b00408, 0x0, 1, 0x0, 1, 0x0, 0x0, 0x0, 0x0, false⟩,
   ⟨0x1b0040c, 0x0, 1, 0x0, 1, 0x0, 0x0, 0x0, 0x0, false⟩,
   ⟨0x1b00410, 0x0, 1, 0x0, 1, 0xffffffff, 0x0, 0x0, 0x0, false⟩,
   ⟨0x1b00414, 0x0, 1, 0x0, 1, 0xffffffff, 0x0, 0x0, 0x0, false⟩,
   ⟨0x1b00418, 0x0, 1, 0x0, 1, 0x0, 0x0, 0x100, 0x0, false⟩,
   ⟨0x1b0041c, 0x0, 1, 0x0, 1, 0x0, 0x0, 0x0, 0x0, true⟩,
   ⟨0x1b00420, 0x0, 1, 0x0, 1, 0x0, 0x0, 0x0, 0x0, false⟩]

/-- The registers of the block at 0x1c00000. -/
def regRowsFld : List RegRow :=
  [⟨0x1c00000, 0x0, 1, 0x0, 1, 0x0, 0x0, 0x0, 0x4, false⟩,
   ⟨0x1c00004, 0x0, 1, 0x0, 1, 0x0, 0x0, 0x7ff, 0x0, false⟩,
   ⟨0x1c00008, 0x0, 1, 0x0, 1, 0x7ff, 0x0, 0x0, 0x7ff, false⟩,
   ⟨0x1c0000c, 0x0, 1, 0x0, 1, 0x0, 0x0, 0x0, 0x0, false⟩,
   ⟨0x1c00010, 0x0, 1, 0x0, 1, 0x0, 0x0, 0x0, 0x0, false⟩,
   ⟨0x1c00014, 0x0, 1, 0x0, 1, 0x0, 0x0, 0x0, 0x0, false⟩,
   ⟨0x1c00018, 0x0, 1, 0x0, 1, 0x0, 0x0, 0x0, 0x0, false⟩,
   ⟨0x1c0001c, 0x0, 1, 0x0, 1, 0xffff, 0x0, 0x0, 0x0, false⟩,
   ⟨0x1c00020, 0x0, 1, 0x0, 1, 0x0, 0x0, 0xffff, 0x0, false⟩,
   ⟨0x1c00024, 0x0, 1, 0x0, 1, 0x0, 0x0, 0xffff, 0x0, false⟩,
   ⟨0x1c00028, 0x0, 1, 0x0, 1, 0xffffffff, 0x0, 0x0, 0x0, false⟩,
   ⟨0x1c0002c, 0x0, 1, 0x0, 1, 0x3fff, 0x0, 0x0, 0x32, false⟩,
   ⟨0x1c00030, 0x0, 1, 0x0, 1, 0xffff, 0x0, 0x0, 0x0, false⟩,
   ⟨0x1c00034, 0x0, 1, 0x0, 1, 0xffff, 0x0, 0x0, 0x1f4, false⟩,
   ⟨0x1c00038, 0x0, 1, 0x0, 1, 0x0, 0x0, 0x0, 0x0, false⟩,
   ⟨0x1c0003c, 0x0, 1, 0x0, 1, 0x0, 0x0, 0x0, 0x0, false⟩,
   ⟨0x1c00040, 0x0, 1, 0x0, 1, 0x0, 0x0, 0x0, 0x0, false⟩,
   ⟨0x1c00044, 0x0, 1, 0x0, 1, 0x0, 0x0, 0x0, 0x0, false⟩,
   ⟨0x1c00080, 0x4, 16, 0x0, 1, 0xffff, 0x0, 0x0, 0xa, false⟩]

/-- The registers of the block at 0x1d00000. -/
def regRowsLnk : List RegRow :=
  [⟨0x1d00000, 0x0, 1, 0x0, 1, 0x0, 0x0, 0x0, 0x1000000, false⟩,
   ⟨0x1d00004, 0x0, 1, 0x0, 1, 0x0, 0x0, 0x3fffff, 0x0, false⟩,
   ⟨0x1d00008, 0x0, 1, 0x0, 1, 0x3fffff, 0x0, 0x0, 0x3fffff, false⟩,
   ⟨0x1d0000c, 0x0, 1, 0x0, 1, 0x71f, 0x0, 0x0, 0x400, false⟩,
   ⟨0x1d00010, 0x0, 1, 0x0, 1, 0x0, 0x0, 0x0, 0x0, false⟩,
   ⟨0x1d00014, 0x0, 1, 0x0, 1, 0x0, 0x0, 0x0, 0x0, false⟩,
   ⟨0x1d00018, 0x0, 1, 0x0, 1, 0xffff0003, 0x0, 0x0, 0x640000, false⟩,
   ⟨0x1d0001c, 0x0, 1, 0x0, 1, 0x7dffff, 0x0, 0x0, 0x64, false⟩,
   ⟨0x1d00020, 0x0, 1, 0x0, 1, 0x0, 0x0, 0x0, 0x0, false⟩,
   ⟨0x1d00024, 0x0, 1, 0x0, 1, 0x3, 0x0, 0x0, 0x0, false⟩,
   ⟨0x1d00028, 0x0, 1, 0x0, 1, 0x0, 0x0, 0x80000000, 0x0, false⟩,
   ⟨0x1d0002c, 0x0, 1, 0x0, 1, 0x0, 0x0, 0x0, 0x0, false⟩,
   ⟨0x1d00030, 0x0, 1, 0x0, 1, 0x0, 0x0, 0x0, 0x0, false⟩,
   ⟨0x1d00100, 0x40, 4, 0x0, 1, 0x1f, 0x0, 0x0, 0x1e, false⟩,
   ⟨0x1d00104, 0x40, 4, 0x0, 1, 0x0, 0x0, 0x0, 0x0, false⟩,
   ⟨0x1d00108, 0x40, 4, 0x4, 4, 0x0, 0x0, 0x0, 0x300000, false⟩,
   ⟨0x1d00118, 0x40, 4, 0x0, 1, 0x0, 0x0, 0x0, 0x0, false⟩,
   ⟨0x1d0011c, 0x40, 4, 0x0, 1, 0x0, 0x0, 0x0, 0x0, false⟩,
   ⟨0x1d00120, 0x40, 4, 0x0, 1, 0x0, 0x0, 0x0, 0x0, false⟩,
   ⟨0x1d00124, 0x40, 4, 0x0, 1, 0x0, 0x0, 0x0, 0x0, false⟩]
  ++ [⟨0x1d00128, 0x40, 4, 0x0, 1, 0x0, 0x0, 0x0, 0x0, false⟩,
   ⟨0x1d00400, 0x10, 24, 0x0, 1, 0xf, 0x0, 0x0, 0xf, false⟩,
   ⟨0x1d00404, 0x10, 24, 0x0, 1, 0x0, 0x0, 0x0, 0x0, false⟩,
   ⟨0x1d00408, 0x10, 24, 0x0, 1, 0x0, 0x0, 0x0, 0x300000, false⟩,
   ⟨0x1d0040c, 0x10, 24, 0x0, 1, 0x0, 0x0, 0x0, 0x0, false⟩]

/-- The registers of the block at 0x1e00000. -/
def regRowsHif : List RegRow :=
  [⟨0x1e00000, 0x0, 1, 0x0, 1, 0x0, 0x0, 0x0, 0x1900000, false⟩,
   ⟨0x1e00004, 0x0, 1, 0x0, 1, 0x0, 0x0, 0x0, 0x0, false⟩,
   ⟨0x1e00008, 0x0, 1, 0x0, 1, 0x0, 0x0, 0x3ff, 0x0, false⟩,
   ⟨0x1e0000c, 0x0, 1, 0x0, 1, 0x3ff, 0x0, 0x0, 0x3ff, false⟩,
   ⟨0x1e00010, 0x0, 1, 0x0, 1, 0x0, 0x0, 0x0, 0x0, true⟩,
   ⟨0x1e00014, 0x0, 1, 0x0, 1, 0x0, 0x0, 0x0, 0x0, false⟩,
   ⟨0x1e00018, 0x0, 1, 0x0, 1, 0x0, 0x0, 0x80000000, 0x0, false⟩,
   ⟨0x1e00020, 0x0, 1, 0x0, 1, 0xc0000001, 0x0, 0x0, 0x0, true⟩,
   ⟨0x1e00024, 0x0, 1, 0x0, 1, 0x1f, 0x0, 0x0, 0x0, false⟩,
   ⟨0x1e00028, 0x0, 1, 0x0, 1, 0xfff, 0x0, 0x0, 0x0, false⟩,
   ⟨0x1e00030, 0x0, 1, 0x0, 1, 0x0, 0x0, 0x0, 0x0, false⟩,
   ⟨0x1e00040, 0x0, 1, 0x0, 1, 0x0, 0x0, 0x0, 0x0, false⟩,
   ⟨0x1e00044, 0x0, 1, 0x0, 1, 0x0, 0x0, 0x0, 0x0, false⟩,
   ⟨0x1e00048, 0x0, 1, 0x0, 1, 0x0, 0x0, 0x0, 0x0, false⟩,
   ⟨0x1e0004c, 0x0, 1, 0x0, 1, 0x0, 0x0, 0x0, 0x0, false⟩,
   ⟨0x1e10000, 0x20, 8192, 0x0, 1, 0xfff1f, 0x0, 0x0, 0x0, false⟩,
   ⟨0x1e10004, 0x20, 8192, 0x0, 1, 0x1f1fff, 0x0, 0x0, 0x0, false⟩,
   ⟨0x1e10008, 0x20, 8192, 0x0, 1, 0xffffffff, 0x0, 0x0, 0x0, true⟩,
   ⟨0x1e1000c, 0x20, 8192, 0x0, 1, 0xffffffff, 0x0, 0x0, 0x0, false⟩,
   ⟨0x1e10010, 0x20, 8192, 0x0, 1, 0x1f, 0x0, 0x0, 0x2, false⟩,
   ⟨0x1e10014, 0x20, 8192, 0x0, 1, 0xffffffff, 0x0, 0x0, 0x1, false⟩,
   ⟨0x1e10018, 0x20, 8192, 0x0, 1, 0x0, 0x0, 0x7, 0x0, false⟩,
   ⟨0x1e1001c, 0x20, 8192, 0x0, 1, 0x0, 0x0, 0x0, 0x0, false⟩]

/-- The registers of the block at 0x1f00000. -/
def regRowsSec : List RegRow :=
  [⟨0x1f00000, 0x0, 1, 0x0, 1, 0x0, 0x0, 0x0, 0x1000100, false⟩,
   ⟨0x1f00004, 0x0, 1, 0x0, 1, 0x0, 0x0, 0x0, 0x1f0000, false⟩,
   ⟨0x1f00008, 0x0, 1, 0x0, 1, 0x0, 0x0, 0xff, 0x0, false⟩,
   ⟨0x1f0000c, 0x0, 1, 0x0, 1, 0xff, 0x0, 0x0, 0xff, false⟩,
   ⟨0x1f00010, 0x0, 1, 0x0, 1, 0x0, 0x3, 0x0, 0x0, false⟩,
   ⟨0x1f00014, 0x0, 1, 0x0, 1, 0x0, 0x0, 0x0, 0x0, false⟩,
   ⟨0x1f00018, 0x0, 1, 0x0, 1, 0x0, 0x0, 0x0, 0x0, false⟩,
   ⟨0x1f00020, 0x0, 1, 0x0, 1, 0x7ff800ff, 0x0, 0x0, 0x0, false⟩,
   ⟨0x1f00024, 0x0, 1, 0x0, 1, 0x0, 0x0, 0x40000000, 0x0, false⟩,
   ⟨0x1f00080, 0x20, 8, 0x4, 8, 0x0, 0x0, 0x0, 0x0, false⟩,
   ⟨0x1f00200, 0x4, 64, 0x0, 1, 0xffffffff, 0x0, 0x0, 0x0, false⟩,
   ⟨0x1f00400, 0x4, 256, 0x0, 1, 0x0, 0x0, 0x0, 0x0, false⟩]

/-- The registers of the block at 0x2000000. -/
def regRowsFlt : List RegRow :=
  [⟨0x2000000, 0x0, 1, 0x0, 1, 0x0, 0x0, 0x6, 0x0, false⟩,
   ⟨0x2000004, 0x0, 1, 0x0, 1, 0xffff0301, 0x0, 0x0, 0x201, false⟩,
   ⟨0x2000008, 0x0, 1, 0x0, 1, 0x0, 0x0, 0x0, 0x0, false⟩,
   ⟨0x200000c, 0x0, 1, 0x0, 1, 0xffffffff, 0x0, 0x0, 0x0, false⟩,
   ⟨0x2000010, 0x0, 1, 0x0, 1, 0x0, 0x0, 0x0, 0x0, false⟩,
   ⟨0x2000014, 0x0, 1, 0x0, 1, 0x0, 0x0, 0x0, 0x0, false⟩,
   ⟨0x2000018, 0x0, 1, 0x0, 1, 0x0, 0x0, 0x0, 0x0, false⟩,
   ⟨0x200001c, 0x0, 1, 0x0, 1, 0x0, 0x0, 0x0, 0x0, false⟩,
   ⟨0x2000020, 0x0, 1, 0x0, 1, 0x0, 0x0, 0x0, 0x0, false⟩,
   ⟨0x2000024, 0x0, 1, 0x0, 1, 0x0, 0x0, 0x0, 0x0, false⟩,
   ⟨0x2000040, 0x0, 1, 0x0, 1, 0x0, 0x0, 0x82000000, 0x0, false⟩,
   ⟨0x2000044, 0x0, 1, 0x0, 1, 0x0, 0x0, 0x0, 0x0, false⟩,
   ⟨0x2000048, 0x0, 1, 0x0, 1, 0xffffffc0, 0x0, 0x0, 0x0, true⟩,
   ⟨0x200004c, 0x0, 1, 0x0, 1, 0xffffffff, 0x0, 0x0, 0x0, false⟩,
   ⟨0x2000050, 0x0, 1, 0x0, 1, 0x0, 0x0, 0x0, 0x0, false⟩,
   ⟨0x2000060, 0x0, 1, 0x0, 1, 0xffffffc0, 0x0, 0x0, 0x0, true⟩,
   ⟨0x2000064, 0x0, 1, 0x0, 1, 0x1f, 0x0, 0x0, 0x0, false⟩,
   ⟨0x2000068, 0x0, 1, 0x0, 1, 0xffffffc0, 0x0, 0x0, 0x0, false⟩,
   ⟨0x200006c, 0x0, 1, 0x0, 1, 0x0, 0x0, 0x0, 0x0, false⟩,
   ⟨0x2000070, 0x0, 1, 0x0, 1, 0xffffffc0, 0x0, 0x0, 0x0, false⟩]
  ++ [⟨0x2000074, 0x0, 1, 0x0, 1, 0x0, 0x0, 0x0, 0x0, false⟩,
   ⟨0x2000078, 0x0, 1, 0x0, 1, 0xc000ffff, 0x0, 0x0, 0x1, false⟩,
   ⟨0x200007c, 0x0, 1, 0x0, 1, 0xffffffff, 0x0, 0x0, 0x0, true⟩,
   ⟨0x2000080, 0x0, 1, 0x0, 1, 0xffff, 0x0, 0x0, 0x0, false⟩,
   ⟨0x2000090, 0x0, 1, 0x0, 1, 0x0, 0x1, 0x0, 0x0, false⟩,
   ⟨0x2000094, 0x0, 1, 0x0, 1, 0x0, 0x0, 0x0, 0x0, false⟩,
   ⟨0x2000098, 0x0, 1, 0x0, 1, 0x3ff, 0x0, 0x0, 0x0, false⟩,
   ⟨0x200009c, 0x0, 1, 0x0, 1, 0xffffffff, 0x0, 0x0, 0x0, true⟩,
   ⟨0x20000a0, 0x0, 1, 0x0, 1, 0xffffffff, 0x0, 0x0, 0x0, false⟩,
   ⟨0x20000a4, 0x0, 1, 0x0, 1, 0xffffffc0, 0x0, 0x0, 0x0, true⟩,
   ⟨0x20000a8, 0x0, 1, 0x0, 1, 0xffffffff, 0x0, 0x0, 0x0, false⟩,
   ⟨0x20000ac, 0x0, 1, 0x0, 1, 0x0, 0x0, 0x0, 0x0, false⟩,
   ⟨0x20000b0, 0x0, 1, 0x0, 1, 0x700ffff, 0x0, 0x0, 0x0, false⟩,
   ⟨0x20000b4, 0x0, 1, 0x0, 1, 0xffffffc0, 0x0, 0x0, 0x0, true⟩,
   ⟨0x20000b8, 0x0, 1, 0x0, 1, 0xffffffff, 0x0, 0x0, 0x0, false⟩,
   ⟨0x20000bc, 0x0, 1, 0x0, 1, 0x0, 0x0, 0x0, 0x0, false⟩,
   ⟨0x2001000, 0x10, 32, 0x0, 1, 0xffffffff, 0x0, 0x0, 0xffff, false⟩,
   ⟨0x2001004, 0x10, 32, 0x0, 1, 0xcf00ffff, 0x0, 0x0, 0x0, false⟩,
   ⟨0x2001008, 0x10, 32, 0x0, 1, 0x0, 0x0, 0x0, 0x0, false⟩,
   ⟨0x2100000, 0x20, 4096, 0x4, 8, 0x0, 0x0, 0x0, 0x0, false⟩]

/-- The rows of the block that holds an address (R375). -/
def regBlock (a : Nat) : List RegRow :=
  if a < 0x10000 then regRowsGlb
  else if a < 0x100000 then regRowsClk
  else if a < 0x1000000 then regRowsFab
  else if a < 0x1800000 then regRowsMem
  else if a < 0x1a00000 then regRowsInt
  else if a < 0x1b00000 then regRowsPrep
  else if a < 0x1c00000 then regRowsPos
  else if a < 0x1d00000 then regRowsFld
  else if a < 0x1e00000 then regRowsLnk
  else if a < 0x1f00000 then regRowsHif
  else if a < 0x2000000 then regRowsSec
  else if a < 0x4000000 then regRowsFlt
  else []

/-- The row covers the address. -/
def RegRow.covers (r : RegRow) (a : Nat) : Bool :=
  r.base ≤ a &&
    (let o := a - r.base
     let i := if r.s1 = 0 then 0 else o / r.s1
     let i := if r.n1 ≤ i then r.n1 - 1 else i
     let o2 := o - i * r.s1
     let j := if r.s2 = 0 then 0 else o2 / r.s2
     let j := if r.n2 ≤ j then r.n2 - 1 else j
     o2 == j * r.s2)

/-- The row of a register, `none` for a reserved offset. -/
def regRow (a : Nat) : Option RegRow := (regBlock a).find? (·.covers a)

/-- The reset value of a register's stored bits. -/
def regReset (a : Nat) : W32 := ((regRow a).map fun r => BitVec.ofNat 32 r.reset).getD 0

/-! Addresses, one per register; an array's register takes its indices. -/

abbrev rGlbId : Nat := 0x0
abbrev rGlbStat : Nat := 0x4
abbrev rGlbRst : Nat := 0x8
abbrev rGlbRstCause : Nat := 0xc
abbrev rGlbWvCtl : Nat := 0x10
abbrev rGlbWvStat : Nat := 0x14
abbrev rGlbSwapPos : Nat := 0x18
abbrev rGlbFlash : Nat := 0x1c
abbrev rGlbWvArg (i : Nat) : Nat := 0x20 + i * 0x4
abbrev rBankStat (i : Nat) : Nat := 0x60 + i * 0x10
abbrev rBankSize (i : Nat) : Nat := 0x64 + i * 0x10
abbrev rBankDigLo (i : Nat) : Nat := 0x68 + i * 0x10
abbrev rBankDigHi (i : Nat) : Nat := 0x6c + i * 0x10
abbrev rClkStat : Nat := 0x10000
abbrev rClkErr : Nat := 0x10004
abbrev rClkErrEn : Nat := 0x10008
abbrev rClkLock : Nat := 0x1000c
abbrev rClkAlign : Nat := 0x10010
abbrev rPwrGoodLo : Nat := 0x10014
abbrev rPwrGoodHi : Nat := 0x10018
abbrev rPwrVin : Nat := 0x1001c
abbrev rPwrPower : Nat := 0x10020
abbrev rPwrTherm : Nat := 0x10024
abbrev rPwrTemp (i : Nat) : Nat := 0x10040 + i * 0x4
abbrev rTileId (i : Nat) : Nat := 0x100000 + i * 0x4000
abbrev rTileStat (i : Nat) : Nat := 0x100004 + i * 0x4000
abbrev rTilePc (i : Nat) : Nat := 0x100008 + i * 0x4000
abbrev rTileStepLo (i : Nat) : Nat := 0x10000c + i * 0x4000
abbrev rTileStepHi (i : Nat) : Nat := 0x100010 + i * 0x4000
abbrev rTileSmpLo (i : Nat) : Nat := 0x100014 + i * 0x4000
abbrev rTileSmpHi (i : Nat) : Nat := 0x100018 + i * 0x4000
abbrev rTileErr (i : Nat) : Nat := 0x10001c + i * 0x4000
abbrev rTileErrEn (i : Nat) : Nat := 0x100020 + i * 0x4000
abbrev rTileSlips (i : Nat) : Nat := 0x100024 + i * 0x4000
abbrev rTileCntCtl (i : Nat) : Nat := 0x100028 + i * 0x4000
abbrev rTileCntIssueLo (i : Nat) : Nat := 0x10002c + i * 0x4000
abbrev rTileCntIssueHi (i : Nat) : Nat := 0x100030 + i * 0x4000
abbrev rTileCntHtag (i : Nat) : Nat := 0x100034 + i * 0x4000
abbrev rTileCntHlat (i : Nat) : Nat := 0x100038 + i * 0x4000
abbrev rTileCntHbank (i : Nat) : Nat := 0x10003c + i * 0x4000
abbrev rTileCntHque (i : Nat) : Nat := 0x100040 + i * 0x4000
abbrev rTileCntPred (i : Nat) : Nat := 0x100044 + i * 0x4000
abbrev rMemCfg : Nat := 0x1000000
abbrev rMemLease : Nat := 0x1000004
abbrev rMemLeaseStat : Nat := 0x1000008
abbrev rMemWdropStat : Nat := 0x1000010
abbrev rMemWdropSrc : Nat := 0x1000014
abbrev rMemWdropDst : Nat := 0x1000018
abbrev rMemWdropAddr : Nat := 0x100001c
abbrev rMemCeClr : Nat := 0x100003c
abbrev rMemStkCe (i : Nat) : Nat := 0x1000040 + i * 0x4
abbrev rMemDdrCe (i : Nat) : Nat := 0x1000060 + i * 0x4
abbrev rMemDdrStat : Nat := 0x1000080
abbrev rMemLatSel : Nat := 0x1000100
abbrev rMemLatCnt : Nat := 0x1000104
abbrev rMemLatOwn : Nat := 0x1000108
abbrev rMemWinSel : Nat := 0x1000110
abbrev rMemWinStat : Nat := 0x1000114
abbrev rMemWinBase : Nat := 0x1000118
abbrev rMemWinLimit : Nat := 0x100011c
abbrev rMemSluCtl (i : Nat) : Nat := 0x1001000 + i * 0x40
abbrev rMemSluStat (i : Nat) : Nat := 0x1001004 + i * 0x40
abbrev rMemSluPass (i : Nat) : Nat := 0x1001008 + i * 0x40
abbrev rMemSluErr (i : Nat) : Nat := 0x100100c + i * 0x40
abbrev rMemSluLease (i : Nat) : Nat := 0x1001010 + i * 0x40
abbrev rMemSluDesc (i : Nat) : Nat := 0x1001014 + i * 0x40
abbrev rMemSluErrEn (i : Nat) : Nat := 0x1001018 + i * 0x40
abbrev rStemCfg (i : Nat) : Nat := 0x18e0000 + i * 0x100000
abbrev rStemPort (i j : Nat) : Nat := 0x18e0010 + i * 0x100000 + j * 0x4
abbrev rStemRows (i j : Nat) : Nat := 0x18e0030 + i * 0x100000 + j * 0x4
abbrev rStemErr (i : Nat) : Nat := 0x18e0048 + i * 0x100000
abbrev rStemErrEn (i : Nat) : Nat := 0x18e004c + i * 0x100000
abbrev rRoiCtl (i : Nat) : Nat := 0x18e0100 + i * 0x100000
abbrev rRoiStat (i : Nat) : Nat := 0x18e0104 + i * 0x100000
abbrev rRoiPass (i : Nat) : Nat := 0x18e0108 + i * 0x100000
abbrev rRoiErr (i : Nat) : Nat := 0x18e010c + i * 0x100000
abbrev rRoiErrEn (i : Nat) : Nat := 0x18e0110 + i * 0x100000
abbrev rRoiBoxesLo (i : Nat) : Nat := 0x18e0114 + i * 0x100000
abbrev rRoiBoxesHi (i : Nat) : Nat := 0x18e0118 + i * 0x100000
abbrev rRoiLease (i : Nat) : Nat := 0x18e011c + i * 0x100000
abbrev rIntId (i : Nat) : Nat := 0x18f0000 + i * 0x100000
abbrev rIntErr (i : Nat) : Nat := 0x18f0004 + i * 0x100000
abbrev rIntErrEn (i : Nat) : Nat := 0x18f0008 + i * 0x100000
abbrev rRingBaseLo (i j : Nat) : Nat := 0x18f0100 + i * 0x100000 + j * 0x20
abbrev rRingBaseHi (i j : Nat) : Nat := 0x18f0104 + i * 0x100000 + j * 0x20
abbrev rRingSize (i j : Nat) : Nat := 0x18f0108 + i * 0x100000 + j * 0x20
abbrev rRingWr (i j : Nat) : Nat := 0x18f010c + i * 0x100000 + j * 0x20
abbrev rRingRd (i j : Nat) : Nat := 0x18f0110 + i * 0x100000 + j * 0x20
abbrev rRingDrops (i j : Nat) : Nat := 0x18f0114 + i * 0x100000 + j * 0x20
abbrev rPortCfg (i j : Nat) : Nat := 0x18f1000 + i * 0x100000 + j * 0x100
abbrev rPortGeom (i j : Nat) : Nat := 0x18f1004 + i * 0x100000 + j * 0x100
abbrev rPortTrig (i j : Nat) : Nat := 0x18f1008 + i * 0x100000 + j * 0x100
abbrev rPortFill (i j : Nat) : Nat := 0x18f100c + i * 0x100000 + j * 0x100
abbrev rPortFfc (i j : Nat) : Nat := 0x18f1010 + i * 0x100000 + j * 0x100
abbrev rPortDisp (i j : Nat) : Nat := 0x18f1014 + i * 0x100000 + j * 0x100
abbrev rPortArch (i j : Nat) : Nat := 0x18f1018 + i * 0x100000 + j * 0x100
abbrev rPortHist (i j : Nat) : Nat := 0x18f101c + i * 0x100000 + j * 0x100
abbrev rPortExpTime (i j : Nat) : Nat := 0x18f1020 + i * 0x100000 + j * 0x100
abbrev rPortExpGain (i j : Nat) : Nat := 0x18f1024 + i * 0x100000 + j * 0x100
abbrev rPortExpAux (i j : Nat) : Nat := 0x18f1028 + i * 0x100000 + j * 0x100
abbrev rPortExpCmd (i j : Nat) : Nat := 0x18f102c + i * 0x100000 + j * 0x100
abbrev rPortEcho (i j : Nat) : Nat := 0x18f1030 + i * 0x100000 + j * 0x100
abbrev rPortStat (i j : Nat) : Nat := 0x18f1034 + i * 0x100000 + j * 0x100
abbrev rPortErr (i j : Nat) : Nat := 0x18f1038 + i * 0x100000 + j * 0x100
abbrev rPortErrEn (i j : Nat) : Nat := 0x18f103c + i * 0x100000 + j * 0x100
abbrev rPortFrames (i j : Nat) : Nat := 0x18f1040 + i * 0x100000 + j * 0x100
abbrev rPortLidxLo (i j : Nat) : Nat := 0x18f1044 + i * 0x100000 + j * 0x100
abbrev rPortLidxHi (i j : Nat) : Nat := 0x18f1048 + i * 0x100000 + j * 0x100
abbrev rPortBadlines (i j : Nat) : Nat := 0x18f104c + i * 0x100000 + j * 0x100
abbrev rPortDisc (i j : Nat) : Nat := 0x18f1050 + i * 0x100000 + j * 0x100
abbrev rPrepStat : Nat := 0x1a00000
abbrev rPrepIdxLo : Nat := 0x1a00004
abbrev rPrepIdxHi : Nat := 0x1a00008
abbrev rPrepSeedLo : Nat := 0x1a0000c
abbrev rPrepSeedHi : Nat := 0x1a00010
abbrev rPrepErr : Nat := 0x1a00014
abbrev rPrepErrEn : Nat := 0x1a00018
abbrev rPrepVoidC : Nat := 0x1a0001c
abbrev rPrepVoidL : Nat := 0x1a00020
abbrev rPrepPads : Nat := 0x1a00024
abbrev rPrepBktCfg (i : Nat) : Nat := 0x1a00100 + i * 0x10
abbrev rPrepBktLow (i : Nat) : Nat := 0x1a00104 + i * 0x10
abbrev rPrepBktLevel (i : Nat) : Nat := 0x1a00108 + i * 0x10
abbrev rPrepBktBatches (i : Nat) : Nat := 0x1a0010c + i * 0x10
abbrev rPosStat : Nat := 0x1b00000
abbrev rPosErr : Nat := 0x1b00004
abbrev rPosErrEn : Nat := 0x1b00008
abbrev rPosSnapCtl : Nat := 0x1b0000c
abbrev rPosSnapTbLo (i : Nat) : Nat := 0x1b00010 + i * 0x8
abbrev rPosSnapTbHi (i : Nat) : Nat := 0x1b00014 + i * 0x8
abbrev rPosTbLo (i : Nat) : Nat := 0x1b00040 + i * 0x8
abbrev rPosTbHi (i : Nat) : Nat := 0x1b00044 + i * 0x8
abbrev rSptCfg : Nat := 0x1b00080
abbrev rSptStat : Nat := 0x1b00084
abbrev rSptOut : Nat := 0x1b00088
abbrev rSptFired : Nat := 0x1b0008c
abbrev rSptPast : Nat := 0x1b00090
abbrev rPosLate : Nat := 0x1b00094
abbrev rEncCfg (i : Nat) : Nat := 0x1b00100 + i * 0x80
abbrev rEncStat (i : Nat) : Nat := 0x1b00104 + i * 0x80
abbrev rEncErr (i : Nat) : Nat := 0x1b00108 + i * 0x80
abbrev rEncErrEn (i : Nat) : Nat := 0x1b0010c + i * 0x80
abbrev rEncZper (i : Nat) : Nat := 0x1b00110 + i * 0x80
abbrev rEncZcapLo (i : Nat) : Nat := 0x1b00114 + i * 0x80
abbrev rEncZcapHi (i : Nat) : Nat := 0x1b00118 + i * 0x80
abbrev rEncLoadLo (i : Nat) : Nat := 0x1b0011c + i * 0x80
abbrev rEncLoadHi (i : Nat) : Nat := 0x1b00120 + i * 0x80
abbrev rEncCmd (i : Nat) : Nat := 0x1b00124 + i * 0x80
abbrev rObsG1 (i : Nat) : Nat := 0x1b00128 + i * 0x80
abbrev rObsG2 (i : Nat) : Nat := 0x1b0012c + i * 0x80
abbrev rObsG3 (i : Nat) : Nat := 0x1b00130 + i * 0x80
abbrev rObsSpeed (i : Nat) : Nat := 0x1b00134 + i * 0x80
abbrev rObsAccel (i : Nat) : Nat := 0x1b00138 + i * 0x80
abbrev rObsDev (i : Nat) : Nat := 0x1b0013c + i * 0x80
abbrev rEncVmax (i : Nat) : Nat := 0x1b00140 + i * 0x80
abbrev rEncOvsCnt (i : Nat) : Nat := 0x1b00144 + i * 0x80
abbrev rEncRaw (i : Nat) : Nat := 0x1b00148 + i * 0x80
abbrev rPtCfg (i : Nat) : Nat := 0x1b00200 + i * 0x20
abbrev rPtPorts (i : Nat) : Nat := 0x1b00204 + i * 0x20
abbrev rPtPitch (i : Nat) : Nat := 0x1b00208 + i * 0x20
abbrev rPtLen (i : Nat) : Nat := 0x1b0020c + i * 0x20
abbrev rPtStart (i : Nat) : Nat := 0x1b00210 + i * 0x20
abbrev rPtCount (i : Nat) : Nat := 0x1b00214 + i * 0x20
abbrev rSpMatch (i : Nat) : Nat := 0x1b00300 + i * 0x10
abbrev rSpOffset (i : Nat) : Nat := 0x1b00304 + i * 0x10
abbrev rSpMask (i : Nat) : Nat := 0x1b00308 + i * 0x10
abbrev rSpWidth (i : Nat) : Nat := 0x1b0030c + i * 0x10
abbrev rPtpCfg : Nat := 0x1b00400
abbrev rPtpStat : Nat := 0x1b00404
abbrev rPtpOffset : Nat := 0x1b00408
abbrev rPtpAdj : Nat := 0x1b0040c
abbrev rPtpTxlat : Nat := 0x1b00410
abbrev rPtpRxlat : Nat := 0x1b00414
abbrev rPtpTsqStat : Nat := 0x1b00418
abbrev rPtpGmLo : Nat := 0x1b0041c
abbrev rPtpGmHi : Nat := 0x1b00420
abbrev rFldStat : Nat := 0x1c00000
abbrev rFldErr : Nat := 0x1c00004
abbrev rFldErrEn : Nat := 0x1c00008
abbrev rFldCmd : Nat := 0x1c0000c
abbrev rFldIn : Nat := 0x1c00010
abbrev rFldRb : Nat := 0x1c00014
abbrev rFldWb : Nat := 0x1c00018
abbrev rFldOutHost : Nat := 0x1c0001c
abbrev rFldOc : Nat := 0x1c00020
abbrev rFldRbMis : Nat := 0x1c00024
abbrev rFldSafe : Nat := 0x1c00028
abbrev rFldTimeout : Nat := 0x1c0002c
abbrev rFldWben : Nat := 0x1c00030
abbrev rFldRbt : Nat := 0x1c00034
abbrev rFldDcrcCnt : Nat := 0x1c00038
abbrev rFldUcrcCnt : Nat := 0x1c0003c
abbrev rFldSafeCnt : Nat := 0x1c00040
abbrev rFldEdgeCnt : Nat := 0x1c00044
abbrev rFldDeb (i : Nat) : Nat := 0x1c00080 + i * 0x4
abbrev rLnkId : Nat := 0x1d00000
abbrev rLnkErr : Nat := 0x1d00004
abbrev rLnkErrEn : Nat := 0x1d00008
abbrev rLnkRingCfg : Nat := 0x1d0000c
abbrev rLnkRingStat : Nat := 0x1d00010
abbrev rLnkMembers : Nat := 0x1d00014
abbrev rLnkWrap : Nat := 0x1d00018
abbrev rLnkToken : Nat := 0x1d0001c
abbrev rLnkTokenStat : Nat := 0x1d00020
abbrev rLnkWeir : Nat := 0x1d00024
abbrev rLnkDropStat : Nat := 0x1d00028
abbrev rLnkDropInfo : Nat := 0x1d0002c
abbrev rLnkDropAddr : Nat := 0x1d00030
abbrev rRpCtl (i : Nat) : Nat := 0x1d00100 + i * 0x40
abbrev rRpStat (i : Nat) : Nat := 0x1d00104 + i * 0x40
abbrev rRpTaps (i j : Nat) : Nat := 0x1d00108 + i * 0x40 + j * 0x4
abbrev rRpHop (i : Nat) : Nat := 0x1d00118 + i * 0x40
abbrev rRpIhdr (i : Nat) : Nat := 0x1d0011c + i * 0x40
abbrev rRpCrc (i : Nat) : Nat := 0x1d00120 + i * 0x40
abbrev rRpLdrop (i : Nat) : Nat := 0x1d00124 + i * 0x40
abbrev rRpSdrop (i : Nat) : Nat := 0x1d00128 + i * 0x40
abbrev rClCtl (i : Nat) : Nat := 0x1d00400 + i * 0x10
abbrev rClStat (i : Nat) : Nat := 0x1d00404 + i * 0x10
abbrev rClTaps (i : Nat) : Nat := 0x1d00408 + i * 0x10
abbrev rClIhdr (i : Nat) : Nat := 0x1d0040c + i * 0x10
abbrev rHifId : Nat := 0x1e00000
abbrev rHifLink : Nat := 0x1e00004
abbrev rHifErr : Nat := 0x1e00008
abbrev rHifErrEn : Nat := 0x1e0000c
abbrev rHifErrAddrLo : Nat := 0x1e00010
abbrev rHifErrAddrHi : Nat := 0x1e00014
abbrev rHifErrInfo : Nat := 0x1e00018
abbrev rHifStgBaseLo : Nat := 0x1e00020
abbrev rHifStgBaseHi : Nat := 0x1e00024
abbrev rHifIrq : Nat := 0x1e00028
abbrev rHifLot : Nat := 0x1e00030
abbrev rHifCntRec : Nat := 0x1e00040
abbrev rHifCntVdisc : Nat := 0x1e00044
abbrev rHifCntLost : Nat := 0x1e00048
abbrev rHifCntNolot : Nat := 0x1e0004c
abbrev rQCfg (i : Nat) : Nat := 0x1e10000 + i * 0x20
abbrev rQLink (i : Nat) : Nat := 0x1e10004 + i * 0x20
abbrev rQBaseLo (i : Nat) : Nat := 0x1e10008 + i * 0x20
abbrev rQBaseHi (i : Nat) : Nat := 0x1e1000c + i * 0x20
abbrev rQSize (i : Nat) : Nat := 0x1e10010 + i * 0x20
abbrev rQMod (i : Nat) : Nat := 0x1e10014 + i * 0x20
abbrev rQStat (i : Nat) : Nat := 0x1e10018 + i * 0x20
abbrev rQLost (i : Nat) : Nat := 0x1e1001c + i * 0x20
abbrev rSecId : Nat := 0x1f00000
abbrev rSecStat : Nat := 0x1f00004
abbrev rSecErr : Nat := 0x1f00008
abbrev rSecErrEn : Nat := 0x1f0000c
abbrev rSecCfg : Nat := 0x1f00010
abbrev rSecCtxMap : Nat := 0x1f00014
abbrev rSecSvn : Nat := 0x1f00018
abbrev rSecMbxCtl : Nat := 0x1f00020
abbrev rSecMbxStat : Nat := 0x1f00024
abbrev rSecMeas (i j : Nat) : Nat := 0x1f00080 + i * 0x20 + j * 0x4
abbrev rSecMbxIn (i : Nat) : Nat := 0x1f00200 + i * 0x4
abbrev rSecMbxOut (i : Nat) : Nat := 0x1f00400 + i * 0x4
abbrev rFltStat : Nat := 0x2000000
abbrev rFltCfg : Nat := 0x2000004
abbrev rFltLogPi : Nat := 0x2000008
abbrev rFltLogCi : Nat := 0x200000c
abbrev rFltLogLost : Nat := 0x2000010
abbrev rFltMerged : Nat := 0x2000014
abbrev rFltCntCe : Nat := 0x2000018
abbrev rFltCntUe : Nat := 0x200001c
abbrev rFltCntFatal : Nat := 0x2000020
abbrev rFltTlate : Nat := 0x2000024
abbrev rFltDumpStat : Nat := 0x2000040
abbrev rFltDumpCtl : Nat := 0x2000044
abbrev rFltDumpDstLo : Nat := 0x2000048
abbrev rFltDumpDstHi : Nat := 0x200004c
abbrev rFltDumpLen : Nat := 0x2000050
abbrev rFltTrBaseLo : Nat := 0x2000060
abbrev rFltTrBaseHi : Nat := 0x2000064
abbrev rFltTrSize : Nat := 0x2000068
abbrev rFltTrWr : Nat := 0x200006c
abbrev rFltTrRd : Nat := 0x2000070
abbrev rFltTrDrops : Nat := 0x2000074
abbrev rFltTsel : Nat := 0x2000078
abbrev rFltTidxLo : Nat := 0x200007c
abbrev rFltTidxHi : Nat := 0x2000080
abbrev rFltRplCtl : Nat := 0x2000090
abbrev rFltRplCmd : Nat := 0x2000094
abbrev rFltRplTile : Nat := 0x2000098
abbrev rFltRplStopLo : Nat := 0x200009c
abbrev rFltRplStopHi : Nat := 0x20000a0
abbrev rFltRplAddrLo : Nat := 0x20000a4
abbrev rFltRplAddrHi : Nat := 0x20000a8
abbrev rFltRplStat : Nat := 0x20000ac
abbrev rFltBcapCtl : Nat := 0x20000b0
abbrev rFltBcapAddrLo : Nat := 0x20000b4
abbrev rFltBcapAddrHi : Nat := 0x20000b8
abbrev rFltBcapDone : Nat := 0x20000bc
abbrev rRspMatch (i : Nat) : Nat := 0x2001000 + i * 0x10
abbrev rRspAct (i : Nat) : Nat := 0x2001004 + i * 0x10
abbrev rRspStat (i : Nat) : Nat := 0x2001008 + i * 0x10
abbrev rFltEventLog (i j : Nat) : Nat := 0x2100000 + i * 0x20 + j * 0x4

end Sys2Proof.Machine
end

