-- ==== Sys2Proof/Machine/State.lean ====
section
/-! DEFINITION. The state of the block: everything the spec gives the module, as plain data, and the queue of commands that
wait. Register files, memories and tables are maps in one canonical form (Machine/FMap.lean): a list of keys and values in
rising order that lists no entry equal to what an unlisted key reads as. -/
namespace Sys2Proof.Machine

/-- The module variant (R6-R11): fitted stacks, fitted I/O dies and the DDR4 code. -/
structure Variant where
  nstk : Nat
  io1 : Bool
  ddr : Nat
deriving DecidableEq, Repr

/-! ### The fabric: tiles, windows, writes in flight (chapters 2, 4 and 5) -/

/-- The state of a tile's sequencer apart from holds (TILE_STAT.STATE, R39, R68, R438). -/
inductive TileMode where | idle | run | halt | fault
deriving DecidableEq, Repr

/-- Why the presented bundle is held, in the order TILE_STAT.STATE shows (R41). -/
inductive HoldKind where | tag | latch | queue | bank
deriving DecidableEq, Repr

/-- An address register with its stride, ring base and ring length, and the descriptor's initial index (R37, R59). -/
structure AReg where
  idx : BitVec 13
  idx0 : BitVec 13
  stride : Int
  rb : Nat
  rl : Nat
deriving DecidableEq, Repr

/-- A stack address register and its descriptor values (R37). -/
structure GReg where
  stack : BitVec 3
  gran : BitVec 22
  stack0 : BitVec 3
  gran0 : BitVec 22
  stride : Int
deriving DecidableEq, Repr

/-- A remote address register and its descriptor values (R37). -/
structure DReg where
  tile : BitVec 10
  base : BitVec 13
  base0 : BitVec 13
  stride : Int
deriving DecidableEq, Repr

/-- One loop level: its counter and start address (R67). -/
structure LoopReg where
  count : BitVec 16
  start : BitVec 11
deriving DecidableEq, Repr

/-- The descriptor of one tally stream (R454). -/
structure TallyDesc where
  layer : Nat
  segn : Nat
  seglen : Nat
  l : Nat
  base : Nat
  p1 : Nat
  s1 : Nat
  s2 : Nat
  sstride : Nat
deriving DecidableEq, Repr

/-- One weight set: its eight parts, its scale row, its format and its part counter (R31, R46, R47). -/
structure WeightSet where
  parts : List (Nat × Slot)
  scale : BitVec 256
  fmt : BitVec 4
  cnt : BitVec 4
deriving DecidableEq, Repr

/-- A tile (R31), its stage descriptor (R37) and its counters (R70). Register files are maps by number. -/
structure Tile where
  mode : TileMode
  assigned : Bool
  adapt : Bool
  stage : BitVec 12
  entry : BitVec 11
  startCycle : Nat
  nb : Nat
  budget : Nat
  span : Nat
  spanLeft : Nat
  pc : BitVec 11
  depth : Nat
  v : List (Nat × Row)
  acc : List (Nat × Row)
  acp : BitVec 6
  ws0 : WeightSet
  ws1 : WeightSet
  scaleLatch : BitVec 256
  xs : Slot
  a : List (Nat × AReg)
  g : List (Nat × GReg)
  d : List (Nat × DReg)
  c : List (Nat × BitVec 16)
  lc : List (Nat × LoopReg)
  l : List (Nat × BitVec 14)
  smp : BitVec 48
  flags : BitVec 16
  step : BitVec 64
  draws : List (Nat × BitVec 8)
  tally : List (Nat × TallyDesc)
  tallyCnt : List (Nat × Nat)
  arrayFree : Nat
  bankHeldAt : Nat
  issuedAt : Nat
  bundle : List Instr
  held : Option HoldKind
  closed : Bool
  slipped : Bool
  counted : Nat
  slips : Nat
  cntIssue : Nat
  cntHtag : Nat
  cntHlat : Nat
  cntHbank : Nat
  cntHque : Nat
  cntPred : Nat
deriving DecidableEq, Repr

/-- Where a remote write goes (R115, R121). -/
inductive WTarget where
  | slot (tile : Nat) (s : Nat)
  | gran (stack : Nat) (g : Nat)
deriving DecidableEq, Repr

/-- Who waits for the outcome of a write: nobody, a sluice run's data, its completion record, a stem row, an ROI job,
the descriptors of a PREP batch, the planes of a sample, the places of an injected batch, an import, or a ring frame's sender. -/
inductive WOwner where
  | none
  | sluice (e : Nat) (index pass : Nat)
  | crec (e : Nat)
  | rstat (die : Nat)
  | stem (port row : Nat)
  | roi (die : Nat)
  | prep (bucket batch : Nat)
  | sample (idx : BitVec 48)
  | image (key batch : Nat)
  | import
  | ring (src seq : Nat)
deriving DecidableEq, Repr

/-- A remote write in flight (R115): writer ID (R119), target, data (`none` for a predicated-off PUT or GST, R44),
OVER or FILL at a slot, the generation it carries (R120), the cycle it is due, and whether it left its router (R36). -/
structure Flight where
  writer : BitVec 16
  target : WTarget
  data : Option Slot
  ovr : Bool
  gen : Option Nat
  issue : Nat
  due : Nat
  blocked : Bool
  owner : WOwner
deriving DecidableEq, Repr

/-- An entry of a tile's inbound buffer (R34): scheduled or asynchronous part, slot, data, FILL or OVER, and for a GLD
reply the tag mode of its GLD; whether its read met an uncorrectable error, and whether it is a completion record with UE. -/
structure InEntry where
  tile : TileIdx
  sched : Bool
  slot : BitVec 13
  data : Option Slot
  ovr : Bool
  gld : Option (BitVec 2)
  ue : Bool
  crec : Bool
deriving DecidableEq, Repr

/-- What a read request at a stack channel is for. -/
inductive ReadFor where
  | gld (tile : TileIdx) (slot : BitVec 13) (tm : BitVec 2) (pred : Bool) (visible : Nat)
  | sluice (e index pass k : Nat)
  | roi (die : Nat)
  | prep (idx : BitVec 48)
  | ring (plane index pass k : Nat)
deriving DecidableEq, Repr

/-- A request waiting at or on its way to a stack channel (R103). -/
structure ChanReq where
  stack : Nat
  gran : Nat
  requester : Nat
  sched : Bool
  due : Nat
  read : Option ReadFor
  write : Option Flight
deriving DecidableEq, Repr

/-- What becomes of the slot that a MOV operation reads (R33, R60): every operand but the data is fixed in the issue cycle. -/
inductive MovRead where
  | ldv (x : BitVec 5) (fmt : BitVec 3) (h on : Bool)
  /-- CPY to a destination slot, or to none where R160 discards the write; `full`: the tag is set. -/
  | cpy (dst : Option (BitVec 13)) (full on : Bool)
  | put (tile : TileIdx) (slot : BitVec 13) (ovr on : Bool)
  | gst (stack : BitVec 3) (gran : BitVec 22) (on : Bool)
  | vout (idx : BitVec 48) (flags : BitVec 16)
deriving DecidableEq, Repr

/-- The change an issued operation makes when it lands (R144). -/
inductive Eff where
  /-- V[r] lanes selected by the 32-bit mask take the lanes of the value. -/
  | v (r : BitVec 5) (mask : BitVec 32) (val : Row)
  /-- ACC row takes the value. -/
  | acc (r : BitVec 6) (val : Row)
  /-- MM adds into four rows: activation slot, weight set and scales as they stood at issue (R52). -/
  | mm (row : BitVec 6) (fmt : BitVec 4) (z : Bool) (act : Slot) (w : List (Nat × Slot)) (wsc : BitVec 256) (xa : BitVec 32)
  | acp (val : BitVec 6)
  | wpart (ws : Bool) (part : BitVec 4) (val : Slot)
  | wfmt (ws : Bool) (fmt : BitVec 4)
  | wcnt (ws : Bool) (cnt : BitVec 4)
  | scaleLatch (val : BitVec 256)
  | xs (val : Slot)
  | a (n : BitVec 4) (idx : BitVec 13)
  | g (n : BitVec 3) (stack : BitVec 3) (gran : BitVec 22)
  | d (n : BitVec 3) (base : BitVec 13)
  | smp (idx : Option (BitVec 48)) (flags : BitVec 16)
  | setFlag (f : BitVec 4)
  | draw (st : BitVec 5) (d : BitVec 8)
  | drawsClear
  | spanLeft (n : Nat)
  /-- The slot's data takes the 64-byte value at the bytes selected by the mask. -/
  | slot (s : BitVec 13) (mask : BitVec 64) (val : Slot)
  | tag (s : BitVec 13) (full : Bool)
  | skew (s : BitVec 13) (delta : Int)
  | skewClear (s : BitVec 13)
  | pc (pc : BitVec 11)
  | lc (level : BitVec 2) (count : BitVec 16) (start : BitVec 11) (depth : Nat)
  | stepInc
  | halt
  /-- The slot is read when this lands: the MOV read of a bundle whose reads met in one bank (R33). -/
  | read (s : BitVec 13) (k : MovRead)
  /-- A request enters the network (R36). -/
  | flight (f : Flight)
  | chan (q : ChanReq)
  | vout (idx : BitVec 48) (flags : BitVec 16) (payload : Slot)
  /-- An ECC error met by a scratchpad read (R136). -/
  | ecc (s : BitVec 13) (ue : Bool) (smp : BitVec 48)
  /-- The slot holds a completion record with UE (R126). -/
  | crec (s : BitVec 13)
  | arrayBusy (til : Nat)
  | bankHold
  /-- A unit enters a tally stream: the slot's bytes as they stand when this lands, or the given value (R455). -/
  | tally (st : BitVec 3) (s : Option (BitVec 13)) (val : Slot) (smp : BitVec 48) (j : Nat) (on late : Bool)
  | tallyCnt (st : BitVec 3) (n : Nat)
deriving DecidableEq, Repr

/-- A pending change: the tile, the issue cycle, the slot priority of R42 and the cycle from which it is visible. -/
structure Fx where
  tile : TileIdx
  issue : Nat
  prio : Nat
  land : Nat
  eff : Eff
deriving DecidableEq, Repr

/-- A GLD reply on its way (R152). -/
structure GldReply where
  tile : TileIdx
  slot : BitVec 13
  tm : BitVec 2
  data : Option Slot
  due : Nat
  ue : Bool
deriving DecidableEq, Repr

/-- A window descriptor and its state (R116, R118); a window whose lease is revoked stays so until its weave stops (R135). -/
structure Window where
  used : Bool
  kind : Bool
  openAtStart : Bool
  weaveTiles : Bool
  stack : Nat
  base : Nat
  limit : Nat
  writers : List (BitVec 16)
  isOpen : Bool
  gen : Nat
  revoked : Bool
deriving DecidableEq, Repr

/-- A stack window's state change on its way to the stack (R148). -/
structure WinUpd where
  tile : TileIdx
  w : BitVec 3
  opens : Bool
  issue : Nat
  due : Nat
deriving DecidableEq, Repr

/-- The state of a latch (R129). -/
inductive LatchSt where | free | held | revoked
deriving DecidableEq, Repr

/-- A latch (R129). -/
structure Latch where
  count : BitVec 32
  owner : BitVec 16
  st : LatchSt
deriving DecidableEq, Repr

/-- Who waits on a latch (R130): its requester ID order is that of R119. -/
inductive Waiter where
  | tile (t : TileIdx)
  | engine (e : Nat)
  | roi (die : Nat)
  | prep (bucket : Nat)
  | ring (plane : Nat)
deriving DecidableEq, Repr

/-- A pending wait; `granted` holds the grant cycle once the unit has served it. -/
structure Wait where
  latch : Nat
  who : Waiter
  amount : Nat
  first : Nat
  arrive : Nat
  granted : Option Nat
deriving DecidableEq, Repr

/-- A signal on its way to a latch. -/
structure Signal where
  latch : Nat
  amount : Nat
  src : BitVec 16
  issue : Nat
  due : Nat
deriving DecidableEq, Repr

/-- A sluice descriptor, with the fields of R124; `sstack` and `sgran` are the stack source that DADDR holds for operation 4. -/
structure SluDesc where
  op : Nat
  ovr : Bool
  last : Bool
  gate : Bool
  csig : Bool
  crec : Bool
  len : Nat
  daddr : Int
  sstack : Nat
  sgran : Int
  dstride : Int
  ftile : Nat
  fslot : Int
  fstride : Int
  wtile : Nat
  win : Nat
  gen : Nat
  glatch : Nat
  gcnt : Nat
  clatch : Nat
  ccnt : Nat
  ctile : Nat
  cslot : Nat
deriving DecidableEq, Repr

/-- A descriptor in flight (R125): its index, pass, sampled generations, granules outstanding and status so far. -/
structure SluRun where
  desc : SluDesc
  index : Nat
  pass : Nat
  gen : Nat
  cgen : Nat
  left : Nat
  drops : Nat
  ue : Bool
  ce : Bool
  windrop : Bool
  ddrRange : Bool
  range : Bool
deriving DecidableEq, Repr

/-- MEM_SLU_CTL.MODE. -/
inductive SluMode where | free | plan | queue
deriving DecidableEq, Repr

/-- MEM_SLU_STAT.STATE. -/
inductive SluState where | idle | gate | move | done | fault | revoked
deriving DecidableEq, Repr

/-- A sluice engine (R123, R127); `start` is the common start at which its plan begins;
`queue` the SLUICE queue that holds its lease when `feeds` says that one does (R132). -/
structure Engine where
  mode : SluMode
  start : Nat
  st : SluState
  plan : List SluDesc
  passes : Nat
  pass : Nat
  next : Nat
  inflight : List SluRun
  aborted : Bool
  feeds : Bool
  queue : Nat
  queued : List (Nat × SluDesc)
deriving DecidableEq, Repr

/-- What an ECC-protected word holds (R136): a correctable or an uncorrectable error; no entry means none. -/
inductive Ecc where | ok | ce | ue
deriving DecidableEq, Repr
/-! ### Stem engines and ROI samplers (chapter 6) -/

/-- A line's state at the frame assembler (R209). -/
inductive LineState where | ok | bad | fill
deriving DecidableEq, Repr

/-- A line record (R209). -/
structure LineRec where
  l : Nat
  pos : BitVec 32
  posv : Bool
  tb1 : Nat
  fn : BitVec 8
  gen : BitVec 8
  st : LineState
  gap : Bool
deriving DecidableEq, Repr

/-- A line with its corrected 16-bit pixels. -/
structure VLine where
  r : LineRec
  pix : List Nat
deriving DecidableEq, Repr

/-- The stem configuration of one port (R179). -/
structure StemCfg where
  en : Bool
  b : Nat
  kh : Nat
  kw : Nat
  co : Nat
  zpin : Nat
  padp : Nat
  w : List Int
  bias : List Int
  mul : List Int
  sh : List Nat
  zp : List Int
  uint8 : Bool
  relu : Bool
  stack : Nat
  base : Nat
  ringRows : Nat
deriving DecidableEq, Repr

/-- The stem engine's state for one port: lines in the line store, the next output row, whether the acquisition ended, rows
whose granules are being checked (row, granules left, some dropped, weight UE) and the rows PREP has released. -/
structure StemPort where
  cfg : StemCfg
  width : Nat
  store : List VLine
  taken : Nat
  nextRow : Nat
  ended : Bool
  checking : List (Nat × Nat × Bool × Bool)
  released : Nat
  wecc : Ecc
deriving DecidableEq, Repr

/-- A finished stem row reported to sample preparation (R182, R185). -/
structure RowRep where
  die : Nat
  port : Nat
  row : Nat
  dropped : Bool
  ue : Bool
  t : Nat
deriving DecidableEq, Repr

/-- An ROI job descriptor (R186); sizes are the values, not the field codes. -/
structure RoiJob where
  gate : Bool
  csig : Bool
  last : Bool
  sr : Nat
  fmt : Nat
  oh : Nat
  ow : Nat
  maxb : Nat
  bstack : Nat
  bgran : Int
  fstack : Nat
  fgran : Int
  fw : Nat
  fh : Nat
  nk : Nat
  padv : Nat
  otile : Nat
  oslot : Nat
  orl : Nat
  glatch : Nat
  gcnt : Nat
  clatch : Nat
  ccnt : Nat
  ctile : Nat
  cslot : Nat
  bstride : Int
  fstride : Int
deriving DecidableEq, Repr

/-- ROI_STAT.STATE. -/
inductive RoiState where | idle | gate | read | write | fault
deriving DecidableEq, Repr

/-- An ROI sampler (R186-R189): `start` is the common start at which its plan begins, `left` counts the reads of the job that have not
returned, and then its writes that have not been checked; `got` holds the granules read so far by stack × 2^22 + granule, and `listed`
says that the box list is among them. -/
structure Roi where
  planMode : Bool
  start : Nat
  jobs : List RoiJob
  st : RoiState
  job : Nat
  pass : Nat
  opos : Nat
  aborted : Bool
  smp : BitVec 48
  mask : Nat
  left : Nat
  got : List (Nat × Slot)
  listed : Bool
  drops : Nat
  ue : Bool
  ce : Bool
  clamp : Bool
  boxes : Nat
deriving DecidableEq, Repr

/-! ### Camera ports (chapter 7) -/

/-- An open frame: its Frame Start's fields and the lines that have left the assembler for it. -/
structure Frame where
  fn : BitVec 8
  gen : BitVec 8
  tfs : Nat
  l0 : Nat
  lines : List VLine
  long : Bool
  ovf : Bool
  fnSkip : Bool
  ffcBypassed : Bool
deriving DecidableEq, Repr

/-- A packet the intake sends down to a camera (R203). -/
inductive DownPkt where
  | ver (major minorMax minorMin : BitVec 8)
  | expctl (gen tgt : BitVec 8) (time : W32) (gain : BitVec 16) (aux : W32)
  | ltrig (tag : BitVec 16) (target : W32)
deriving DecidableEq, Repr

/-- The intake state of one port beside its registers (R202-R213, R228). `gapNext` marks the next accepted line, `ueGap` the next
line of any kind (R212, R213), `ecc` is the error state of the intake buffer that holds the line being received (R231), `tLast` is the time of the last line; `hist` holds the records of the lines in the history, newest first (R224). -/
structure Port where
  frame : Option Frame
  lidx : Nat
  tLast : Nat
  gapNext : Bool
  ueGap : Bool
  ls : Option (BitVec 16 × BitVec 32)
  lastTag : Option (BitVec 16)
  lastFn : Option (BitVec 8)
  sgen : BitVec 8
  target : BitVec 32
  tagCnt : BitVec 16
  tags : List (BitVec 16 × BitVec 32)
  vbuf : List VLine
  ecc : Ecc
  drop : Bool
  disp : List VLine
  hist : List LineRec
  sent : List (Nat × DownPkt)
deriving DecidableEq, Repr

/-- An image the JPEG-LS coder is to code (R225, R226). -/
inductive CodeJob where
  | crop (tag : BitVec 16) (port : Nat) (l0 : BitVec 32) (nl x0 nw : Nat)
  | overview (port : Nat) (l0 : Nat) (pos0 : BitVec 32) (bad : Bool) (rows : List (List Nat))
deriving DecidableEq, Repr

/-- A coded image waiting for its archive-output record (R227). -/
structure CodeOut where
  status : Nat
  kind : Nat
  port : Nat
  tag : BitVec 16
  l0 : BitVec 32
  pos0 : BitVec 32
  nl : Nat
  nw : Nat
  stream : List Byte
deriving DecidableEq, Repr

/-- The JPEG-LS coder of one intake block: crop requests that wait for their lines, images in the order in which they became
ready, and the image being coded. -/
structure Coder where
  crops : List CodeJob
  ready : List CodeJob
  busy : Option CodeOut
deriving DecidableEq, Repr
/-! ### Sample preparation (chapter 8) -/

/-- A sample group of the recipe (R232). -/
structure GroupCfg where
  ports : BitVec 16
  pmark : Bool
  x0 : List Nat
  xw : List Nat
  maxlen : Nat
  bkts : BitVec 8
  refsel : Nat
  refidx : Nat
  ens : Nat
  sm : Nat
  flipx : Bool
  flipy : Bool
  rfa : BitVec 8
  tSdl : Nat
  result : Nat
deriving DecidableEq, Repr

/-- A size bucket of the recipe (R233). -/
structure BucketCfg where
  whole : Bool
  h : Nat
  w : Nat
  nq : Nat
  stack : Nat
  base : Nat
  dtile : Nat
  dslot : Nat
  drl : Nat
  rel : Nat
  rdy : Nat
  tClose : Nat
  padv : Nat
  low : Nat
deriving DecidableEq, Repr

/-- An entry of the reference table: DDR4 address, byte length, pixel height and width (R240). -/
structure RefEntry where
  addr : Nat
  len : Nat
  hr : Nat
  wr : Nat
deriving DecidableEq, Repr

/-- Reasons of a verdict record (R391, R392). -/
inductive Reason where
  | none | model | slip | memory | late | corrupt | swap | flush | payload
deriving DecidableEq, Repr

/-- A marker record (R210), with the time of the last line of its port before it, and whether OVERSPEED has been raised on TB3 and on TB4 since
(R300, R301). -/
structure Marker where
  port : Nat
  pmark : Bool
  trail : Bool
  tag : BitVec 16
  pos : BitVec 32
  l : Nat
  t : Nat
  ovs3 : Bool
  ovs4 : Bool
deriving DecidableEq, Repr

/-- The stripe of one port of a part (R235); `t` is when its last line arrived, once it has closed. -/
structure Stripe where
  port : Nat
  lead : Nat
  trail : Option Nat
  t : Nat
deriving DecidableEq, Repr

/-- Where a part's reference stands. -/
inductive RefState where | none | wait | decoding | done | failed
deriving DecidableEq, Repr

/-- How far the copy of a sample, or of an injected batch, has come: not begun, its stem granules being read (reads that have not returned,
granules read by stack × 2^22 + granule), its place being written (writes not yet checked), or a write dropped by the window check (R245). -/
inductive CopyState where
  | none
  | reading (left : Nat) (got : List (Nat × Slot))
  | writing (left : Nat)
  | dropped
deriving DecidableEq, Repr

/-- A part (R235-R246): its index and whether it was accepted (R388), group, trigger position, camera tag, stripes and the port whose
stripe closed last, the time of its last line once every stripe has closed, bucket, batch and first place, why it is a void, F3,
whether OVERSPEED was raised since its trigger (R301), its reference, whether it is ready, whether its record is written, and the
weave it belongs to. -/
structure Part where
  idx : BitVec 48
  accepted : Bool
  group : Nat
  pt : BitVec 32
  tag : BitVec 16
  stripes : List Stripe
  last : Option Nat
  tl : Option Nat
  bucket : Option Nat
  batch : Nat
  place : Nat
  void : Option Reason
  f3 : Bool
  ovs : Bool
  ref : RefState
  refPix : List Nat
  copy : CopyState
  ready : Bool
  done : Bool
  weave : Nat
deriving DecidableEq, Repr

/-- A batch of a bucket (R244): its batch place once claimed, the samples assigned, whether it is closed, and for a batch that INJECT
brings in the host-region offset of its image (R461). -/
structure Batch where
  id : Nat
  q : Option Nat
  samples : List (BitVec 48)
  closed : Bool
  tOpen : Nat
  image : Option Nat
  copy : CopyState
deriving DecidableEq, Repr

/-- A sample that INJECT brought in (R461): its index, its weave and its group. -/
structure Injected where
  idx : BitVec 48
  weave : Nat
  group : Nat
deriving DecidableEq, Repr

/-- A bucket's run-time state: batches not yet handed over, batch places claimed so far, the number of the next batch, batches handed
over, descriptors written, and whether LEVEL has been at LOW or above since the last alarm (R247). -/
structure BucketSt where
  batches : List Batch
  nextQ : Nat
  nextId : Nat
  handed : Nat
  dpos : Nat
  above : Bool
deriving DecidableEq, Repr

/-- Lines that break R214 at one port: those with STATE BAD or FILL or GAP = 1. -/
structure BadLine where
  port : Nat
  l : Nat
deriving DecidableEq, Repr

/-! ### Adaptation (chapter 9) -/

/-- A position of the label store (R255); `none` is an empty or deleted position. -/
structure LabelPos where
  idx : BitVec 48
  cls : BitVec 8
  weight : BitVec 16
deriving DecidableEq, Repr

/-- An adapted version: number, parent, labels used, digest, the granules of its inference copies, and the bytes of its master copies
and its optimiser state (R265). -/
structure VersionSlot where
  num : Nat
  parent : Nat
  nlab : Nat
  wdigest : BitVec 64
  data : List (Nat × Slot)
  masters : List Byte
deriving DecidableEq, Repr

/-- A committed version as it lies in flash: sealed, with its IV and tag (R270). -/
structure SealedHead where
  iv : List Byte
  ct : List Byte
  tag : List Byte
deriving DecidableEq, Repr

/-- How far a RUN or SELECT has come (R259): before P_STOP, waiting for the last record, the section being loaded, the programs
running, the inference weave being loaded again, waiting for P_RESUME. -/
inductive AdaptPhase where | waitStop | draining | loading | running | reloading | waitResume
deriving DecidableEq, Repr

/-- A RUN or SELECT in progress (R257-R263, R266): its command, its phase, what it has met and what its result will say; `serial` is
the serial number of the weave that it stopped, `slot` the version slot that the run writes. -/
structure AdaptRun where
  isRun : Bool
  tag : BitVec 16
  keep : Bool
  nosel : Bool
  version : Nat
  parent : Nat
  pStop : BitVec 32
  pResume : BitVec 32
  lr : BitVec 32
  phase : AdaptPhase
  late : Bool
  status : Nat
  nlab : Nat
  tStart : Nat
  cyc4 : Nat
  cycles : Nat
  ring : Nat
  serial : Nat
  slot : Nat
  ldigest : BitVec 64
  wdigest : BitVec 64
deriving DecidableEq, Repr

/-- The state of adaptation (R253-R274): the context it belongs to (its number + 1, 0 without a context) and the digest of its weave, that weave's section, label positions used since the
store was last cleared, the four version slots, the active
version, the run in progress, the tags of CLEAR commands that wait for its end, and the blob and package that the last EXPORT produced. -/
structure Adapt where
  owner : Nat
  weave : BitVec 256
  sec : Option AdaptSec
  labels : List (Option LabelPos)
  slots : List (Option VersionSlot)
  active : Nat
  run : Option AdaptRun
  waitingClear : List (BitVec 16)
  exported : List Byte
deriving DecidableEq, Repr
/-! ### Position, spouts and time bases (chapter 10) -/

/-- An encoder with its position base and observer (R275-R284); values in the observer are in units of 2^-40 ct. `gHeld` holds the
gains that take effect at the next update; `tUpd` and `pUpd` are the time and position of the last update, `lastCap` the last index
capture. -/
structure Enc where
  a : Bool
  b : Bool
  r : Int
  p : Int
  d : Int
  u : Int
  w : Int
  g1 : Nat
  g2 : Nat
  g3 : Nat
  gHeld : Option (Nat × Nat × Nat)
  tUpd : Nat
  pUpd : Int
  lastCap : Option Int
deriving DecidableEq, Repr

/-- A trailing marker that is still to come (R285): its position, its base and the ports of its leading marker. -/
structure PTrail where
  pos : BitVec 32
  tb4 : Bool
  ports : BitVec 12
deriving DecidableEq, Repr

/-- A part-trigger generator (R285): the next fixed-pitch target, the trailing markers not yet reached, and the ports of a field-input
leading marker whose inactive edge has not come. -/
structure PTrig where
  next : BitVec 32
  trail : List PTrail
  lead : Option (BitVec 12)
deriving DecidableEq, Repr

/-- A spout entry (R287) with the progress of its strobe pulse and its isolated pulse. -/
structure Spout where
  tb4 : Bool
  ct : Bool
  tag : BitVec 16
  target : BitVec 32
  mask : BitVec 24
  width : Nat
  smp : BitVec 48
  armseq : BitVec 16
  src : BitVec 8
  doneq : Nat
  stbOn : Bool
  stbDone : Bool
  outOn : Bool
  outDone : Bool
  tStb : Nat
  tOut : Nat
  posFire : BitVec 32
  tFire : Nat
  maxon : Bool
deriving DecidableEq, Repr

/-- A spout rule of the recipe (R296). -/
structure SpoutRule where
  cond : Nat
  wunit : Bool
  doneq : Nat
  offset : Int
  mask : BitVec 24
  width : Nat
deriving DecidableEq, Repr

/-- A verdict record that became VALID and is still to be matched against the spout rules of its recipe, on its position base (R296). -/
structure RuleReq where
  decision : Nat
  pt : BitVec 32
  smp : BitVec 48
  tb4 : Bool
  rules : List (Nat × SpoutRule)
deriving DecidableEq, Repr

/-- A transmit time stamp in the PTP queue (R307). -/
structure PtpStamp where
  mtype : BitVec 4
  seq : BitVec 16
  tb0 : BitVec 64
  tb1 : BitVec 64
deriving DecidableEq, Repr

/-- A foreign master: its last Announce, when it came, and when the one before it did (R304). -/
structure Foreign where
  msg : AnnounceMsg
  last : Nat
  prev : Option Nat
deriving DecidableEq, Repr

/-- PTP state beside the registers (R304-R308): the selected master's data set, the foreign masters, the exchange in progress with the TB0 and
TB1 of its reception, and the queue. -/
structure Ptp where
  master : Option AnnounceMsg
  foreign : List Foreign
  mgmtUp : Bool
  syncSeq : BitVec 16
  t1 : Option (BitVec 64)
  t2 : BitVec 64
  t2b : BitVec 64
  queue : List PtpStamp
deriving DecidableEq, Repr

/-- The position block (chapter 10). TB0 is held in units of 2^-40 ns; TB2 as an offset from TB1 and the offset that the slew since the
last TB2SYNC removes, both in units of 1/16 ns. -/
structure Pos where
  enc0 : Enc
  enc1 : Enc
  trig : List (Nat × PTrig)
  spouts : List (Nat × Spout)
  rules : List RuleReq
  armseq : BitVec 16
  tb0 : Int
  tb2 : Int
  tb2Slew : Int
  tb2Set : Bool
  ptp : Ptp
deriving DecidableEq, Repr

/-! ### The field section (chapter 11) -/

/-- An input edge the field side has detected (R329): the input, the new level and t_e, none for an edge from before the present TB1. -/
structure FldEdge where
  i : Fin 16
  level : Bool
  te : Option Nat
deriving DecidableEq, Repr

/-- The field-side controller (R311-R331). It is powered from L+ and keeps its state through a module reset. `chg` holds when each output last
changed and `rb` its readback level (R319); `goodRun` and `badRun` count slots in a row, `heardAt` is when a frame last arrived (R323), and
`validAt` when a valid one did (R331); none stands for a time before the present TB1. -/
structure FieldSide where
  running : Bool
  lplus : Bool
  safe : Bool
  everApplied : Bool
  applied : BitVec 16
  todo : List (Nat × BitVec 16)
  outputs : BitVec 16
  chg : List (Nat × Nat)
  rb : BitVec 16
  hold : BitVec 16
  safeCfg : BitVec 32
  deb : List (Nat × BitVec 16)
  timeout : BitVec 16
  wben : BitVec 16
  oc : BitVec 16
  wb : BitVec 16
  inputs : BitVec 16
  edges : List FldEdge
  overtemp : Bool
  cfgCount : BitVec 4
  lastAddr : BitVec 8
  lastData : BitVec 16
  downLock : Bool
  goodRun : Nat
  badRun : Nat
  heardAt : Option Nat
  validAt : Option Nat
  upK : Nat
deriving DecidableEq, Repr

/-- The module side of the crossing: commanded state changes not yet framed, configuration writes pending, the last one queued,
the frame being echoed, and the frames on the two channels; good and bad slots in a row of the up receiver and when it last received a frame
(R323); and since when the readback level of an output has differed from its expected state (R319). -/
structure Fld where
  changes : List (Nat × BitVec 16)
  commanded : BitVec 16
  framed : BitVec 16
  cfgq : List (BitVec 8 × BitVec 16)
  awaiting : Option (BitVec 8 × BitVec 16)
  slot : Nat
  down : List (Nat × BitVec 64)
  up : List (Nat × BitVec 64)
  upGood : Nat
  upBad : Nat
  upHeardAt : Nat
  rbSince : List (Nat × Nat)
  side : FieldSide
deriving DecidableEq, Repr

/-! ### Lanes and the Rill ring (chapter 12) -/

/-- A lane: whether it has block lock, the preset it starts with (none after a CABLE fault), whether what is in its cage stays in low-power
mode (R509), what its partner's training blocks of this
bring-up said (R345), consecutive frames with RX_READY on both sides, the tap request taken and not yet applied with the status that is
answered, this receiver's own request, the partner's status for it and whether this receiver is satisfied (R346), and the training block that the lane sends now. -/
structure Lane where
  lock : Bool
  preset : Option Nat
  lowPower : Bool
  seen : Bool
  laneNo : BitVec 2
  inv : Bool
  heard : BitVec 2
  heardValid : Bool
  heardInv : Bool
  peerReady : Bool
  readyCnt : Nat
  reqSeen : Bool
  reqPre : BitVec 2
  reqPost : BitVec 2
  reqPreset : Option (BitVec 3)
  stPre : BitVec 2
  stPost : BitVec 2
  askPre : BitVec 2
  askPost : BitVec 2
  peerPre : BitVec 2
  peerPost : BitVec 2
  rxReady : Bool
  tx : Option W64
deriving DecidableEq, Repr

/-- How far the bring-up of a port is (R347, R350, R352). -/
inductive LinkStage where | off | locking | mapping | quality | adapt | ready | deskew | up | failed | relock
deriving DecidableEq, Repr

/-- A Rill frame to send out of a port: its type and content. -/
structure TxFrame where
  type : BitVec 8
  fr : RFrame
deriving DecidableEq, Repr

/-- The bring-up of a port over its lanes (R347, R352): its stage, whether its time to lock is over, whether the quality check was
repeated, the preset trial, and for a ring port whether a VER was received, the hop measurements, when it became ACTIVE, whether it is
wrapped, the paused classes, the frames that wait for a pause to end, and the frames sent. -/
structure Link where
  stage : LinkStage
  timedOut : Bool
  retried : Bool
  trial : Nat
  verSeen : Bool
  minH : Nat
  maxH : Nat
  hops : Nat
  activeAt : Nat
  wrapped : Bool
  paused : List Nat
  held : List TxFrame
  out : List TxFrame
deriving DecidableEq, Repr

/-- A ring send engine's descriptor (R356): the sluice fields with the operation 0x8 or 0x9 and the destination module. -/
structure RingDesc where
  d : SluDesc
  dmod : Nat
deriving DecidableEq, Repr

/-- A ring descriptor in flight: its destination, the granules read so far by their place in the transfer (`run.left` counts the reads
that have not returned), whether its WRITE frames have set out, and their sequence numbers, from `first` to before `last`. -/
structure RingRun where
  run : SluRun
  dmod : Nat
  got : List (Nat × Slot)
  sent : Bool
  first : Nat
  last : Nat
deriving DecidableEq, Repr

/-- A ring send engine (R356); `start` is the common start at which its plan begins. -/
structure RingEng where
  start : Nat
  plan : List RingDesc
  passes : Nat
  pass : Nat
  next : Nat
  st : SluState
  inflight : List RingRun
deriving DecidableEq, Repr

/-- Granules of a ring write that the window check dropped, to be reported in a DROP frame (R357). -/
structure RingDrop where
  src : Nat
  seq : Nat
  reason : Nat
  n : Nat
  target : WTarget
deriving DecidableEq, Repr

/-- The ring (R353-R368): members with the time of their last HELLO, their candidacy and their distance westward in hops, the last
accepted token with its holder and time, wraps reported by members (4 × module + port), send sequence numbers, sequence numbers
accepted, the send engines, TB2: whether this module is master, the time of the last TB2SYNC and the hops that they showed on each
port; and granules of writes dropped here. -/
structure Ring where
  members : List (Nat × Nat)
  cands : List (Nat × Bool)
  dist : List (Nat × Nat)
  gen : BitVec 16
  holder : Nat
  held : Bool
  tokenT : Nat
  tokenValid : Bool
  tokenAny : Bool
  seqs : List (Nat × Nat)
  seen : List (Nat × Nat)
  wraps : List Nat
  eng0 : RingEng
  eng1 : RingEng
  isTb2Master : Bool
  tb2T : Nat
  syncHops : List (Nat × Nat)
  drops : List RingDrop
deriving DecidableEq, Repr
/-! ### Host interface (chapter 13) -/

/-- A queue's indices, record sequence, signalling state and, for a D2H queue, its record area by slot (R381-R384, R394). -/
structure Queue where
  pi : W32
  ci : W32
  seq : W32
  unsig : Nat
  oldest : Nat
  lostBefore : Bool
  ents : List (Nat × List Byte)
deriving DecidableEq, Repr

/-- An admitted recipe (R387): its contract numbers, port rates, groups, buckets, rules and references. -/
structure Recipe where
  seed : BitVec 64
  tb4 : Bool
  d : Nat
  cClose : Nat
  vMax : Nat
  pMin : Nat
  tPrep : Nat
  rates : List Nat
  groups : List (Nat × GroupCfg)
  buckets : List (Nat × BucketCfg)
  rules : List (Nat × SpoutRule)
  refs : List RefEntry
  params : List Byte
  digest : BitVec 256
  secNos : List (Nat × Nat)
deriving DecidableEq, Repr

/-- A VOUT payload on its way to the host interface (R390). -/
structure Vout where
  idx : BitVec 48
  flags : BitVec 16
  payload : Slot
  remote : Bool
deriving DecidableEq, Repr

/-- The open or last lot (R388): LOT, index base, parts accepted, records written for them, and the LOT_END that waits
(P_END, TAG and H2D index). -/
structure Lot where
  isOpen : Bool
  num : BitVec 16
  base : BitVec 48
  accepted : Nat
  records : Nat
  ending : Option (BitVec 32 × BitVec 16 × W32)
deriving DecidableEq, Repr

/-- What the host sets in the endpoint's configuration space, and what Advanced Error Reporting holds there (R373): the largest payload and
read request in bytes, and the uncorrectable and correctable error status. -/
structure PcieCfg where
  maxPayload : Nat
  maxRead : Nat
  aerUncor : W32
  aerCor : W32
deriving DecidableEq, Repr

/-- The host interface beside its registers. `turns` is the queue last served of each host-to-device type (R382); `ecc` the error state of the
buffer that holds a queue's next entry (R398); `irqs` lists the MSI-X messages sent, newest first; `rd` is the data of the last
read answered to the host; `shadow` the upper half that a read of a lower register kept, for the register
`shadowAt` (R15); `d3` says that the endpoint is in D3hot. -/
structure Hif where
  queues : List (Nat × Queue)
  turns : List (Nat × Nat)
  ecc : List (Nat × Ecc)
  msix : List (Nat × W32)
  pba : List (Nat × Bool)
  irqs : List Nat
  rd : List Byte
  shadow : W32
  shadowAt : Option Nat
  d3 : Bool
  cfg : PcieCfg
  lot : Lot
  vouts : List Vout
deriving DecidableEq, Repr

/-! ### Root of trust (chapter 14) -/

/-- A context (R415): owner record, confidentiality, regions and keys (R405); the place of its package in the host region as offset and
length, and the digest of the package that was imported last (R407, R410). -/
structure Ctx where
  owner : List Byte
  conf : Bool
  psize : Nat
  tsize : Nat
  pbase : Nat
  tbase : Nat
  kp : BitVec 512
  kt : Option (BitVec 512)
  kw : Option (BitVec 256)
  kos : Option (BitVec 256)
  pkg : Option (Nat × Nat)
  pkgSha : List Byte
deriving DecidableEq, Repr

/-- An ephemeral key pair (R408), with the digest of its quote. -/
structure Ephem where
  ctx : Nat
  kind : Nat
  nonce : List Byte
  priv : BitVec 256
  quote : BitVec 256
  t : Nat
deriving DecidableEq, Repr

/-- A ring session (R412-R414): context number or 0xFFFF, session number and key. -/
structure Session where
  ctx : Nat
  num : W32
  key : BitVec 256
deriving DecidableEq, Repr

/-- A context switch in progress (R417): target, outgoing context, phase, start time, ring frames discarded, whether an
uncorrectable error was met, whether the mailbox command came from the host. -/
structure Switch where
  target : Nat
  outgoing : Nat
  phase : Nat
  t0 : Nat
  tScrub : Nat
  frames : Nat
  ue : Bool
deriving DecidableEq, Repr

/-- The root of trust beside its registers and the flash. `romOnly`: both firmware copies failed; `ctrl`: which controllers were started,
intake, PREP, position and field crossing in this order (R403). -/
structure Sec where
  sdev : Option (BitVec 256)
  svn : W32
  meas : List (BitVec 256)
  ctxs : List (Nat × Ctx)
  resident : Option Nat
  conf : Bool
  hostBase : Nat
  hostSize : Nat
  kHost : BitVec 512
  kFw : BitVec 512
  ephems : List Ephem
  sessions : List Session
  switching : Option Switch
  importing : Option Nat
  dexOut : List Byte
  dexStatus : Nat
  dexUp : Bool
  romOnly : Bool
  steward : Bool
  ctrl : List Bool
deriving DecidableEq, Repr

/-- A copy of the firmware in flash (R403): whether it is marked valid, its image, and what verifying it against the root key
and measuring it gives. -/
structure FwCopy where
  valid : Bool
  svn : W32
  rotOk : Bool
  rot : BitVec 256
  stwOk : Bool
  stw : BitVec 256
  ctrl : List (Bool × BitVec 256)
deriving DecidableEq, Repr

/-! ### Weaves (chapter 16) -/

/-- The header of a weave image (R475). -/
structure WeaveHdr where
  nstk : Nat
  iodies : Nat
  ports : Nat
  ringp : Nat
  rw : Nat
  nb : Nat
  w : Nat
  ib : Nat
  tagg : Nat
  ctx : Bool
  ringplan : Bool
  adapt : Bool
  sstk : Nat
  latch0 : Nat
  nlatch : Nat
  engines : Nat
  roi : Nat
  tiles : BitVec 576
  routers : BitVec 576
  stemdig : BitVec 256
deriving DecidableEq, Repr

/-- An image in a bank, with its digest and the committed adapted version (R480). `key` holds the IV and the tag under which `img` is sealed;
none where it stands in clear. -/
structure BankImg where
  img : List Byte
  key : Option (List Byte × List Byte)
  digest : BitVec 256
  head : Option SealedHead
deriving DecidableEq, Repr

/-- One copy of a bank table (R480). -/
structure BankCopy where
  seq : Nat
  ok : Bool
  active : Option BankImg
  previous : Option BankImg
  staged : Option BankImg
deriving DecidableEq, Repr

/-- A bank set: the two copies of its table (R480). -/
structure BankSet where
  a : BankCopy
  b : BankCopy
deriving DecidableEq, Repr

/-- A running weave: its serial number, image digest, header, the recipe in force, its common start, for the later of two running
weaves the position from which parts belong to it (R487), and whether it has started: a weave whose context's weights are still to be
imported is loaded only (R483). -/
structure RunWeave where
  serial : Nat
  digest : BitVec 256
  img : List Byte
  hdr : WeaveHdr
  recipe : Option Recipe
  start : Nat
  since : Option (BitVec 32)
  started : Bool
deriving DecidableEq, Repr

/-- Where a weave command stands (R487, R489). -/
inductive WvPhase where | waitSwitch | loading | loaded | overlap | waitStop | draining | reloading
deriving DecidableEq, Repr

/-- The weave command in progress: its operation, the weave it brings in, the recipe it names, its positions, the offset of
its result, whether it drains, and the time its load started. -/
structure WvCmd where
  op : Nat
  phase : WvPhase
  new : Option BankImg
  recipe : Option Recipe
  p1 : BitVec 32
  p2 : BitVec 32
  res : Nat
  drain : Bool
  late : Bool
  t0 : Nat
deriving DecidableEq, Repr

/-- Module flash: bank sets by owner hash (0 for the set of no context), firmware copies, the lowest SVN accepted, the
management CA and its lock, and an open switch record, target and outgoing context (R421, R425, R480). It keeps its content through every reset. -/
structure Flash where
  sets : List (Nat × BankSet)
  fwA : FwCopy
  fwB : FwCopy
  svnMin : W32
  ca : Option (List Byte)
  caLock : Bool
  journal : Option (Nat × Nat)
deriving DecidableEq, Repr

/-- Weave control: the running weaves, oldest first; the command in progress; the drain window, from P_STOP until the
resumption position once it is known; the serial number of the next weave. -/
structure Weaving where
  running : List RunWeave
  cmd : Option WvCmd
  drain : Option (BitVec 32 × Option (BitVec 32))
  serial : Nat
deriving DecidableEq, Repr

/-! ### Power and clocks (chapters 16, 17) -/

/-- Power, resets and clocks: 48 V present, module reset held, domains that stay off until MRST# or a power cycle, the cause to
record at the next release, good power domains, locked clock domains, REF, alignment, alignment attempts, DDR4 ready. -/
structure Pwr where
  vin : Bool
  inReset : Bool
  lockedOut : Bool
  cause : Nat
  good : BitVec 36
  locks : BitVec 25
  refOk : Bool
  aligned : Bool
  tries : Nat
  ddrReady : Bool
  bootOk : Bool
  excursion : Bool
  thermWarn : Bool
deriving DecidableEq, Repr

/-! ### Faults, responses, dumps, tallies (chapter 15) -/

/-- An event (R429). -/
structure Event where
  block : Nat
  bit : Nat
  sev : Nat
  akind : Nat
  source : Nat
  info : Nat
  tb1 : Nat
  addr : Nat
  sample : Option (BitVec 48)
  redacted : Bool
  boot : Bool
deriving DecidableEq, Repr

/-- A response that an event has called for: its entry, the event, its action and argument once it has started, and for a
FIELD_RESUME that waits the time it gives up. -/
structure Rsp where
  entry : Nat
  ev : Event
  action : Nat
  arg : Nat
  till : Nat
deriving DecidableEq, Repr

/-- A state dump that is held, or the trigger of one that is being written; `inRun`: an adaptation run held the fabric (R271). -/
structure Dump where
  flags : Nat
  inRun : Bool
  cause : Option Event
  t0 : Nat
  tb0 : Nat
  bytes : List Byte
deriving DecidableEq, Repr

/-- The FLT block beside its registers: logged events by place, the time each (block, bit, source) was last logged, responses
called for, started and waiting, the cy(HK) in which each entry was last called for, the dump held and the one being written, layer tallies
by sample and layer, the freeze and whether it begins with the next cycle, the samples whose VOUT has issued since their weave started, and
the batch capture in progress (bucket, batches left, next offset). -/
structure Flt where
  log : List (Nat × Event × Nat)
  merges : List ((Nat × Nat × Nat) × Nat)
  rsps : List Rsp
  called : List (Nat × Nat)
  started : List Rsp
  waits : List Rsp
  dump : Option Dump
  dumping : Option Dump
  tallies : List ((Nat × Nat) × BitVec 64)
  frozen : Bool
  stopHit : Bool
  vouted : List (BitVec 48)
  bcap : Option (Nat × Nat × Nat)
deriving DecidableEq, Repr

/-! ### The whole block -/

/-- Sample preparation (chapter 8): the recipe in force and the weave it serves, markers waiting, parts, buckets (key 8 × weave +
bucket), lines that void, the next index of the open lot and whether the index range ran out, the decoders' current jobs by I/O die,
the rows the stem has reported, and the injected samples that have no record yet. -/
structure Prep where
  recipe : Option Recipe
  serial : Nat
  markers : List Marker
  parts : List Part
  bst : List (Nat × BucketSt)
  badLines : List BadLine
  nextIdx : BitVec 48
  idxEnd : Bool
  decoding : List (Nat × BitVec 48)
  rows : List RowRep
  injected : List Injected
deriving DecidableEq, Repr

/-- The memories: scratchpads (byte address tile × 2^19 + slot × 64 + byte), stacks (stack × 2^28 + granule × 64 + byte), DDR4 by
byte address, slot tags and skews (tile × 8 192 + slot), program memories (tile × 2 048 + bundle), and the ECC state of each protected
word, by memory: 8 bytes of a scratchpad (byte address / 8), 16 bytes of a stack (byte address / 16), 8 bytes of DDR4 (byte address / 8)
and a bundle (R136); `crecUe` marks the slots that hold a completion record with UE (R126).
DDR4 stands here as its engines decrypt it. `fills` lists the ranges that were zero-filled under keys now destroyed, `rekeys` those that
have a new key since, each as address, length and key; in these `ddr` holds the exclusive or with what a granule reads as that
nothing has written since (R405, R415, R418). -/
structure Mem where
  spad : List Host.Cell
  stack : List Host.Cell
  ddr : List Host.Cell
  tags : List (Nat × Bool)
  skews : List (Nat × Int)
  pmem : List (Nat × BitVec 128)
  eccSpad : List (Nat × Ecc)
  eccStack : List (Nat × Ecc)
  eccDdr : List (Nat × Ecc)
  eccPmem : List (Nat × Ecc)
  crecUe : List (Nat × Bool)
  fills : List (Nat × Nat × BitVec 512)
  rekeys : List (Nat × Nat × BitVec 512)
deriving DecidableEq, Repr

/-- The module: everything but the queue of commands. `freeCtr` is the model's own: it numbers the free values. `justSet` lists the
register bits that the hardware has set in the present cycle (R18); `notLive` the holders of leases that are not live, each with the TB1
from which it has not been and whether its leases have expired (R133).
`chanLast` holds one more than the cycle in which a stack channel last served, `revoked` the holders whose leases are revoked and
`revoking` those whose zero-fill goes on, with the leases revoked and whether REVOKE asked for it; `parked` the adaptation state of
contexts that do not hold the fabric. -/
structure Mach where
  freeCtr : Nat
  justSet : List (Nat × Nat)
  variant : Variant
  cyc : Nat
  regs : List (Nat × W32)
  mem : Mem
  tiles : List (Nat × Tile)
  fx : List Fx
  flights : List Flight
  inbox : List InEntry
  chanQ : List ChanReq
  gldReplies : List GldReply
  windows : List (Nat × Window)
  winUpds : List WinUpd
  latches : List (Nat × Latch)
  waits : List Wait
  signals : List Signal
  engines : List (Nat × Engine)
  chanLast : List (Nat × Nat)
  notLive : List (Holder × Nat × Bool)
  revoked : List Holder
  revoking : List (Holder × Nat × Bool)
  stems : List (Nat × StemPort)
  rois : List (Nat × Roi)
  ports : List (Nat × Port)
  coders : List (Nat × Coder)
  ffc : List (Nat × W32)
  ffcEcc : List (Nat × Ecc)
  prep : Prep
  adapt : Adapt
  parked : List (Nat × Adapt)
  pos : Pos
  fld : Fld
  lanes : List (Nat × Lane)
  links : List (Nat × Link)
  ring : Ring
  hif : Hif
  sec : Sec
  flash : Flash
  wv : Weaving
  pwr : Pwr
  flt : Flt
deriving DecidableEq, Repr

/-- The state of the block: the module and the commands that wait, first in, first out. -/
structure State where
  pending : List Instr
  m : Mach
deriving DecidableEq, Repr

/-- Why the block stops: no command ends in a fault, so the type has no constructor. Safe. -/
inductive Fault where
deriving DecidableEq

/-- Why the block refuses a command. -/
inductive Refusal where
  /-- Raised by the arm of a command whose meaning is not modelled yet. Safe: nothing is proved about such a command. -/
  | notModelled (mnemonic : String)
deriving DecidableEq, Repr

/-! ### Defaults: what an unlisted key of each map holds, and the state after reset -/

/-- An empty weight set. -/
def WeightSet.empty : WeightSet := { parts := [], scale := 0, fmt := 0, cnt := 0 }

/-- A tile no weave uses (R39): IDLE, everything zero. -/
def Tile.idle : Tile :=
  { mode := .idle, assigned := false, adapt := false, stage := 0, entry := 0, startCycle := 0, nb := 0, budget := 0,
    span := 0, spanLeft := 0, pc := 0, depth := 0, v := [], acc := [], acp := 0, ws0 := WeightSet.empty, ws1 := WeightSet.empty,
    scaleLatch := 0, xs := 0, a := [], g := [], d := [], c := [], lc := [], l := [], smp := 0, flags := 0, step := 0,
    draws := [], tally := [], tallyCnt := [], arrayFree := 0, bankHeldAt := 0, issuedAt := 0, bundle := [], held := none,
    closed := false, slipped := false, counted := 0, slips := 0, cntIssue := 0, cntHtag := 0, cntHlat := 0, cntHbank := 0,
    cntHque := 0, cntPred := 0 }

/-- An unused window, closed at generation 0 (R116, R118). -/
def Window.unused : Window :=
  { used := false, kind := false, openAtStart := false, weaveTiles := false, stack := 0, base := 0, limit := 0, writers := [],
    isOpen := false, gen := 0, revoked := false }

/-- A latch that no weave owns (R129). -/
def Latch.free : Latch := { count := 0, owner := 0xFFFF, st := .free }

/-- A sluice engine no weave and no queue uses (R123). -/
def Engine.free : Engine :=
  { mode := .free, start := 0, st := .idle, plan := [], passes := 0, pass := 0, next := 0, inflight := [], aborted := false, feeds := false,
    queue := 0, queued := [] }

/-- A stem port that is not enabled (R179). -/
def StemCfg.off : StemCfg :=
  { en := false, b := 1, kh := 1, kw := 1, co := 1, zpin := 0, padp := 0, w := [], bias := [], mul := [], sh := [], zp := [],
    uint8 := false, relu := false, stack := 0, base := 0, ringRows := 1 }

/-- The stem state of a port without work. -/
def StemPort.idle : StemPort :=
  { cfg := StemCfg.off, width := 0, store := [], taken := 0, nextRow := 0, ended := false, checking := [], released := 0,
    wecc := .ok }

/-- An ROI sampler without jobs. -/
def Roi.idle : Roi :=
  { planMode := false, start := 0, jobs := [], st := .idle, job := 0, pass := 0, opos := 0, aborted := false, smp := 0, mask := 0, left := 0, got := [], listed := false,
    drops := 0, ue := false, ce := false, clamp := false, boxes := 0 }

/-- A camera port whose counters start at 0 (R229). -/
def Port.idle : Port :=
  { frame := none, lidx := 0, tLast := 0, gapNext := false, ueGap := false, ls := none, lastTag := none, lastFn := none, sgen := 0, target := 0, tagCnt := 0,
    tags := [], vbuf := [], ecc := .ok, drop := false, disp := [], hist := [], sent := [] }

/-- An idle JPEG-LS coder. -/
def Coder.idle : Coder := { crops := [], ready := [], busy := none }

/-- A bucket with nothing open. -/
def BucketSt.empty : BucketSt := { batches := [], nextQ := 0, nextId := 0, handed := 0, dpos := 0, above := false }

/-- An encoder at position 0 and at rest (R275-R284). -/
def Enc.zero : Enc :=
  { a := false, b := false, r := 0, p := 0, d := 0, u := 0, w := 0, g1 := 0, g2 := 0, g3 := 0, gHeld := none, tUpd := 0, pUpd := 0,
    lastCap := none }

/-- A lane that has heard nothing. -/
def Lane.quiet : Lane :=
  { lock := false, preset := none, lowPower := false, seen := false, laneNo := 0, inv := false, heard := 0, heardValid := false, heardInv := false, peerReady := false,
    readyCnt := 0, reqSeen := false, reqPre := 0, reqPost := 0, reqPreset := none, stPre := 0, stPost := 0, askPre := 0,
    askPost := 0, peerPre := 0, peerPost := 0, rxReady := false, tx := none }

/-- A link that is off. -/
def Link.off : Link :=
  { stage := .off, timedOut := false, retried := false, trial := 0, verSeen := false, minH := 0, maxH := 0, hops := 0, activeAt := 0,
    wrapped := false, paused := [], held := [], out := [] }

/-- A ring send engine without a plan. -/
def RingEng.idle : RingEng := { start := 0, plan := [], passes := 0, pass := 0, next := 0, st := .idle, inflight := [] }

/-- A queue as EN := 1 leaves it (R381, R394). -/
def Queue.empty : Queue := { pi := 0, ci := 0, seq := 0, unsig := 0, oldest := 0, lostBefore := false, ents := [] }

/-- The field-side controller without L+ (R312). -/
def FieldSide.off : FieldSide :=
  { running := false, lplus := false, safe := true, everApplied := false, applied := 0, todo := [], outputs := 0, chg := [], rb := 0, hold := 0,
    safeCfg := 0, deb := [], timeout := 50, wben := 0, oc := 0, wb := 0, inputs := 0, edges := [], overtemp := false, cfgCount := 0,
    lastAddr := 0, lastData := 0, downLock := false, goodRun := 0, badRun := 0,
    heardAt := none, validAt := none, upK := 0 }

/-- A firmware copy that verifies, with the digests of the manufacturer's images. -/
def FwCopy.factory : FwCopy :=
  { valid := true, svn := 0, rotOk := true, rot := Config.factoryDigest 0, stwOk := true, stw := Config.factoryDigest 1,
    ctrl := (List.range 4).map fun i => (true, Config.factoryDigest (2 + i)) }

/-- Module flash as it leaves manufacture: no bank set, no management CA, no open switch record. -/
def Flash.factory : Flash :=
  { sets := [], fwA := FwCopy.factory, fwB := FwCopy.factory, svnMin := 0, ca := none, caLock := false, journal := none }

/-- Sample preparation without a recipe. -/
def Prep.empty : Prep :=
  { recipe := none, serial := 0, markers := [], parts := [], bst := [], badLines := [], nextIdx := 0, idxEnd := false, decoding := [],
    rows := [], injected := [] }

/-- No adaptation section, no label, no version: version 0 is active. -/
def Adapt.empty : Adapt :=
  { owner := 0, weave := 0, sec := none, labels := [], slots := [none, none, none, none], active := 0, run := none, waitingClear := [], exported := [] }

/-- The position block at rest. -/
def Pos.zero : Pos :=
  { enc0 := Enc.zero, enc1 := Enc.zero, trig := [], spouts := [], rules := [], armseq := 0, tb0 := 0, tb2 := 0, tb2Slew := 0,
    tb2Set := false,
    ptp := { master := none, foreign := [], mgmtUp := false, syncSeq := 0, t1 := none, t2 := 0, t2b := 0, queue := [] } }

/-- The field side as a module reset leaves it: TB1 starts anew, so that its times lie before it, and states that were still to be applied are
due (R312, R329). -/
def FieldSide.carry (x : FieldSide) : FieldSide :=
  { x with todo := x.todo.map fun p => (0, p.2), chg := [], rb := x.outputs, edges := x.edges.map fun e => { e with te := none },
           heardAt := none, validAt := none, upK := 0 }

/-- The module side of the crossing after reset. -/
def Fld.reset (side : FieldSide) : Fld :=
  { changes := [], commanded := 0, framed := 0, cfgq := [], awaiting := none, slot := 0, down := [], up := [], upGood := 0, upBad := 0,
    upHeardAt := 0, rbSince := [], side := side }

/-- The ring after reset: no member, no token. -/
def Ring.empty : Ring :=
  { members := [], cands := [], dist := [], gen := 0, holder := 0, held := false, tokenT := 0, tokenValid := false, tokenAny := false, seqs := [], seen := [],
    wraps := [], eng0 := RingEng.idle, eng1 := RingEng.idle, isTb2Master := false, tb2T := 0, syncHops := [], drops := [] }

/-- The configuration space after reset. PRESUMED (log 128): the values of the PCI Express Base Specification. -/
def PcieCfg.reset : PcieCfg := { maxPayload := 128, maxRead := 512, aerUncor := 0, aerCor := 0 }

/-- The host interface after reset. -/
def Hif.reset : Hif :=
  { queues := [], turns := [], ecc := [], msix := [], pba := [], irqs := [], rd := [], shadow := 0, shadowAt := none, d3 := false, cfg := PcieCfg.reset,
    lot := { isOpen := false, num := 0, base := 0, accepted := 0, records := 0, ending := none }, vouts := [] }

/-- The root of trust after reset: no identity, no context, the host region from address 0, 4 GiB long (R404). -/
def Sec.reset : Sec :=
  { sdev := none, svn := 0, meas := List.replicate 8 0, ctxs := [], resident := none, conf := false, hostBase := 0, hostSize := 0x100000000,
    kHost := 0, kFw := 0, ephems := [], sessions := [], switching := none, importing := none, dexOut := [], dexStatus := 0,
    dexUp := false, romOnly := false, steward := false, ctrl := [] }

/-- No weave runs (R482). -/
def Weaving.none : Weaving := { running := [], cmd := .none, drain := .none, serial := 1 }

/-- The FLT block after reset: an empty log, no dump, nothing frozen. -/
def Flt.reset : Flt :=
  { log := [], merges := [], rsps := [], called := [], started := [], waits := [], dump := none, dumping := none, tallies := [], frozen := false, stopHit := false,
    vouted := [], bcap := none }

/-- Power before POWER_ON: 48 V absent, module reset held (R469). -/
def Pwr.off : Pwr :=
  { vin := false, inReset := true, lockedOut := false, cause := 0, good := 0, locks := 0, refOk := false, aligned := false,
    tries := 0, ddrReady := false, bootOk := false, excursion := false,
    thermWarn := false }

/-- Memories with nothing listed. -/
def Mem.empty : Mem :=
  { spad := [], stack := [], ddr := [], tags := [], skews := [], pmem := [], eccSpad := [], eccStack := [], eccDdr := [],
    eccPmem := [], crecUe := [], fills := [], rekeys := [] }

/-- The module after reset, before POWER_ON: every register at its reset value, nothing listed in any memory. -/
def Mach.reset : Mach :=
  { freeCtr := 0, justSet := [], variant := { nstk := 6, io1 := true, ddr := 128 }, cyc := 0, regs := [], mem := Mem.empty, tiles := [],
    fx := [], flights := [], inbox := [], chanQ := [], gldReplies := [], windows := [], winUpds := [], latches := [], waits := [],
    signals := [], engines := [], chanLast := [], notLive := [], revoked := [], revoking := [], stems := [], rois := [], ports := [], coders := [],
    ffc := [], ffcEcc := [], prep := Prep.empty, adapt := Adapt.empty, parked := [], pos := Pos.zero, fld := Fld.reset FieldSide.off, lanes := [],
    links := [], ring := Ring.empty, hif := Hif.reset, sec := Sec.reset, flash := Flash.factory, wv := Weaving.none,
    pwr := Pwr.off, flt := Flt.reset }

/-- The block after reset: the module after reset and an empty queue. -/
def State.reset : State := { pending := [], m := Mach.reset }

end Sys2Proof.Machine
end

