-- ==== Sys2Proof/Machine/Regs.lean ====
section
/-! DEFINITION. The stored bits of the registers of BAR0: reading, setting fields, setting bits that stay until cleared, counting,
and the effect of a host write by access code (R16, R17). -/
namespace Sys2Proof.Machine

/-- The stored bits of a register. -/
def Mach.reg (m : Mach) (a : Nat) : W32 := FMap.get regReset m.regs a

/-- The module with a register's stored bits replaced. -/
def Mach.setReg (m : Mach) (a : Nat) (v : W32) : Mach := { m with regs := FMap.put regReset m.regs a v }

/-- A field of a register. -/
def Mach.rbits (m : Mach) (a hi lo : Nat) : Nat := bits (m.reg a) hi lo

/-- A bit of a register. -/
def Mach.bit (m : Mach) (a i : Nat) : Bool := bitAt (m.reg a) i

/-- The module with a field of a register set. -/
def Mach.setFld (m : Mach) (a hi lo x : Nat) : Mach := m.setReg a (setBits (m.reg a) hi lo x)

/-- A bit of a register that the hardware sets in the present cycle (R18). -/
def noted (l : List (Nat × Nat)) (p : Nat × Nat) : List (Nat × Nat) := if l.contains p then l else p :: l
def Mach.noteSet (m : Mach) (a i : Nat) : Mach := { m with justSet := noted m.justSet (a, i) }

/-- The module with a bit of a register set to a value by the hardware. -/
def Mach.putBit (m : Mach) (a i : Nat) (b : Bool) : Mach :=
  { m.setFld a i i (b2n b) with justSet := if b then noted m.justSet (a, i) else m.justSet }

/-- The bits of a register that the hardware has set in the present cycle (R18). -/
def Mach.setMask (m : Mach) (a : Nat) : W32 :=
  m.justSet.foldl (fun (w : W32) p => if p.1 = a then w ||| BitVec.twoPow 32 p.2 else w) 0

/-- The module with a saturating counter advanced. -/
def Mach.inc (m : Mach) (a : Nat) : Mach := m.setReg a (satInc (m.reg a))

/-- A counter of a register field that saturates at its width (R122). -/
def Mach.incFld (m : Mach) (a hi lo : Nat) : Mach := m.setFld a hi lo (min (2 ^ (hi + 1 - lo) - 1) (m.rbits a hi lo + 1))

/-- A saturating counter advanced by n. -/
def Mach.addReg (m : Mach) (a n : Nat) : Mach := m.setReg a (satAdd (m.reg a) n)

/-- A 64-bit value in a pair of registers (R15). -/
def Mach.reg64 (m : Mach) (lo : Nat) : W64 := m.reg (lo + 4) ++ m.reg lo

/-- The module with a 64-bit value in a pair of registers (R15). -/
def Mach.setReg64 (m : Mach) (lo : Nat) (v : W64) : Mach :=
  (m.setReg lo (v.setWidth 32)).setReg (lo + 4) ((v >>> 32).setWidth 32)

/-- The value a host write leaves in a register of a row: RW fields take the bits written, RWL fields only outside confidential
mode, W1C bits written 1 clear (R16, R17). -/
def RegRow.write (r : RegRow) (conf : Bool) (old v : W32) : W32 :=
  let mask := BitVec.ofNat 32 r.rw ||| (if conf then 0 else BitVec.ofNat 32 r.rwl)
  ((old &&& ~~~mask) ||| (v &&& mask)) &&& ~~~(v &&& BitVec.ofNat 32 r.w1c)

/-- Registers of absent units: INT1, the DDR4 channels, ring ports, camera lanes and sluice engines of IO1 on I1 parts, and the
counters of absent stacks. They read 0 and ignore writes (R10). -/
def Variant.absentReg (v : Variant) (a : Nat) : Bool :=
  (!v.io1 && ((decide (0x1900000 ≤ a) && decide (a < 0x1A00000)) || (decide (0x1D00180 ≤ a) && decide (a < 0x1D00200))
      || (decide (0x1D004C0 ≤ a) && decide (a < 0x1D00580)) || (decide (0x1001400 ≤ a) && decide (a < 0x1001800))
      || (decide (0x1000070 ≤ a) && decide (a < 0x1000080))))
    || (decide (0x1000040 + 4 * v.nstk ≤ a) && decide (a < 0x1000058))

/-- The effect of a host write on the stored bits of a register; a reserved offset or an absent unit takes none (R10, R16). A W1C bit that
the hardware sets in the same cycle ends set (R18). -/
def Mach.writeReg (m : Mach) (a : Nat) (v : W32) : Mach :=
  if m.variant.absentReg a then m
  else match regRow a with
    | none => m
    | some r => m.setReg a (r.write m.sec.conf (m.reg a) (v &&& ~~~(m.setMask a &&& BitVec.ofNat 32 r.w1c)))

/-- TB1 in ns: 7 cy(CORE) are 5 ns, counted from alignment (R464, R471). -/
def Mach.tb1 (m : Mach) : Nat := m.cyc * 5 / 7

/-- The next free value and the module that has met it. -/
def Mach.fresh (m : Mach) (w : Nat) : BitVec w × Mach :=
  (Config.freeBits w m.freeCtr, { m with freeCtr := m.freeCtr + 1 })

/-- The next output of the DRBG (R399). -/
def Mach.draw (m : Mach) : BitVec 512 × Mach := (Config.drbg m.freeCtr, { m with freeCtr := m.freeCtr + 1 })

/-- The answer of a command: the queue as it stands and the module it leaves. -/
def done (s : State) (m : Mach) : Host.Outcome State Fault Refusal := .next { s with m := m }

end Sys2Proof.Machine
end

