-- ==== Sys2Proof/Machine/Flt.lean ====
section
/-! DEFINITION. Reports of faults: the event log with its merging and its reserved places, the counters, the match against armed
responses, the dump trigger and the interrupt (R429-R447). -/
namespace Sys2Proof.Machine

/-- What a block adds to an event: AKIND and ADDR, INFO and the sample (R433). -/
structure EvX where
  akind : Nat := 0
  addr : Nat := 0
  info : Nat := 0
  sample : Option (BitVec 48) := none
deriving DecidableEq, Repr

/-- Clock domains that are aligned (R464). -/
def alignedDomain (d : Nat) : Bool := (1 ≤ d && d ≤ 8) || d == 17 || (20 ≤ d && d ≤ 22) || d == 24

/-- The fatal events (R438, R474). -/
def isFatal (block bit source : Nat) : Bool :=
  (block == 1 && bit == 1) || (block == 2 && bit == 4) || (block == 4 && bit == 5)
    || (block == 0xF && (bit == 0 || bit == 8))
    || (block == 0xE && (bit == 0 || bit == 2 || bit == 3 || bit == 4 || (bit == 1 && alignedDomain source)))

/-- Bits whose names end in CE, by block, and the DEV events that R432 calls CORRECTED (R431). -/
def isCe (block bit : Nat) : Bool :=
  (block == 1 && (bit == 0 || bit == 2)) || ((block == 2 || block == 3 || block == 4 || block == 6 || block == 7) && bit == 0)
    || (block == 5 && bit == 5) || (block == 0xC && bit == 8) || (block == 0xF && (bit == 4 || bit == 6))

/-- Bits whose names end in UE, by block, and the DEV events that R432 calls UNCORRECTED (R431). -/
def isUe (block bit : Nat) : Bool :=
  (block == 1 && (bit == 1 || bit == 3)) || ((block == 2 || block == 3 || block == 4 || block == 6 || block == 7) && bit == 1)
    || (block == 5 && bit == 6) || (block == 0xC && bit == 9) || (block == 0xD && bit == 1)
    || (block == 0xF && (bit == 5 || bit == 7))

/-- SEV (R431). -/
def sevOf (block bit source : Nat) : Nat :=
  if isFatal block bit source then 3 else if isCe block bit then 1 else if isUe block bit then 2 else 0

/-- Events whose ADDR and INFO confidential mode withholds (R436). -/
def isRedacted (block bit : Nat) : Bool :=
  (1 ≤ block && block ≤ 4) || (block == 0xF && (bit == 0 || (3 ≤ bit && bit ≤ 7)))

/-- Two events detected in the same cy(HK), which is 10 ns (R434, R464). -/
def Event.sameHk (a b : Event) : Bool := a.tb1 / 10 == b.tb1 / 10
/-- The order in which events of one cy(HK) are logged: BLOCK, then BIT, then SOURCE (R434). -/
def Event.before (a b : Event) : Bool :=
  decide (a.block < b.block) || (a.block == b.block && (decide (a.bit < b.bit) || (a.bit == b.bit && decide (a.source < b.source))))

/-- The time that an event carries: that of the events already logged in this cy(HK), else the present one (R434). -/
def Mach.hkTime (m : Mach) : Nat :=
  match m.flt.log with
  | p :: _ => if p.2.1.tb1 / 10 = m.tb1 / 10 then p.2.1.tb1 else m.tb1
  | [] => m.tb1

/-- The event of a block's report at the present time (R429). -/
def Mach.event (m : Mach) (block bit source : Nat) (x : EvX) : Event :=
  let red := m.sec.conf && isRedacted block bit
  { block := block, bit := bit, sev := sevOf block bit source, akind := x.akind, source := source,
    info := if red then 0 else x.info, tb1 := m.hkTime, addr := if red then 0 else x.addr, sample := x.sample,
    redacted := red, boot := false }

/-- The 32-byte log record of an event with a log index (R429). -/
def Event.bytes (e : Event) (idx : Nat) : List Byte :=
  leBytes 1 e.block ++ leBytes 1 e.bit ++ leBytes 1 e.sev
    ++ leBytes 1 (e.akind + b2n e.sample.isSome * 8 + b2n e.redacted * 16 + b2n e.boot * 32)
    ++ leBytes 2 e.source ++ leBytes 2 e.info ++ leBytes 8 e.tb1 ++ leBytes 8 e.addr
    ++ leBytes 6 (e.sample.getD 0).toNat ++ leBytes 2 idx

/-- What the vector control word of an MSI-X vector holds after reset: masked. PRESUMED (log 2): the MSI-X capability. -/
def msixReset (k : Nat) : W32 := if k % 4 = 3 then 1 else 0

/-- An MSI-X vector is signalled: a message, or its pending bit while the vector is masked (R384). -/
def Mach.signal (m : Mach) (v : Nat) : Mach :=
  if bitAt (FMap.get msixReset m.hif.msix (4 * v + 3)) 0 then
    { m with hif := { m.hif with pba := FMap.put (fun _ => false) m.hif.pba v true } }
  else { m with hif := { m.hif with irqs := v :: m.hif.irqs } }

/-- HIF_IRQ.ERR_VEC is signalled while ERR_EN is 1 (R384). -/
def Mach.signalErr (m : Mach) : Mach := if m.bit rHifIrq 11 then m.signal (m.rbits rHifIrq 10 0) else m

/-- A trigger of a state dump: the dump starts, or the trigger is counted in MISSED while a dump is held or being written
(R447). -/
def Mach.triggerDump (m : Mach) (cause : Option Event) (requested : Bool) : Mach :=
  if m.bit rFltDumpStat 31 || m.bit rFltDumpStat 30 then m.incFld rFltDumpStat 15 0
  else
    let d : Dump := { flags := if requested then 8 else 0, inRun := m.adapt.run.isSome, cause := cause, t0 := m.tb1, tb0 := (m.pos.tb0 / 2 ^ 40).toNat, bytes := [] }
    { m with flt := { m.flt with dumping := some d } }.putBit rFltDumpStat 30 true

/-- Records held by the log (R434). -/
def Mach.logHeld (m : Mach) : Nat := (m.reg rFltLogPi - m.reg rFltLogCi).toNat

/-- The event counter of a severity (R435). -/
def Mach.countSev (m : Mach) (sev : Nat) : Mach :=
  if sev = 1 then m.inc rFltCntCe else if sev = 2 then m.inc rFltCntUe else if sev = 3 then m.inc rFltCntFatal else m

/-- Response entry r matches an event and is armed (R441). -/
def Mach.entryMatches (m : Mach) (e : Event) (r : Nat) : Bool :=
  let w := m.reg (rRspMatch r)
  m.bit (rRspAct r) 31 && bits w 31 24 == e.block && bits w 23 16 == e.bit
    && (bits w 15 0 == e.source || bits w 15 0 == 0xFFFF)

/-- An entry that has been called for in the cy(HK) of an event (R442). -/
def Flt.calledFor (f : Flt) (e : Event) (r : Nat) : Bool := f.called.lookup r == some (e.tb1 / 10)

/-- The responses that an event calls for, in ascending entry order; a RESPONSE event matches no entry. An entry acts once for the events of
one cy(HK), for the first of them in log order (R441, R442). -/
def Mach.callResponses (m : Mach) (e : Event) : Mach :=
  if e.block = 0xF ∧ e.bit = 0xB then m
  else
    let mine := (List.range 32).filter fun r => m.entryMatches e r
    let new := mine.filter fun r => !m.flt.calledFor e r
    let rsps := m.flt.rsps.map fun p => if mine.contains p.entry && p.ev.sameHk e && e.before p.ev then { p with ev := e } else p
    { m with flt := { m.flt with
        rsps := rsps ++ new.map fun r => ({ entry := r, ev := e, action := 0, arg := 0, till := 0 } : Rsp),
        called := new.map (fun r => (r, e.tb1 / 10)) ++ m.flt.called.filter fun p => !new.contains p.1 } }

/-- An event of the same kind and source was logged less than MERGE µs ago (R435). -/
def Mach.mergedAway (m : Mach) (e : Event) : Bool :=
  let w := m.rbits rFltCfg 31 16
  w != 0 && e.sev != 3 &&
    match m.flt.merges.find? (fun p => p.1 == (e.block, e.bit, e.source)) with
    | some p => decide (e.tb1 < p.2 + 1000 * w)
    | none => false

/-- An event among the log's held records, newest first: it takes the next index, but stands before those of its cy(HK) that come after it in
the order of R434. -/
def insertEvent (e : Event) (idx : Nat) : Nat → List (Nat × Event × Nat) → List (Nat × Event × Nat)
  | n + 1, p :: l =>
    if e.sameHk p.2.1 && e.before p.2.1 then (idx % 4096, p.2.1, idx) :: insertEvent e p.2.2 n l else (idx % 4096, e, idx) :: p :: l
  | _, l => (idx % 4096, e, idx) :: l

/-- The event in the log, and the signal that its severity asks for; a FATAL event signals besides (R434, R435, R439). -/
def Mach.logEvent (m : Mach) (e : Event) : Mach :=
  let pi := (m.reg rFltLogPi).toNat
  let key := (e.block, e.bit, e.source)
  let f := { m.flt with
    log := insertEvent e pi m.logHeld (m.flt.log.filter fun p => p.1 != pi % 4096),
    merges := (key, e.tb1) :: m.flt.merges.filter (fun p => p.1 != key) }
  let m := { m with flt := f }.setReg rFltLogPi (BitVec.ofNat 32 (pi + 1))
  if m.rbits rFltCfg 9 8 ≤ e.sev ∧ e.sev ≠ 3 then m.signalErr else m

/-- The event goes to the log unless it is merged, held back or finds no place open to it (R434, R435). -/
def Mach.tryLog (m : Mach) (e : Event) : Mach :=
  if m.mergedAway e then m.inc rFltMerged
  else if e.sev = 1 ∧ m.bit rFltCfg 0 = false then m
  else if m.logHeld < (if e.sev = 3 then 4096 else 4064) then m.logEvent e
  else (m.inc rFltLogLost).putBit rFltStat 1 true

/-- What a FATAL event does besides (R439). -/
def Mach.fatal (m : Mach) (e : Event) : Mach :=
  if e.sev = 3 then ((m.putBit rFltStat 2 true).triggerDump (some e) false).signalErr else m

/-- The report of an event to the FLT block (R429-R442). -/
def Mach.report (m : Mach) (e : Event) : Mach :=
  (((m.countSev e.sev).callResponses e).tryLog e).fatal e

/-- What fails an adaptation run (R263): a slip, an uncorrectable memory error, a dropped write, a lease revoked or expired, with status
TAINTED; a tile or an engine in FAULT, with status FAULT. -/
def runFailure (block bit : Nat) : Nat :=
  if (block == 1 && bit == 1) || (block == 2 && bit == 4) then 9
  else if (block == 1 && (bit == 3 || bit == 4 || bit == 5 || bit == 6 || bit == 8)) || (block == 2 && (bit == 1 || bit == 2 || bit == 5))
      || (block == 7 && bit == 2) || (block == 0xF && (bit == 1 || bit == 2 || bit == 5 || bit == 7)) then 6
  else 0

/-- A source of R430 and R432 reads for the programs or the plan of a run: a tile, one of its engines, or PREP; the patrol scrub does not. -/
def readsForRun (a : AdaptSec) (block source : Nat) : Bool :=
  block == 1 || block == 7 || decide (source < 576) || source == 0xC002
    || a.secs.any fun s => s.1 == 4 && source == 0x4000 + fieldAt s.2 0 1

/-- The first failure of a run that is under way decides its status (R263); an uncorrectable error counts when it is of a read of the
run. -/
def Mach.noteRun (m : Mach) (block bit source : Nat) : Mach :=
  match m.adapt.run with
  | some r =>
    let ofRead := (block == 2 && bit == 1) || (block == 0xF && (bit == 5 || bit == 7))
    let mine := !ofRead || m.adapt.sec.any fun a => readsForRun a block source
    if r.phase = .running ∧ r.status = 0 ∧ runFailure block bit ≠ 0 ∧ mine then
      { m with adapt := { m.adapt with run := some { r with status := runFailure block bit } } }
    else m
  | none => m

/-- A run has failed: its programs issue nothing further (R263). -/
def Mach.runFailed (m : Mach) : Bool := m.adapt.run.any fun r => r.phase == .running && r.status != 0

/-- A bit of a block's error register is set and reported while its enable bit is 1, or always when it is fatal (R430). -/
def Mach.raise (m : Mach) (err en block bit source : Nat) (x : EvX := {}) : Mach :=
  let m := (m.putBit err bit true).noteRun block bit source
  if m.bit en bit || isFatal block bit source then m.report (m.event block bit source x) else m

/-- A DEV event is always reported (R430, R432). -/
def Mach.dev (m : Mach) (bit source : Nat) (x : EvX := {}) : Mach :=
  (m.noteRun 0xF bit source).report (m.event 0xF bit source x)

/-! The blocks' reports, with the SOURCE of R430. -/

/-- A tile's report; a tile index beyond 575 names no tile. -/
def Mach.raiseFab (m : Mach) (t bit : Nat) (x : EvX := {}) : Mach :=
  if t < 576 then m.raise (rTileErr t) (rTileErrEn t) 1 bit t x else m
def Mach.raiseSlu (m : Mach) (e bit : Nat) (x : EvX := {}) : Mach := m.raise (rMemSluErr e) (rMemSluErrEn e) 2 bit (0x4000 + e) x
def Mach.raiseStem (m : Mach) (d bit : Nat) (x : EvX := {}) : Mach := m.raise (rStemErr d) (rStemErrEn d) 3 bit (0xC000 + d) x
def Mach.raiseRoi (m : Mach) (d bit : Nat) (x : EvX := {}) : Mach := m.raise (rRoiErr d) (rRoiErrEn d) 4 bit (0xC003 + d) x
def Mach.raiseInt (m : Mach) (d bit : Nat) : Mach := m.raise (rIntErr d) (rIntErrEn d) 5 bit d
def Mach.raisePort (m : Mach) (p bit : Nat) : Mach :=
  m.raise (rPortErr (p / 6) (p % 6)) (rPortErrEn (p / 6) (p % 6)) 6 bit p
def Mach.raisePrep (m : Mach) (bit : Nat) (x : EvX := {}) : Mach := m.raise rPrepErr rPrepErrEn 7 bit 0xC002 x
def Mach.raisePos (m : Mach) (bit : Nat) : Mach := m.raise rPosErr rPosErrEn 8 bit 0
/-- An encoder error sets the summary bit of its encoder too (POS_ERR.ENC0, ENC1). -/
def Mach.raiseEnc (m : Mach) (e bit : Nat) : Mach := (m.raise (rEncErr e) (rEncErrEn e) 9 bit e).raisePos e
def Mach.raiseFld (m : Mach) (bit : Nat) : Mach := m.raise rFldErr rFldErrEn 0xA bit 0
def Mach.raiseLnk (m : Mach) (bit source : Nat) : Mach := m.raise rLnkErr rLnkErrEn 0xB bit source
/-- A HIF error signals ERR_VEC besides its report (R384). -/
def Mach.raiseHif (m : Mach) (bit source : Nat) : Mach := (m.raise rHifErr rHifErrEn 0xC bit source).signalErr
def Mach.raiseSec (m : Mach) (bit : Nat) : Mach := m.raise rSecErr rSecErrEn 0xD bit 0xFFFF
def Mach.raiseClk (m : Mach) (bit source : Nat) : Mach := m.raise rClkErr rClkErrEn 0xE bit source

end Sys2Proof.Machine
end

