-- ==== Sys2Proof/Machine/Ops.lean ====
section
/-! DEFINITION. Named operations over the maps and memories of the module, and the entries of device-to-host queues. -/
namespace Sys2Proof.Machine

/-! ### Tables by number -/

def Mach.tile (m : Mach) (t : Nat) : Tile := FMap.get (fun _ => Tile.idle) m.tiles t
def Mach.setTile (m : Mach) (t : Nat) (x : Tile) : Mach := { m with tiles := FMap.put (fun _ => Tile.idle) m.tiles t x }
/-- Window w of tile t. -/
def Mach.win (m : Mach) (t w : Nat) : Window := FMap.get (fun _ => Window.unused) m.windows (8 * t + w)
def Mach.setWin (m : Mach) (t w : Nat) (x : Window) : Mach :=
  { m with windows := FMap.put (fun _ => Window.unused) m.windows (8 * t + w) x }
def Mach.latch (m : Mach) (l : Nat) : Latch := FMap.get (fun _ => Latch.free) m.latches l
def Mach.setLatch (m : Mach) (l : Nat) (x : Latch) : Mach := { m with latches := FMap.put (fun _ => Latch.free) m.latches l x }
def Mach.engine (m : Mach) (e : Nat) : Engine := FMap.get (fun _ => Engine.free) m.engines e
def Mach.setEngine (m : Mach) (e : Nat) (x : Engine) : Mach := { m with engines := FMap.put (fun _ => Engine.free) m.engines e x }
/-- The stem of camera port p, 0-11. -/
def Mach.stem (m : Mach) (p : Nat) : StemPort := FMap.get (fun _ => StemPort.idle) m.stems p
def Mach.setStem (m : Mach) (p : Nat) (x : StemPort) : Mach := { m with stems := FMap.put (fun _ => StemPort.idle) m.stems p x }
def Mach.roi (m : Mach) (d : Nat) : Roi := FMap.get (fun _ => Roi.idle) m.rois d
def Mach.setRoi (m : Mach) (d : Nat) (x : Roi) : Mach := { m with rois := FMap.put (fun _ => Roi.idle) m.rois d x }
/-- Camera port p, 0-11. -/
def Mach.port (m : Mach) (p : Nat) : Port := FMap.get (fun _ => Port.idle) m.ports p
def Mach.setPort (m : Mach) (p : Nat) (x : Port) : Mach := { m with ports := FMap.put (fun _ => Port.idle) m.ports p x }
def Mach.coder (m : Mach) (d : Nat) : Coder := FMap.get (fun _ => Coder.idle) m.coders d
def Mach.setCoder (m : Mach) (d : Nat) (x : Coder) : Mach := { m with coders := FMap.put (fun _ => Coder.idle) m.coders d x }
/-- Lane by number: camera lane l of intake block d at 12 d + l, ring lane l of ring port p at 24 + 4 p + l. -/
def Mach.lane (m : Mach) (k : Nat) : Lane := FMap.get (fun _ => Lane.quiet) m.lanes k
def Mach.setLane (m : Mach) (k : Nat) (x : Lane) : Mach := { m with lanes := FMap.put (fun _ => Lane.quiet) m.lanes k x }
/-- Link by number: camera port p at p, ring port p at 12 + p. -/
def Mach.link (m : Mach) (k : Nat) : Link := FMap.get (fun _ => Link.off) m.links k
def Mach.setLink (m : Mach) (k : Nat) (x : Link) : Mach := { m with links := FMap.put (fun _ => Link.off) m.links k x }
def Mach.queue (m : Mach) (q : Nat) : Queue := FMap.get (fun _ => Queue.empty) m.hif.queues q
def Mach.setQueue (m : Mach) (q : Nat) (x : Queue) : Mach :=
  { m with hif := { m.hif with queues := FMap.put (fun _ => Queue.empty) m.hif.queues q x } }
def Mach.bucket (m : Mach) (b : Nat) : BucketSt := FMap.get (fun _ => BucketSt.empty) m.prep.bst b
def Mach.setBucket (m : Mach) (b : Nat) (x : BucketSt) : Mach :=
  { m with prep := { m.prep with bst := FMap.put (fun _ => BucketSt.empty) m.prep.bst b x } }

/-! ### Slots, granules, tags and skews -/

/-- Where a slot of a tile stands in the scratchpad memory. -/
def spadAddr (t k : Nat) : Nat := (t * 8192 + k) * 64
/-- Where a granule of a stack stands in the stack memory. -/
def granAddr (st g : Nat) : Nat := (st * 2 ^ 22 + g) * 64

/-- The ECC states, other than no error, of n words from word w on (R136). -/
def eccErrors (l : List (Nat × Ecc)) (w n : Nat) : List Ecc :=
  ((List.range n).map fun i => FMap.get (fun _ => Ecc.ok) l (w + i)).filter (· != .ok)

/-- The worst of some ECC states. -/
def eccWorst (l : List Ecc) : Ecc := if l.contains .ue then .ue else if l.contains .ce then .ce else .ok

/-- How many words a read corrects. -/
def ceCount (l : List Ecc) : Nat := l.count .ce

/-- The words of a slot, of a granule and of 64 bytes of DDR4 that hold errors: 8 bytes each, 16 bytes each and 8 bytes each (R136). -/
def Mach.slotErrors (m : Mach) (t k : Nat) : List Ecc := eccErrors m.mem.eccSpad ((t * 8192 + k) * 8) 8
def Mach.granErrors (m : Mach) (st g : Nat) : List Ecc := eccErrors m.mem.eccStack ((st * 2 ^ 22 + g) * 4) 4
def Mach.ddrErrors (m : Mach) (a : Nat) : List Ecc := eccErrors m.mem.eccDdr (a / 64 * 8) 8

def Mach.slot (m : Mach) (t k : Nat) : Slot := bytesSlot (readBytes m.mem.spad (spadAddr t k) 64)
def Mach.setSpad (m : Mach) (x : List Host.Cell) : Mach := { m with mem := { m.mem with spad := x } }
def Mach.setStack (m : Mach) (x : List Host.Cell) : Mach := { m with mem := { m.mem with stack := x } }
/-- A slot written whole; a write leaves no ECC error behind (R136). -/
def Mach.setSlot (m : Mach) (t k : Nat) (v : Slot) : Mach :=
  { m with mem := { m.mem with
      spad := writeBytes m.mem.spad (spadAddr t k) (slotBytes v),
      eccSpad := FMap.clear m.mem.eccSpad (fun w => w / 8 == t * 8192 + k),
      crecUe := FMap.put (fun _ => false) m.mem.crecUe (t * 8192 + k) false } }
def Mach.gran (m : Mach) (st g : Nat) : Slot := bytesSlot (readBytes m.mem.stack (granAddr st g) 64)
/-- A granule of a stack written whole (R102). -/
def Mach.setGran (m : Mach) (st g : Nat) (v : Slot) : Mach :=
  { m with mem := { m.mem with
      stack := writeBytes m.mem.stack (granAddr st g) (slotBytes v),
      eccStack := FMap.clear m.mem.eccStack fun w => w / 4 == st * 2 ^ 22 + g } }
/-- The entry of a list of ranges that covers an address. -/
def coverOf (l : List (Nat × Nat × BitVec 512)) (a : Nat) : Option (BitVec 512) :=
  (l.find? fun r => decide (r.1 ≤ a) && decide (a < r.1 + r.2.1)).map fun r => r.2.2
/-- What a granule of DDR4 holds behind the engines when nothing has written it since its range was filled: zeros under the key of the fill,
or what the chips came up with (R405). -/
def Mach.cipherGran (m : Mach) (g : Nat) : List Byte :=
  match coverOf m.mem.fills (64 * g) with
  | some k => xtsEnc k g (zeros 64)
  | none => leBytes 64 (Config.rawDram g).toNat
/-- What a byte of DDR4 reads as that nothing has written since its range has its key: 0 where the range has had one key. -/
def Mach.stale (m : Mach) (a : Nat) : Byte :=
  match coverOf m.mem.rekeys a with
  | some k => (xtsDec k (a / 64) (m.cipherGran (a / 64))).getD (a % 64) 0
  | none => 0
def Mach.ddrByte (m : Mach) (a : Nat) : Byte := readByte m.mem.ddr a ^^^ m.stale a
def Mach.ddrBytes (m : Mach) (a n : Nat) : List Byte := (List.range n).map fun i => m.ddrByte (a + i)
/-- Bytes as `ddr` holds them from an address on. -/
def Mach.masked (m : Mach) (a : Nat) (bs : List Byte) : List Byte := bs.mapIdx fun i b => b ^^^ m.stale (a + i)
/-- Beat k of DDR4, 8 bytes, lies whole among the n bytes from a on. -/
def wholeBeat (a n k : Nat) : Bool := decide (a ≤ 8 * k) && decide (8 * k + 8 ≤ a + n)
/-- Bytes of DDR4 written; a beat written whole has no ECC error any more (R136). -/
def Mach.setDdrBytes (m : Mach) (a : Nat) (bs : List Byte) : Mach :=
  { m with mem := { m.mem with
      ddr := writeBytes m.mem.ddr a (m.masked a bs), eccDdr := FMap.clear m.mem.eccDdr (wholeBeat a bs.length) } }
/-- The tag of a slot: true is full (R107). -/
def Mach.tag (m : Mach) (t k : Nat) : Bool := FMap.get (fun _ => false) m.mem.tags (t * 8192 + k)
def Mach.setTag (m : Mach) (t k : Nat) (b : Bool) : Mach :=
  { m with mem := { m.mem with tags := FMap.put (fun _ => false) m.mem.tags (t * 8192 + k) b } }
/-- The skew of a slot (R160). -/
def Mach.skew (m : Mach) (t k : Nat) : Int := FMap.get (fun _ => 0) m.mem.skews (t * 8192 + k)
def Mach.setSkew (m : Mach) (t k : Nat) (x : Int) : Mach :=
  { m with mem := { m.mem with skews := FMap.put (fun _ => 0) m.mem.skews (t * 8192 + k) x } }

/-! ### Variant (R6-R11) -/

def Variant.hasStack (v : Variant) (s : Nat) : Bool := decide (s < v.nstk)
def Variant.hasDie (v : Variant) (d : Nat) : Bool := d == 0 || (d == 1 && v.io1)
/-- The stacks fitted, one bit each. -/
def Variant.stackMask (v : Variant) : Nat := 2 ^ v.nstk - 1
/-- Sluice engines fitted: 16 on each I/O die (R123). -/
def Variant.hasEngine (v : Variant) (e : Nat) : Bool := decide (e < 16) || (v.io1 && decide (e < 32))

/-! ### Device-to-host queues (R379-R384, R397) -/

/-- The bytes of an entry of a queue type (R379). -/
def entrySize (ty : Nat) : Nat :=
  if ty = 5 ∨ ty = 7 ∨ ty = 8 then 16 else if ty = 3 ∨ ty = 6 ∨ ty = 0xB ∨ ty = 0xC then 32 else 64

def Mach.qEn (m : Mach) (q : Nat) : Bool := m.bit (rQCfg q) 0
def Mach.qType (m : Mach) (q : Nat) : Nat := m.rbits (rQCfg q) 4 1
/-- Entries a queue holds room for: 2^LOG2 (R381). -/
def Mach.qSize (m : Mach) (q : Nat) : Nat := 2 ^ m.rbits (rQSize q) 4 0
/-- Entries a queue holds, PI − CI modulo 2^32 (R381). -/
def Queue.held (x : Queue) : Nat := (x.pi - x.ci).toNat

/-- A commit counts toward the queue's interrupt; when CNT is reached the vector is signalled and every entry is marked (R384). -/
def Mach.qNotify (m : Mach) (q : Nat) : Mach :=
  let x := m.queue q
  let n := x.unsig + 1
  if m.bit (rQCfg q) 8 ∧ max 1 (m.rbits (rQMod q) 15 0) ≤ n then
    (m.setQueue q { x with unsig := 0 }).signal (m.rbits (rQCfg q) 19 9)
  else m.setQueue q { x with unsig := n, oldest := if x.unsig = 0 then m.tb1 else x.oldest }

/-- An entry that finds its queue disabled or full is lost (R383, R397). -/
def Mach.qLose (m : Mach) (q : Nat) (full : Bool) : Mach :=
  let m := (m.inc rHifCntLost).setQueue q { m.queue q with lostBefore := true }
  let m := if full then (m.inc (rQLost q)).putBit (rQStat q) 0 true else m
  m.raiseHif 6 q

/-- The device writes entry PI into its slot of the record area and advances PI (R383). -/
def Mach.qStore (m : Mach) (q : Nat) (entry : List Byte) : Mach :=
  let x := m.queue q
  if !m.qEn q then m.qLose q false
  else if m.qSize q ≤ x.held then (m.qLose q true).qNotify q
  else
    (m.setQueue q { x with
      pi := x.pi + 1,
      ents := FMap.put (fun _ => []) x.ents (x.pi.toNat % m.qSize q) entry }).qNotify q

/-- An entry of a device-to-host queue is committed. One whose buffer has an uncorrectable error is dropped and counted as lost (R398). -/
def Mach.qPush (m : Mach) (q : Nat) (entry : List Byte) : Mach :=
  match FMap.get (fun _ => Ecc.ok) m.hif.ecc q with
  | .ok => m.qStore q entry
  | .ce => ({ m with hif := { m.hif with ecc := FMap.erase m.hif.ecc q } }.raiseHif 8 q).qStore q entry
  | .ue => (({ m with hif := { m.hif with ecc := FMap.erase m.hif.ecc q } }.raiseHif 9 q).inc (rQLost q)).qLose q false

/-- The enabled queue of a type that exists at most once, such as CMD_DONE (R379). -/
def Mach.queueOfType (m : Mach) (ty : Nat) : Option Nat :=
  (List.range 8192).find? fun q => m.qEn q && m.qType q == ty

/-- A result that goes to the peer of a host-to-device queue (R379). -/
def Mach.qReply (m : Mach) (q : Nat) (entry : List Byte) : Mach := m.qPush (m.rbits (rQLink q) 12 0) entry

/-- A host-to-device entry has been read into the device: CI advances, and the other queues of its type have their turn (R382). -/
def Mach.qTake (m : Mach) (q : Nat) : Mach :=
  let x := m.queue q
  let m := m.setQueue q { x with ci := x.ci + 1 }
  { m with hif := { m.hif with turns := (m.qType q, q) :: m.hif.turns.filter fun p => p.1 != m.qType q } }

/-- A queue of a type has an entry that the device can take: it is enabled and not empty, and the engine of a SLUICE queue is neither in FAULT
nor REVOKED (R126, R135, R381). -/
def Mach.qWaits (m : Mach) (q ty : Nat) : Bool :=
  m.qEn q && m.qType q == ty && (m.queue q).held != 0 &&
    (ty != 4 || (let e := m.engine (m.rbits (rQLink q) 20 16)
      e.st != .fault && e.st != .revoked))

/-- The queue of a type whose turn it is: the next in ascending number after the one served last, round and round (R382). -/
def Mach.qTurn (m : Mach) (ty : Nat) : Option Nat :=
  let l := (m.hif.queues.map (·.1)).filter fun q => m.qWaits q ty
  match m.hif.turns.lookup ty with
  | none => l.head?
  | some last => match l.find? fun q => decide (last < q) with
    | some q => some q
    | none => l.head?

/-- The device takes the next entry of a host-to-device queue: it has one, and it is the queue's turn (R381, R382). -/
def Mach.qReady (m : Mach) (q ty : Nat) : Bool := m.qWaits q ty && m.qTurn ty == some q

/-! ### The endpoint -/

/-- The endpoint answers configuration requests: the root of trust has booted, or has stayed in ROM, where FW_UPDATE must still reach it
(R403, R469; DEDUCED, log 129). -/
def Mach.endpointOn (m : Mach) : Bool := !m.pwr.inReset && (m.pwr.bootOk || m.sec.romOnly)

/-- The endpoint answers memory requests: it is on, and not in D3hot (R373). -/
def Mach.hostUp (m : Mach) : Bool := m.endpointOn && !m.hif.d3

/-! ### Host region (R404) -/

/-- The byte range lies in the host region, as offsets from its base. -/
def Mach.inHost (m : Mach) (off n : Nat) : Bool := decide (off + n ≤ m.sec.hostSize)
/-- Bytes of the host region at an offset from its base. -/
def Mach.hostBytes (m : Mach) (off n : Nat) : List Byte := m.ddrBytes (m.sec.hostBase + off) n
/-- The channel of a DDR4 address (R105). -/
def Mach.ddrChannel (m : Mach) (a : Nat) : Nat := a / 256 % (if m.variant.io1 then 8 else 4)
/-- The ECC state of the 64 bytes of DDR4 that hold an address: the worst of their beats. -/
def Mach.ddrEcc (m : Mach) (a : Nat) : Ecc := eccWorst (m.ddrErrors a)

/-- A DDR4 read's errors: every corrected beat is counted, and the read is reported (R136, R432). -/
def Mach.ddrRead (m : Mach) (a requester : Nat) : Mach :=
  let c := m.ddrChannel a
  let l := m.ddrErrors a
  let m := if ceCount l = 0 then m else (m.addReg (rMemDdrCe c) (ceCount l)).dev 6 requester { akind := 4, addr := a, info := c }
  if l.contains .ue then (m.putBit rMemDdrStat c true).dev 7 requester { akind := 4, addr := a, info := c } else m

/-- The device reads bytes of the host region: the granules with errors are counted and reported, with no sample, and the data is delivered
as read (R437). The root of trust has no requester ID and reports as 0xFFFF, DESIGN CHOICE (log 133). -/
def Mach.readHost (m : Mach) (off n : Nat) : Mach :=
  let lo := (m.sec.hostBase + off) / 64
  let hi := (m.sec.hostBase + off + n + 63) / 64
  let gs := ((m.mem.eccDdr.map fun e => e.1 / 8).filter fun g => decide (lo ≤ g) && decide (g < hi)).eraseDups
  if n = 0 then m else gs.foldl (fun (m : Mach) g => m.ddrRead (64 * g) 0xFFFF) m
def Mach.setHostBytes (m : Mach) (off : Nat) (bs : List Byte) : Mach := m.setDdrBytes (m.sec.hostBase + off) bs

/-! ### Positions and time -/

/-- The encoder of a position base: 0 for TB3, 1 for TB4. -/
def Pos.enc (p : Pos) (b : Bool) : Enc := if b then p.enc1 else p.enc0
def Mach.setEnc (m : Mach) (b : Bool) (e : Enc) : Mach :=
  if b then { m with pos := { m.pos with enc1 := e } } else { m with pos := { m.pos with enc0 := e } }
/-- TB0 in ns (R302). -/
def Mach.tb0 (m : Mach) : Nat := wrap 64 (m.pos.tb0 / 2 ^ 40)
/-- What the slew since the last TB2SYNC has removed by now, in 1/16 ns: the whole of it after 10 µs (R363). -/
def Mach.slewed (m : Mach) : Int := m.pos.tb2Slew * (min (m.tb1 - m.ring.tb2T) 10000 : Nat) / 10000
/-- TB2 in units of 1/16 ns. -/
def Mach.tb2x (m : Mach) : Int := 16 * (m.tb1 : Int) + m.pos.tb2 + m.slewed
/-- TB2 in ns. -/
def Mach.tb2 (m : Mach) : Nat := wrap 64 (m.tb2x / 16)
/-- TB3 or TB4, in ct (R281). -/
def Mach.tbp (m : Mach) (b : Bool) : Int := (m.pos.enc b).p
/-- The low 32 bits of a position base. -/
def Mach.pos32 (m : Mach) (b : Bool) : BitVec 32 := BitVec.ofInt 32 (m.tbp b)

end Sys2Proof.Machine
end

