-- ==== Sys2Proof/Machine/Operands.lean ====
section
/-! DEFINITION. The operand forms of a bundle: address registers and their effective addresses (R59), stack and remote address
registers, vector and accumulator registers, the packings of LDV and STV (R61, R62), and the distances of chapter 5. -/
namespace Sys2Proof.Machine

/-! ### Registers of a tile -/

/-- An address register that no descriptor has set. -/
def AReg.zero : AReg := { idx := 0, idx0 := 0, stride := 0, rb := 0, rl := 1 }
def GReg.zero : GReg := { stack := 0, gran := 0, stack0 := 0, gran0 := 0, stride := 0 }
def DReg.zero : DReg := { tile := 0, base := 0, base0 := 0, stride := 0 }
def LoopReg.zero : LoopReg := { count := 0, start := 0 }
/-- An unused tally stream (R454). -/
def TallyDesc.unused : TallyDesc := { layer := 0xFFFF, segn := 1, seglen := 1, l := 0, base := 0, p1 := 1, s1 := 0, s2 := 0, sstride := 0 }

def Tile.areg (x : Tile) (n : BitVec 4) : AReg := FMap.get (fun _ => AReg.zero) x.a n.toNat
def Tile.greg (x : Tile) (n : BitVec 3) : GReg := FMap.get (fun _ => GReg.zero) x.g n.toNat
def Tile.dreg (x : Tile) (n : BitVec 3) : DReg := FMap.get (fun _ => DReg.zero) x.d n.toNat
def Tile.creg (x : Tile) (n : BitVec 4) : BitVec 16 := FMap.get (fun _ => 0) x.c n.toNat
def Tile.lreg (x : Tile) (n : BitVec 4) : BitVec 14 := FMap.get (fun _ => 0) x.l n.toNat
def Tile.loopReg (x : Tile) (k : BitVec 2) : LoopReg := FMap.get (fun _ => LoopReg.zero) x.lc k.toNat
def Tile.vreg (x : Tile) (r : BitVec 5) : Row := FMap.get (fun _ => 0) x.v r.toNat
def Tile.accRow (x : Tile) (r : BitVec 6) : Row := FMap.get (fun _ => 0) x.acc r.toNat
def Tile.drawOf (x : Tile) (st : BitVec 5) : BitVec 8 := FMap.get (fun _ => 0) x.draws st.toNat
def Tile.wset (x : Tile) (ws : Bool) : WeightSet := if ws then x.ws1 else x.ws0
def WeightSet.part (w : WeightSet) (p : Nat) : Slot := FMap.get (fun _ => 0) w.parts p

/-! ### Addresses (R59) -/

/-- The place d slots on from an address register, within its ring. A ring that runs past slot 8191 goes on at slot 0, DESIGN CHOICE
(log 134): R59 neither refuses such a ring nor says where it goes. -/
def AReg.at (a : AReg) (d : Int) : BitVec 13 := BitVec.ofInt 13 (a.rb + ((a.idx.toNat : Int) - a.rb + d) % a.rl)
/-- The effective address of A[n] with an offset. OFF is unsigned, DEDUCED (log 17): the spec calls every signed field signed. -/
def Tile.eff (x : Tile) (n : BitVec 4) (off : BitVec 11) : BitVec 13 := (x.areg n).at off.toNat
/-- A[n] after a post-increment. -/
def Tile.incOf (x : Tile) (n : BitVec 4) : BitVec 13 := (x.areg n).at (x.areg n).stride

/-! ### Packings of LDV and STV (R61, R62) -/

/-- Bytes of one element in the slot, 0 for a nibble. -/
def ldvWidth (fmt : Nat) : Nat := if fmt = 0 then 4 else if fmt = 1 ∨ fmt = 6 then 2 else if fmt = 7 then 0 else 1

/-- A half-slot access, or FP32, with H = 0 ignores TM (R62). -/
def tmInForce (f : LdvF) : Nat := if f.fmt = 1 ∨ f.fmt = 6 ∨ f.h then f.tm.toNat else 0

/-- An element code widened to a lane. -/
def widen (fmt code : Nat) : W32 :=
  match fmt with
  | 1 => BitVec.ofNat 32 (code * 65536)
  | 2 => BitVec.ofInt 32 (sext 8 code)
  | 4 => enc32 (decE4m3 code)
  | 5 => enc32 (decE5m2 code)
  | 6 => BitVec.ofInt 32 (sext 16 code)
  | _ => BitVec.ofNat 32 code

/-- A lane packed to an element code. -/
def packLane (fmt : Nat) (v : W32) : Nat :=
  match fmt with
  | 0 => v.toNat
  | 1 => bits v 31 16
  | 6 => bits v 15 0
  | 7 => bits v 3 0
  | _ => bits v 7 0

/-- The element of lane i in a slot given as a number; for NIB register j of the pair. -/
def slotElem (fmt : Nat) (h : Bool) (j i v : Nat) : Nat :=
  match fmt with
  | 0 => nbits v (32 * (i % 16) + 31) (32 * (i % 16))
  | 1 | 6 => nbits v (16 * i + 15) (16 * i)
  | 7 => let b := 256 * b2n h + 128 * j + 4 * i; nbits v (b + 3) b
  | _ => let b := 256 * b2n h + 8 * i; nbits v (b + 7) b

/-- The lanes that a load writes: for FP32 lanes 16H to 16H + 15, else all. -/
def ldvMask (fmt : Nat) (h : Bool) : BitVec 32 := if fmt = 0 then (if h then 0xFFFF0000 else 0x0000FFFF) else 0xFFFFFFFF

/-- The row that a load gives from a slot's data (register j of a NIB pair). -/
def unpackRow (fmt : Nat) (h : Bool) (j : Nat) (v : Slot) : Row := mkRow fun i => widen fmt (slotElem fmt h j i v.toNat)

/-- The bytes of a slot that a store writes, one bit each. -/
def stvMask (fmt : Nat) (h : Bool) : BitVec 64 :=
  if fmt = 0 ∨ fmt = 1 ∨ fmt = 6 then 0xFFFFFFFFFFFFFFFF else if h then 0xFFFFFFFF00000000 else 0x00000000FFFFFFFF

/-- Elements packed from bit 0 upward, w bits each. -/
def packList (w : Nat) : List Nat → Nat
  | [] => 0
  | c :: cs => c % 2 ^ w + 2 ^ w * packList w cs

/-- The slot value that a store of V[X] (and V[X + 1]) packs, in the place that H selects. -/
def packSlot (fmt : Nat) (h : Bool) (a b : Row) : Slot :=
  let els := fun (v : Row) (l : List Nat) => l.map fun i => packLane fmt (lane v i)
  let all := List.range 32
  let n := if fmt = 0 then packList 32 (els a ((List.range 16).map (· + 16 * b2n h)))
    else if fmt = 1 ∨ fmt = 6 then packList 16 (els a all)
    else if fmt = 7 then packList 4 (els a all ++ els b all) * 2 ^ (256 * b2n h)
    else packList 8 (els a all) * 2 ^ (256 * b2n h)
  BitVec.ofNat 512 n

/-- A slot with the bytes of a mask from one value and the others from another. -/
def mixSlot (mask : BitVec 64) (new old : Slot) : Slot :=
  bytesSlot (((slotBytes new).zip (slotBytes old)).mapIdx fun i p => if mask.getLsbD i then p.1 else p.2)

/-! ### Distances (R149-R156) -/

def tileDie (t : Nat) : Nat := t / 144
/-- The global column and row of a tile. -/
def tileX (t : Nat) : Nat := t % 12 + 12 * (tileDie t % 2)
def tileY (t : Nat) : Nat := t / 12 % 12 + 12 * (tileDie t / 2)
/-- Die boundaries between two dies (R149). -/
def dieBnd (a b : Nat) : Nat := b2n (a % 2 != b % 2) + b2n (a / 2 != b / 2)
/-- The distance latency of a PUT (R149). -/
def putDelta (a b : Nat) : Nat :=
  3 + ((tileX a : Int) - tileX b).natAbs + ((tileY a : Int) - tileY b).natAbs + 12 * dieBnd (tileDie a) (tileDie b)
/-- dy + t of R152. -/
def stackDist (t st : Nat) : Nat :=
  (if st % 2 = 0 then tileY t else 23 - tileY t)
    + (if st ≤ 1 then b2n (tileDie t % 2 == 1) else if 4 ≤ st then b2n (tileDie t % 2 == 0) else 0)
/-- The request leg q and the GLD latency S (R152). -/
def stackQ (t st : Nat) : Nat := 4 + stackDist t st
def stackS (t st : Nat) : Nat := 40 + stackDist t st
/-- The latch term ℓ (R156). -/
def latchL (t l : Nat) : Nat := 4 + 12 * dieBnd (tileDie t) (l / 4096 % 4)
/-- A stack channel accepts in this cycle (R154). -/
def channelAccepts (c : Nat) : Bool := c % 7 != 1 && c % 7 != 4

end Sys2Proof.Machine
end

