-- ==== Sys2Proof/Machine/Flags.lean ====
section
/-! DEFINITION. The flags of the sample register (R45), the bundle's predicate (R43), the flags that NEXT loads (R66, R159, R164)
and the states a hold shows (R41). -/
namespace Sys2Proof.Machine

/-- The operation is predicated off: its slot is selected and the flag is not what the predicate asks for (R43). -/
def Tile.predOff (x : Tile) (p : Pred) : Bool := p.pe && p.sel && (bitAt x.flags p.pflg.toNat != !p.ppol)

/-- The flags with one flag set. -/
def setFlagBit (fl : BitVec 16) (n : Nat) : BitVec 16 := fl ||| BitVec.twoPow 16 n

/-- Flags as NEXT loads them: F5-F7 are always 0 (R45); F2 is set besides in a slip's span (R164). -/
def loadFlags (raw : Nat) (span : Bool) : BitVec 16 :=
  let fl := BitVec.ofNat 16 raw &&& 0xFF1F
  if span then setFlagBit fl 2 else fl

/-- Flags of a NEXT that a slip or rule 3 of R160 lets go: F1 and F2. -/
def slipFlags : BitVec 16 := 6

/-- A PAD sample (F1). -/
def Tile.isPad (x : Tile) : Bool := bitAt x.flags 1

/-- The unmet conditions of a bundle (R41): a tag, a latch wait, an outbound entry, the array or a bank; `grace`: the latch
wait stands within its first 2ℓ cycles (R158). -/
structure Unmet where
  tag : Bool
  lat : Bool
  grace : Bool
  que : Bool
  bank : Bool
deriving DecidableEq, Repr

def Unmet.none : Unmet := ⟨false, false, false, false, false⟩
def Unmet.any (u : Unmet) : Bool := u.tag || u.lat || u.que || u.bank
def Unmet.or (u w : Unmet) : Unmet := ⟨u.tag || w.tag, u.lat || w.lat, u.grace || w.grace, u.que || w.que, u.bank || w.bank⟩

/-- What TILE_STAT.STATE shows of several conditions: the first of tag, latch, queue, bank. -/
def Unmet.kind (u : Unmet) : HoldKind := if u.tag then .tag else if u.lat then .latch else if u.que then .queue else .bank

/-- A cycle held under these conditions counts toward the slack budget (R158). -/
def Unmet.counts (u : Unmet) : Bool := u.tag || u.que || (u.lat && !u.grace)

end Sys2Proof.Machine
end

