-- ==== Sys2Proof/Machine/Crc.lean ====
section
/-! DEFINITION. CRC-64/ECMA-182 (R453) and the shift by whole bytes that a tally needs (R455). -/
namespace Sys2Proof.Machine

/-- The polynomial of R453. -/
def crcPoly : BitVec 64 := 0x42F0E1EBA9EA3693#64

/-- The register times x, reduced. -/
def crcStep (r : BitVec 64) : BitVec 64 := if r.msb then (r <<< 1) ^^^ crcPoly else r <<< 1

/-- The register after n further zero bits. -/
def crcShiftBits : Nat → BitVec 64 → BitVec 64
  | 0, r => r
  | n + 1, r => crcShiftBits n (crcStep r)

/-- The register after one byte, most significant bit first (R453). -/
def crcByte (r : BitVec 64) (b : Byte) : BitVec 64 := crcShiftBits 8 (r ^^^ ((b.setWidth 64) <<< 56))

/-- The CRC of bytes, initial value 0, no reflection, no final XOR (R453). -/
def crc64 (bs : List Byte) : BitVec 64 := bs.foldl crcByte 0

/-- The product with x^(8 n) modulo the polynomial (R455). -/
def crcMulBytes (n : Nat) (r : BitVec 64) : BitVec 64 := crcShiftBits (8 * n) r

end Sys2Proof.Machine
end

