-- ==== Sys2Proof/Machine/Records.lean ====
section
/-! DEFINITION. Verdict records and tallies: the digest of a sample's layers, the keyed forms of confidential mode, the record and
what its commit does (R390-R396, R453-R457). -/
namespace Sys2Proof.Machine

/-! ### Keyed tallies (R412, R457) -/

/-- The resident context's owner session key. -/
def Mach.kos (m : Mach) : Option (BitVec 256) :=
  match m.sec.resident with
  | none => none
  | some c => match m.sec.ctxs.lookup c with
    | some x => x.kos
    | none => none

/-- The tally key of R412. -/
def tallyKey (kos : BitVec 256) : List Byte := hkdf (zeros 32) (bytes32 kos) (ascii "L9 TAL") 32

/-- The keyed MAC of a value (R457): 0 without a tally key. -/
def Mach.macValue (m : Mach) (id layer : Nat) (v : BitVec 64) : BitVec 64 :=
  match m.kos with
  | none => 0
  | some k =>
    BitVec.ofNat 64 (leNat ((hmac (tallyKey k)
      (ascii "L9 TM" ++ leBytes 2 (m.sec.resident.getD 0xFFFF) ++ leBytes 6 id ++ leBytes 2 layer ++ leBytes 8 v.toNat)).take 8))

/-- A value as it is reported: in clear, or as its MAC while confidential mode is in force (R423, R457). -/
def Mach.reported (m : Mach) (id layer : Nat) (v : BitVec 64) : BitVec 64 :=
  if m.sec.conf then m.macValue id layer v else v

/-! ### Tallies of a sample (R455, R456) -/

/-- The layers with contributions of a sample, in ascending order, with their tallies. -/
def Flt.layersOf (f : Flt) (idx : Nat) : List (Nat × BitVec 64) :=
  sortBy (fun a b => decide (a.1 ≤ b.1)) ((f.tallies.filter fun p => p.1.1 == idx).map fun p => (p.1.2, p.2))

/-- The record tally of a sample: 0 without contributions (R456). -/
def Flt.recordTally (f : Flt) (idx : Nat) : BitVec 64 :=
  let ls := f.layersOf idx
  if ls.isEmpty then 0 else crc64 (ls.flatMap fun p => leBytes 2 p.1 ++ leBytes 8 p.2.toNat)

/-- A contribution exclusive-ored into a layer's tally (R455). -/
def Flt.addTally (f : Flt) (idx layer : Nat) (v : BitVec 64) : Flt :=
  let old := (f.tallies.lookup (idx, layer)).getD 0
  { f with tallies := ((idx, layer), old ^^^ v) :: f.tallies.filter fun p => p.1 != (idx, layer) }

/-- The sample's tallies are gone once its record is committed. -/
def Flt.dropTallies (f : Flt) (idx : Nat) : Flt := { f with tallies := f.tallies.filter fun p => p.1.1 != idx }

/-! ### Rings in the host region (R222) -/

/-- A record written to a ring whose registers stand at lo, lo + 4, ... as BASE_LO, BASE_HI, SIZE, WR, RD, DROPS (R222): where it
would cross the ring's end a SKIP header takes the rest and the record starts at the base; without room, or where the ring does
not lie in the host region, it is dropped and counted. A disabled ring takes no record. The answer says that nothing was lost. -/
def Mach.ringPut (m : Mach) (lo : Nat) (ent : List Byte) : Mach × Bool :=
  let size := (m.reg (lo + 8)).toNat
  let wr := (m.reg (lo + 0xC)).toNat
  let rd := (m.reg (lo + 0x10)).toNat
  let base := (m.reg (lo + 4)).toNat * 2 ^ 32 + (m.reg lo).toNat
  if size = 0 then (m, true)
  else
    let ent64 := padTo ((ent.length + 63) / 64 * 64) ent
    let skip := if size < wr + ent64.length then size - wr else 0
    let used := (wr + size - rd % size) % size
    let inside := decide (m.sec.hostBase ≤ base) && decide (base + size ≤ m.sec.hostBase + m.sec.hostSize)
    if !inside || decide (size < used + 64 + skip + ent64.length) then (m.inc (lo + 0x14), false)
    else
      let m := if skip = 0 then m else m.setDdrBytes (base + wr) (padTo 64 [0x7F#8])
      let at_ := if skip = 0 then wr else 0
      ((m.setDdrBytes (base + at_) ent64).setReg (lo + 0xC) (BitVec.ofNat 32 ((at_ + ent64.length) % size)), true)

/-- FLT_TSEL selects a sample whose record has the given decision (R456). -/
def Mach.tallySelected (m : Mach) (idx decision : Nat) : Bool :=
  let mode := m.rbits rFltTsel 31 30
  if mode = 1 then idx % m.rbits rFltTsel 15 0 == 0
  else if mode = 2 then idx == (m.reg64 rFltTidxLo).toNat % 2 ^ 48
  else if mode = 3 then decision == 2
  else false

/-- The tally records of a sample, one for each layer, in ascending layer order (R456). -/
def Mach.writeTallyRing (m : Mach) (idx : Nat) (flags : BitVec 16) : Mach :=
  (m.flt.layersOf idx).foldl (fun (m : Mach) p =>
    let fl := b2n m.sec.conf + 2 * b2n (bitAt flags 2) + 4 * b2n (bitAt flags 3)
    (m.ringPut rFltTrBaseLo (padTo 64 (leBytes 1 0x10 ++ leBytes 1 fl ++ leBytes 2 p.1 ++ leBytes 6 idx ++ zeros 6
      ++ leBytes 8 (m.reported idx p.1 p.2).toNat ++ leBytes 8 m.tb1))).1) m

/-! ### Verdict records (R391-R396) -/

/-- The code of a reason (R393). -/
def Reason.code : Reason → Nat
  | .none => 0 | .model => 1 | .slip => 2 | .memory => 3 | .late => 4 | .corrupt => 5 | .swap => 6 | .flush => 7 | .payload => 8

/-- DECISION, TOP, SCORES, ROUTE and DMOD of a VOUT payload, and whether a reserved byte is not 0 (R390). -/
def payloadBytes (p : Slot) : List Byte := slotBytes p
def payloadReserved (p : Slot) : Bool :=
  let b := payloadBytes p
  (slice b 2 2 ++ slice b 20 4 ++ slice b 26 38).any (· != 0)

/-- The reason of a record that a VOUT writes: the first that applies of MEMORY, SLIP, PAYLOAD, MODEL (R392). -/
def voutReason (flags : BitVec 16) (p : Slot) : Reason :=
  let d := fieldAt (payloadBytes p) 0 1
  if bitAt flags 3 then .memory else if bitAt flags 2 then .slip
  else if 2 < d ∨ payloadReserved p then .payload else if d = 2 then .model else .none

/-- The running weave that owns a part. -/
def Mach.weaveOf (m : Mach) (serial : Nat) : Option RunWeave := m.wv.running.find? fun w => w.serial == serial
/-- The recipe that a part belongs to: that of its weave; between two weaves of a drain, the one in force (R258, R489). -/
def Mach.recipeOf (m : Mach) (serial : Nat) : Option Recipe :=
  match m.weaveOf serial with
  | some w => w.recipe
  | none => if serial = m.prep.serial then m.prep.recipe else none

/-- The group of a part, as its recipe has it. -/
def Mach.groupOf (m : Mach) (p : Part) : Option GroupCfg :=
  match m.recipeOf p.weave with
  | some r => r.groups.lookup p.group
  | none => none

/-- The position base of a part's recipe: true for TB4. -/
def Mach.baseOf (m : Mach) (serial : Nat) : Bool :=
  match m.recipeOf serial with
  | some r => r.tb4
  | none => false

/-- OVERSPEED is raised on a base (POS_STAT.OVS0, OVS1). -/
def Mach.ovs (m : Mach) (b : Bool) : Bool := m.bit (rEncStat (b2n b)) 4

/-- What of a record comes from a VOUT: DECISION when no reason applies, TOP, SCORES, the flags and whether it was routed. -/
structure Ballot where
  decision : Nat
  top : Nat
  scores : List Byte
  tally : BitVec 64
  keyed : Bool
  remote : Bool
  flags : BitVec 16
deriving DecidableEq, Repr

/-- A record without a VOUT: TOP, SCORES and TALLY are 0 (R394). -/
def Ballot.none : Ballot := { decision := 2, top := 0, scores := zeros 16, tally := 0, keyed := false, remote := false, flags := 0 }

/-- The 64 bytes of a verdict record (R394). -/
def Mach.recordBytes (m : Mach) (p : Part) (b : Ballot) (r : Reason) (seq : W32) (lost : Bool) : List Byte :=
  let base := m.baseOf p.weave
  leBytes 4 seq.toNat ++ leBytes 6 p.idx.toNat ++ leBytes 2 m.hif.lot.num.toNat ++ leBytes 4 p.pt.toNat
    ++ leBytes 1 (if r = .none then b.decision else 2) ++ leBytes 1 r.code ++ leBytes 1 b.top
    ++ leBytes 1 (p.group % 4 + 4 * b2n base) ++ padTo 16 b.scores ++ leBytes 8 m.tb0
    ++ leBytes 8 (wrap 64 (m.tbp base)) ++ leBytes 8 b.tally.toNat ++ zeros 2
    ++ leBytes 1 (b2n lost + 2 * b2n b.keyed + 4 * b2n b.remote + 8 * b2n (m.ovs base)) ++ [1#8]

/-- A part is outstanding: it has no record yet. -/
def Prep.outstanding (p : Prep) : List Part := p.parts.filter fun x => !x.done

/-- A part's entry with a change. -/
def Prep.modPart (p : Prep) (idx : BitVec 48) (f : Part → Part) : Prep :=
  { p with parts := p.parts.map fun x => if x.idx = idx then f x else x }
def Prep.part (p : Prep) (idx : BitVec 48) : Option Part := p.parts.find? fun x => x.idx == idx && !x.done

/-- A record is committed to the RESULT queue of its part's group (R391, R394): SEQ advances for lost records too, LOST_BEFORE
says that one was lost since the last delivered, the record counts, the part is closed, the spout rules will be tested (R296),
and a record of an accepted part counts in its lot (R388). -/
def Mach.commitRecord (m : Mach) (p : Part) (b : Ballot) (r : Reason) : Mach :=
  let q := match m.groupOf p with
    | some g => g.result
    | none => 0
  let x := m.queue q
  let full := !m.qEn q || decide (m.qSize q ≤ x.held)
  let bytes := m.recordBytes p b r x.seq x.lostBefore
  let m := m.setQueue q { x with seq := x.seq + 1, lostBefore := x.lostBefore && full }
  let decision := if r = .none then b.decision else 2
  let m := (m.qPush q bytes).inc rHifCntRec
  let m := if m.tallySelected p.idx.toNat decision then m.writeTallyRing p.idx.toNat b.flags else m
  let prep := m.prep.modPart p.idx fun x => { x with done := true }
  let lot := if r = .swap then m.hif.lot else { m.hif.lot with records := m.hif.lot.records + 1 }
  let rules := match m.recipeOf p.weave with
    | some x => x.rules
    | none => []
  let rule : RuleReq := { decision := decision, pt := p.pt, smp := p.idx, tb4 := m.baseOf p.weave, rules := rules }
  { m with
    prep := prep, hif := { m.hif with lot := lot },
    pos := { m.pos with rules := m.pos.rules ++ [rule] },
    flt := m.flt.dropTallies p.idx.toNat }

/-- The record of an injected sample: P_T is 0, and it counts in no lot (R461). -/
def Mach.commitInjected (m : Mach) (x : Injected) (b : Ballot) (r : Reason) : Mach :=
  let p : Part :=
    { idx := x.idx, accepted := true, group := x.group, pt := 0, tag := 0, stripes := [], last := none, tl := none, bucket := none,
      batch := 0, place := 0, void := none, f3 := false, ovs := false, ref := .none, refPix := [], copy := .none, ready := true, done := false,
      weave := x.weave }
  let n := m.commitRecord p b r
  { n with
    hif := { n.hif with lot := m.hif.lot }, prep := { n.prep with injected := n.prep.injected.filter fun y => y.idx != x.idx } }

/-- Every outstanding sample receives a record with a reason at once, in index order (R391). -/
def Mach.flushAll (m : Mach) (r : Reason) : Mach :=
  m.prep.outstanding.foldl (fun m p => m.commitRecord p Ballot.none r) m

/-! ### The end of a lot (R388) -/

/-- The position base of the recipe in force. -/
def Mach.lotBase (m : Mach) : Bool :=
  match m.prep.recipe with
  | some r => r.tb4
  | none => false

/-- The lot closes once the position base has reached the P_END of its LOT_END (R388). -/
def Mach.lotClose (m : Mach) : Mach :=
  match m.hif.lot.ending with
  | none => m
  | some e =>
    if 0 ≤ diff32 (m.pos32 m.lotBase) e.1 then { m with hif := { m.hif with lot := { m.hif.lot with isOpen := false } } } else m

end Sys2Proof.Machine
end

