-- ==== Sys2Proof/Machine/Land.lean ====
section
/-! DEFINITION. The changes that operations leave behind: when they are recorded, in what order they land, and what each of them
does (R42, R108, R144-R148). -/
namespace Sys2Proof.Machine

/-! ### Recording a change -/

/-- A step counter has changed: the fabric freezes when it is that of FLT_RPL_TILE and has reached FLT_RPL_STOP, which is not 0 (R462). -/
def Mach.stopAt (m : Mach) (t : Nat) (step : W64) : Mach :=
  if m.reg64 rFltRplStopLo != 0 && step == m.reg64 rFltRplStopLo && t == m.rbits rFltRplTile 9 0 then
    { m with flt := { m.flt with stopHit := true } }
  else m

/-- The module with a change recorded: issued in cycle c, visible from cycle l. -/
def Mach.pushAt (m : Mach) (t : TileIdx) (c prio l : Nat) (e : Eff) : Mach :=
  { m with fx := m.fx ++ [{ tile := t, issue := c, prio := prio, land := l, eff := e }] }

/-- A change issued now with a latency. Priorities: 2 MAC, 4 VEC, 6 MOV (R42),
8 SYNC, 10 CTL; 1 flags of the sample, 11 tallies, 15 the sample register, 20 the inbound buffer. -/
def Mach.push (m : Mach) (t : TileIdx) (prio lat : Nat) (e : Eff) : Mach := m.pushAt t m.cyc prio (m.cyc + lat) e

/-- Two changes of the same pointer, counter or tag. -/
def Eff.same : Eff → Eff → Bool
  | .a n _, .a k _ => n == k
  | .g n _ _, .g k _ _ => n == k
  | .d n _, .d k _ => n == k
  | .acp _, .acp _ => true
  | .wcnt w _, .wcnt z _ => w == z
  | .tag s _, .tag z _ => s == z
  | _, _ => false

/-- A change of a pointer or tag. R42 orders MAC, VEC and MOV; where SYNC, CTL or the inbound buffer changes the same thing in the
same cycle the spec gives no order, and a free value decides which change lands last (log 18). -/
def Mach.pushPtr (m : Mach) (t : TileIdx) (prio : Nat) (e : Eff) : Mach :=
  let clash := fun (g : Fx) => g.tile == t && g.issue == m.cyc && g.land == m.cyc + 1 && g.eff.same e && (8 ≤ g.prio || 8 ≤ prio)
  if m.fx.any clash then
    let (b, m) := m.fresh 1
    m.push t (if prio = 20 then (if b = 1 then 20 else 0) else if b = 1 then 21 else 1) 1 e
  else m.push t prio 1 e

/-! ### Landing -/

/-- The 64 bytes of a slot enter a layer's tally: unit j of a stream (R455). -/
def TallyDesc.contribute (d : TallyDesc) (f : Flt) (smp : BitVec 48) (j : Nat) (v : Slot) : Flt :=
  let o := d.base + (j % d.p1) * d.s1 + (j / d.p1) * d.s2
  let bs := slotBytes v
  (List.range d.segn).foldl (fun (f : Flt) s =>
    let off := o + s * d.sstride
    if d.l ≤ off then f
    else
      let seg := slice bs (s * (64 / d.segn)) (min d.seglen (d.l - off))
      f.addTally smp.toNat d.layer (crcMulBytes (d.l - off - seg.length) (crc64 seg))) f

/-- A unit enters its stream; late contributions are counted (R455, R456). -/
def Mach.tallyUnit (m : Mach) (t : TileIdx) (st : BitVec 3) (v : Slot) (smp : BitVec 48) (j : Nat) (on late : Bool) : Mach :=
  let d := FMap.get (fun _ => TallyDesc.unused) (m.tile t).tally st.toNat
  if !on || d.layer == 0xFFFF then m
  else if late then m.inc rFltTlate
  else { m with flt := d.contribute m.flt smp j v }

/-- Skew K of a slot changed; beyond its limits it stays there and the overflow is reported (R160, R162). -/
def Mach.addSkew (m : Mach) (t s : Nat) (delta : Int) : Mach :=
  let k := m.skew t s + delta
  if k < -7 then (m.setSkew t s (-7)).dev 0 t { akind := 2, addr := t * 8192 + s }
  else if 7 < k then (m.setSkew t s 7).dev 0 t { akind := 2, addr := t * 8192 + s }
  else m.setSkew t s k

/-- The rows of an MM take their sums: vector v into row `row` + v (R48, R85-R90). -/
def mmRows (x : Tile) (row : BitVec 6) (fmt : Nat) (z : Bool) (act : Slot) (w : List (Nat × Slot)) (wsc : BitVec 256)
    (xa : BitVec 32) : List (Nat × Row) :=
  (List.range 4).foldl (fun (acc : List (Nat × Row)) v =>
    let r := (row.toNat + v) % 64
    let old := FMap.get (fun _ => 0) acc r
    let new := mkRow fun c =>
      macLane fmt (if z then none else some (lane old c)) (act.extractLsb' (128 * v) 128).toNat
        ((FMap.get (fun _ => (0 : Slot)) w (c / 4)).extractLsb' (128 * (c % 4)) 128).toNat
        (xa.extractLsb' (8 * v) 8).toNat (wsc.extractLsb' (8 * c) 8).toNat
    FMap.put (fun _ => 0) acc r new) x.acc

/-- What becomes of a slot's data once the MOV read has it: the changes that follow, issued in cycle c. -/
def Mach.moved (m : Mach) (t : TileIdx) (c : Nat) (v : Slot) : MovRead → Mach
  | .ldv x fmt h on =>
    if !on then m
    else
      let f := fmt.toNat
      let m := m.pushAt t c 6 (m.cyc + 3) (.v x (ldvMask f h) (unpackRow f h 0 v))
      if f = 7 then m.pushAt t c 6 (m.cyc + 3) (.v (x + 1) (ldvMask f h) (unpackRow f h 1 v)) else m
  | .cpy dst full on =>
    match dst with
    | none => m
    | some s =>
      let m := m.pushAt t c 6 (m.cyc + 3) (.slot s (if on then BitVec.allOnes 64 else 0) v)
      if full then m.pushAt t c 6 (m.cyc + 3) (.tag s true) else m
  | .put tile slot ovr on =>
    m.pushAt t c 6 (m.cyc + 1) (.flight
      { writer := BitVec.ofNat 16 t, target := .slot tile slot.toNat, data := if on then some v else none, ovr := ovr, gen := none,
        issue := c, due := m.cyc + putDelta t tile - 1, blocked := false, owner := .none })
  | .gst stack gran on =>
    m.pushAt t c 6 (m.cyc + 1) (.flight
      { writer := BitVec.ofNat 16 t, target := .gran stack.toNat gran.toNat, data := if on then some v else none, ovr := false,
        gen := none, issue := c, due := m.cyc + stackQ t stack.toNat, blocked := false, owner := .none })
  | .vout idx flags => m.pushAt t c 6 (m.cyc + 1) (.vout idx flags v)

/-- The bytes of a slot that a mask selects are written; the words written whole hold no ECC error any more (R136). -/
def Mach.mixInto (m : Mach) (t k : Nat) (mask : BitVec 64) (v : Slot) : Mach :=
  { m with mem := { m.mem with
      spad := writeBytes m.mem.spad (spadAddr t k) (slotBytes (mixSlot mask v (m.slot t k))),
      eccSpad := FMap.clear m.mem.eccSpad (fun w => w / 8 == t * 8192 + k && mask.extractLsb' (8 * (w % 8)) 8 == 0xFF#8),
      crecUe := FMap.put (fun _ => false) m.mem.crecUe (t * 8192 + k) false } }

/-- An ECC error met by a read: TILE_ERR, and F3 on the reading tile's current sample when it was not corrected (R136). -/
def Mach.spadEcc (m : Mach) (t : TileIdx) (s : BitVec 13) (ue : Bool) (smp : BitVec 48) : Mach :=
  if ue then
    let x := m.tile t
    (m.setTile t { x with flags := setFlagBit x.flags 3 }).raiseFab t 3 { akind := 2, addr := t.val * 8192 + s.toNat, sample := some smp }
  else m.raiseFab t 2 { akind := 2, addr := t.val * 8192 + s.toNat }

/-- What a change does when it lands. -/
def Mach.applyFx (m : Mach) (f : Fx) : Mach :=
  let t := f.tile
  let x := m.tile t
  match f.eff with
  | .v r mask val => m.setTile t { x with v := FMap.put (fun _ => 0) x.v r.toNat (mixRow mask val (x.vreg r)) }
  | .acc r val => m.setTile t { x with acc := FMap.put (fun _ => 0) x.acc r.toNat val }
  | .mm row fmt z act w wsc xa => m.setTile t { x with acc := mmRows x row fmt.toNat z act w wsc xa }
  | .acp v => m.setTile t { x with acp := v }
  | .wpart ws part val =>
    let w := x.wset ws
    let w := if part = 8 then { w with scale := val.setWidth 256 } else { w with parts := FMap.put (fun _ => 0) w.parts part.toNat val }
    m.setTile t (if ws then { x with ws1 := w } else { x with ws0 := w })
  | .wfmt ws fmt =>
    m.setTile t (if ws then { x with ws1 := { x.ws1 with fmt := fmt } } else { x with ws0 := { x.ws0 with fmt := fmt } })
  | .wcnt ws cnt =>
    m.setTile t (if ws then { x with ws1 := { x.ws1 with cnt := cnt } } else { x with ws0 := { x.ws0 with cnt := cnt } })
  | .scaleLatch v => m.setTile t { x with scaleLatch := v }
  | .xs v => m.setTile t { x with xs := v }
  | .a n idx => m.setTile t { x with a := FMap.put (fun _ => AReg.zero) x.a n.toNat { x.areg n with idx := idx } }
  | .g n st g => m.setTile t { x with g := FMap.put (fun _ => GReg.zero) x.g n.toNat { x.greg n with stack := st, gran := g } }
  | .d n base => m.setTile t { x with d := FMap.put (fun _ => DReg.zero) x.d n.toNat { x.dreg n with base := base } }
  | .smp idx flags => m.setTile t { x with smp := idx.getD x.smp, flags := flags, tallyCnt := [] }
  | .setFlag n => m.setTile t { x with flags := setFlagBit x.flags n.toNat }
  | .draw st d => m.setTile t { x with draws := FMap.put (fun _ => 0) x.draws st.toNat d }
  | .drawsClear => m.setTile t { x with draws := [] }
  | .spanLeft n => m.setTile t { x with spanLeft := n }
  | .slot s mask val => if mask = 0 then m else m.mixInto t s.toNat mask val
  | .tag s full => m.setTag t s.toNat full
  | .skew s d => m.addSkew t s.toNat d
  | .skewClear s => m.setSkew t s.toNat 0
  | .pc pc => m.setTile t { x with pc := pc }
  | .lc level count start depth =>
    m.setTile t { x with lc := FMap.put (fun _ => LoopReg.zero) x.lc level.toNat { count := count, start := start }, depth := depth }
  | .stepInc => (m.setTile t { x with step := x.step + 1 }).stopAt t (x.step + 1)
  | .halt => m.setTile t { x with mode := .halt }
  | .read s k => m.moved t f.issue (m.slot t s.toNat) k
  | .flight fl => { m with flights := m.flights ++ [fl] }
  | .chan q => { m with chanQ := m.chanQ ++ [q] }
  | .vout idx flags v =>
    { m with
      hif := { m.hif with vouts := m.hif.vouts ++ [{ idx := idx, flags := flags, payload := v, remote := false }] },
      flt := { m.flt with vouted := if m.flt.vouted.contains idx then m.flt.vouted else idx :: m.flt.vouted } }
  | .ecc s ue smp => m.spadEcc t s ue smp
  | .crec s =>
    { m with mem := { m.mem with crecUe := FMap.put (fun _ => false) m.mem.crecUe (t * 8192 + s.toNat) true } }
  | .arrayBusy til => m.setTile t { x with arrayFree := til }
  | .bankHold => m.setTile t { x with bankHeldAt := m.cyc + 1 }
  | .tally st s val smp j on late =>
    m.tallyUnit t st (match s with
      | some k => m.slot t k.toNat
      | none => val) smp j on late
  | .tallyCnt st n => m.setTile t { x with tallyCnt := FMap.put (fun _ => 0) x.tallyCnt st.toNat n }

/-- Changes that read a slot land after every write of their cycle. -/
def Eff.isRead : Eff → Bool
  | .read _ _ => true
  | .tally _ (some _) _ _ _ _ _ => true
  | _ => false

/-- The order of landing: issue cycle, then priority (R42). -/
def Fx.le (a b : Fx) : Bool :=
  if a.eff.isRead != b.eff.isRead then b.eff.isRead
  else decide (a.issue < b.issue) || (a.issue == b.issue && decide (a.prio ≤ b.prio))

/-- Every change due by the present cycle lands. -/
def Mach.landAll (m : Mach) : Mach :=
  let due := sortBy Fx.le (m.fx.filter fun f => decide (f.land ≤ m.cyc))
  due.foldl Mach.applyFx { m with fx := m.fx.filter fun f => !decide (f.land ≤ m.cyc) }

end Sys2Proof.Machine
end

