-- ==== Sys2Proof/Machine/Tags.lean ====
section
/-! DEFINITION. Tag modes of reads and writes of a tile's own slots: when they hold a bundle, and what they do to the tag, the skew
and the sample's flags when it issues, in its turn or in a slip (R60, R108, R159, R160). -/
namespace Sys2Proof.Machine

/-- A read with PEEK (1) or TAKE (2) is held: its slot is empty and its skew is not below 0 (R160 rules 3 and 4). -/
def Mach.readUnmet (m : Mach) (t : TileIdx) (s : BitVec 13) (tm : Nat) : Bool :=
  (tm == 1 || tm == 2) && !m.tag t s.toNat && decide (0 ≤ m.skew t s.toNat)

/-- The flags of a tile's sample as a bundle that issues now sees them: with what its own operations have set in this cycle (R45, R136,
R160). -/
def Mach.flagsNow (m : Mach) (t : TileIdx) : BitVec 16 :=
  m.fx.foldl (fun fl f =>
    if f.tile == t && f.issue == m.cyc then
      match f.eff with
      | .setFlag n => setFlagBit fl n.toNat
      | .ecc _ true _ => setFlagBit fl 3
      | _ => fl
    else fl) (m.tile t).flags

/-- Tag, skew and flag effects of a read, and the errors that it meets. -/
def Mach.readSlot (m : Mach) (t : TileIdx) (s : BitVec 13) (tm prio : Nat) : Mach :=
  let full := m.tag t s.toNat
  let k := m.skew t s.toNat
  let tested := tm == 1 || tm == 2
  let m :=
    if !tested then m
    else
      let m := if !full && decide (k < 0) then m.push t 1 1 (.setFlag 2) else m
      if tm != 2 then m
      else if full then m.pushPtr t prio (.tag s false)
      else m.push t prio 1 (.skew s 1)
  let l := m.slotErrors t s.toNat
  let m := if l.contains .ce then m.push t 1 1 (.ecc s false (m.tile t).smp) else m
  let m := if l.contains .ue then m.push t 1 1 (.ecc s true (m.tile t).smp) else m
  if tested && FMap.get (fun _ => false) m.mem.crecUe (t * 8192 + s.toNat) then m.push t 1 1 (.setFlag 3) else m

/-- A local write with FILL (1) is held: its slot is full, or its skew is below 0 (R160 rule 2), unless it will be discarded.
Above 0 it is discarded at once, the slot full or not, DESIGN CHOICE (log 137). -/
def Mach.writeUnmet (m : Mach) (t : TileIdx) (s : BitVec 13) (tm : Nat) : Bool :=
  let k := m.skew t s.toNat
  tm == 1 && decide (k ≤ 0) && (m.tag t s.toNat || decide (k < 0))

/-- A local write with FILL is discarded: its skew is above 0 (R160 rule 1), or a slip lets it go unmet (R159). -/
def Mach.writeLost (m : Mach) (t : TileIdx) (s : BitVec 13) (tm : Nat) : Bool :=
  tm == 1 && (decide (0 < m.skew t s.toNat) || m.writeUnmet t s tm)

/-- A[n] is post-incremented (R59). -/
def Mach.incA (m : Mach) (t : TileIdx) (prio : Nat) (n : BitVec 4) (inc : Bool) : Mach :=
  if inc then m.pushPtr t prio (.a n ((m.tile t).incOf n)) else m

/-- The data part of a local write: the bytes of the mask and the tag, or K − 1 for a write that is lost; latency 3 (R148). A
predicated-off write keeps its place at the bank's write port and writes nothing (R44). -/
def Mach.storeSlot (m : Mach) (t : TileIdx) (s : BitVec 13) (tm prio : Nat) (on : Bool) (mask : BitVec 64) (v : Slot) : Mach :=
  if m.writeLost t s tm then m.push t prio 1 (.skew s (-1))
  else
    let m := m.push t prio 3 (.slot s (if on then mask else 0) v)
    if tm = 1 ∨ tm = 2 then m.push t prio 3 (.tag s true) else m

end Sys2Proof.Machine
end

