-- ==== Sys2Proof/Machine/Mov.lean ====
section
/-! DEFINITION. The MOV slot: what holds its operations and what they do when their bundle issues (R59-R64, R148). -/
namespace Sys2Proof.Machine

/-- A change on its way that holds an outbound entry: a PUT or GST that has not left its tile's router (R36, R148). -/
def Eff.sends : Eff → Bool
  | .flight _ => true
  | .read _ (.put _ _ _ _) => true
  | .read _ (.gst _ _ _) => true
  | _ => false

/-- The outbound entries of a tile in use: requests that have not left its router, and those that a full buffer keeps there (R36). -/
def Mach.outbound (m : Mach) (t : TileIdx) : Nat :=
  (m.flights.filter fun f => f.blocked && f.writer == BitVec.ofNat 16 t).length + (m.fx.filter fun f => f.tile == t && f.eff.sends).length

/-- The slot that the MAC operation of the bundle in hand reads, if it reads one. -/
def Tile.macSlot (x : Tile) : Option (BitVec 13) :=
  x.bundle.findSome? fun
    | .macMm _ _ f => some (x.eff f.n 0)
    | .macWld _ _ f => some (x.eff f.n 0)
    | .macXld _ _ f => some (x.eff f.n 0)
    | _ => none

/-- The MOV read of a slot: at once, or one cycle later, with a bank hold of the next bundle, when the MAC operation reads the
same bank (R33, R145). -/
def Mach.movRead (m : Mach) (t : TileIdx) (s : BitVec 13) (k : MovRead) : Mach :=
  if (m.tile t).macSlot.any fun z => z.toNat % 8 == s.toNat % 8 then (m.push t 6 1 .bankHold).push t 6 1 (.read s k)
  else m.moved t m.cyc (m.slot t s.toNat) k

/-- Held by the tag of the slot read through A[n]. -/
def Mach.unmetRead (m : Mach) (t : TileIdx) (n : BitVec 4) (off : BitVec 11) (tm : Nat) : Unmet :=
  { Unmet.none with tag := m.readUnmet t ((m.tile t).eff n off) tm }

/-- LDV (R60-R62). -/
def Mach.issueLdv (m : Mach) (t : TileIdx) (p : Pred) (f : LdvF) : Mach :=
  let x := m.tile t
  let s := x.eff f.n f.off
  ((m.movRead t s (.ldv f.x f.fmt f.h (!x.predOff p))).readSlot t s (tmInForce f) 6).incA t 6 f.n f.inc

/-- STV (R60-R62). -/
def Mach.unmetStv (m : Mach) (t : TileIdx) (f : LdvF) : Unmet :=
  { Unmet.none with tag := m.writeUnmet t ((m.tile t).eff f.n f.off) (tmInForce f) }
def Mach.issueStv (m : Mach) (t : TileIdx) (p : Pred) (f : LdvF) : Mach :=
  let x := m.tile t
  let v := packSlot f.fmt.toNat f.h (x.vreg f.x) (x.vreg (f.x + 1))
  (m.storeSlot t (x.eff f.n f.off) (tmInForce f) 6 (!x.predOff p) (stvMask f.fmt.toNat f.h) v).incA t 6 f.n f.inc

/-- CPY: both tag conditions, the source under TM and the destination under TM2. -/
def Mach.unmetCpy (m : Mach) (t : TileIdx) (f : CpyF) : Unmet :=
  let x := m.tile t
  { Unmet.none with
    tag := m.readUnmet t (x.eff f.n f.off) f.tm.toNat || m.writeUnmet t (x.eff f.m 0) f.tm2.toNat }
def Mach.issueCpy (m : Mach) (t : TileIdx) (p : Pred) (f : CpyF) : Mach :=
  let x := m.tile t
  let s := x.eff f.n f.off
  let d := x.eff f.m 0
  let lost := m.writeLost t d f.tm2.toNat
  let m := m.movRead t s (.cpy (if lost then none else some d) (f.tm2 = 1 || f.tm2 = 2) (!x.predOff p))
  let m := if lost then m.push t 6 1 (.skew d (-1)) else m
  (m.readSlot t s f.tm.toNat 6).incA t 6 f.n f.inc

/-- The remote slot of a PUT: D[m].base + OFF; a free value where the sum passes the last slot, for which the spec states no target
(log 19). -/
def Mach.putSlot (m : Mach) (t : TileIdx) (f : PutF) : BitVec 13 × Mach :=
  let n := ((m.tile t).dreg f.m).base.toNat + f.off.toNat
  if n < 8192 then (BitVec.ofNat 13 n, m) else m.fresh 13
/-- A register moved by its stride, or a free value where it would leave its range (log 19). -/
def Mach.strided (m : Mach) (w cur : Nat) (stride : Int) : BitVec w × Mach :=
  let n := (cur : Int) + stride
  if 0 ≤ n ∧ n < 2 ^ w then (BitVec.ofInt w n, m) else m.fresh w

/-- PUT, GLD and GST need an outbound entry where they send a write (R36). -/
def Mach.unmetPut (m : Mach) (t : TileIdx) (f : PutF) : Unmet :=
  { m.unmetRead t f.n 0 f.tm.toNat with que := decide (16 ≤ m.outbound t) }
def Mach.issuePut (m : Mach) (t : TileIdx) (p : Pred) (f : PutF) : Mach :=
  let x := m.tile t
  let s := x.eff f.n 0
  let d := x.dreg f.m
  let (slot, m) := m.putSlot t f
  let m := m.movRead t s (.put (Fin.ofNat 576 d.tile.toNat) slot f.dm (!x.predOff p))
  let m :=
    if f.dinc then
      let (b, m) := m.strided 13 d.base.toNat d.stride
      m.pushPtr t 6 (.d f.m b)
    else m
  (m.readSlot t s f.tm.toNat 6).incA t 6 f.n f.inc

/-- G[m] after GINC. -/
def Mach.incG (m : Mach) (t : TileIdx) (k : BitVec 3) (inc : Bool) : Mach :=
  let g := (m.tile t).greg k
  if inc then
    let (n, m) := m.strided 22 g.gran.toNat g.stride
    m.pushPtr t 6 (.g k g.stack n)
  else m

/-- GLD: the local slot's write mode is applied when it issues; a FILL waits for empty, and in a slip the request is not sent
(R63, R159). -/
def Mach.unmetGld (m : Mach) (t : TileIdx) (f : GldF) : Unmet :=
  let s := (m.tile t).eff f.n 0
  { Unmet.none with tag := f.tm == 1 && (m.tag t s.toNat || decide (m.skew t s.toNat < 0)) }
def Mach.issueGld (m : Mach) (t : TileIdx) (p : Pred) (f : GldF) : Mach :=
  let x := m.tile t
  let s := x.eff f.n 0
  let g := x.greg f.m
  let m :=
    if (m.unmetGld t f).tag then m.push t 6 1 (.skew s (-1))
    else
      m.push t 6 1 (.chan
        { stack := g.stack.toNat, gran := g.gran.toNat, requester := t, sched := true, due := m.cyc + stackQ t g.stack.toNat,
          read := some (.gld t s f.tm (x.predOff p) (m.cyc + stackS t g.stack.toNat)), write := none })
  (m.incG t f.m f.ginc).incA t 6 f.n f.inc

def Mach.unmetGst (m : Mach) (t : TileIdx) (f : GldF) : Unmet :=
  { m.unmetRead t f.n 0 f.tm.toNat with que := decide (16 ≤ m.outbound t) }
def Mach.issueGst (m : Mach) (t : TileIdx) (p : Pred) (f : GldF) : Mach :=
  let x := m.tile t
  let s := x.eff f.n 0
  let g := x.greg f.m
  let m := m.movRead t s (.gst g.stack g.gran (!x.predOff p))
  (((m.incG t f.m f.ginc).readSlot t s f.tm.toNat 6).incA t 6 f.n f.inc)

/-- SETA: A[n] takes IMM13; a predicated-off one writes nothing. -/
def Mach.issueSeta (m : Mach) (t : TileIdx) (p : Pred) (n : BitVec 4) (imm : BitVec 13) : Mach :=
  if (m.tile t).predOff p then m else m.pushPtr t 6 (.a n imm)

/-- TAGS: the tag takes T and the skew 0, unless it is predicated off (R44, R160). -/
def Mach.issueTags (m : Mach) (t : TileIdx) (p : Pred) (n : BitVec 4) (inc tag : Bool) (off : BitVec 11) : Mach :=
  let x := m.tile t
  let s := x.eff n off
  let m := if x.predOff p then m else (m.pushPtr t 6 (.tag s tag)).push t 6 1 (.skewClear s)
  m.incA t 6 n inc

/-- VOUT is never predicated off (R64); the flags at issue hold what its own read and the bundle's other operations set in this cycle
(R45, R390). -/
def Mach.issueVout (m : Mach) (t : TileIdx) (n : BitVec 4) (tm : BitVec 2) (inc : Bool) : Mach :=
  let x := m.tile t
  let s := x.eff n 0
  let fl := (m.readSlot t s tm.toNat 6).flagsNow t
  ((m.movRead t s (.vout x.smp fl)).readSlot t s tm.toNat 6).incA t 6 n inc

end Sys2Proof.Machine
end

