-- ==== Sys2Proof/Machine/Ctl.lean ====
section
/-! DEFINITION. The CTL slot: what its operations do when their bundle issues (R38, R67, R455). -/
namespace Sys2Proof.Machine

/-- The next bundle is the following one; the counter advances from 2 047 to 0 (R37). -/
def Mach.nextPc (m : Mach) (t : TileIdx) : Mach := m.push t 10 1 (.pc ((m.tile t).pc + 1))

/-- LOOP: LC[level] := C[n]; the loop starts at the following bundle. -/
def Mach.issueLoop (m : Mach) (t : TileIdx) (level : BitVec 2) (n : BitVec 4) : Mach :=
  let x := m.tile t
  (m.push t 10 1 (.lc level (x.creg n) (x.pc + 1) (level.toNat + 1))).nextPc t

/-- ENDL (R67). -/
def Mach.issueEndl (m : Mach) (t : TileIdx) (level : BitVec 2) : Mach :=
  let x := m.tile t
  let r := x.loopReg level
  if 1 < r.count.toNat then
    (m.push t 10 1 (.lc level (r.count - 1) r.start x.depth)).push t 10 1 (.pc r.start)
  else (m.push t 10 1 (.lc level 0 r.start level.toNat)).nextPc t

/-- STEP: the step counter advances and the entry bundle follows (R38). -/
def Mach.issueStep (m : Mach) (t : TileIdx) : Mach := (m.push t 10 1 .stepInc).push t 10 1 (.pc (m.tile t).entry)

/-- A register back at its descriptor value. -/
def Mach.resetA (m : Mach) (t : TileIdx) (n : BitVec 4) : Mach := m.pushPtr t 10 (.a n ((m.tile t).areg n).idx0)
def Mach.resetG (m : Mach) (t : TileIdx) (n : BitVec 3) : Mach :=
  let g := (m.tile t).greg n
  m.pushPtr t 10 (.g n g.stack0 g.gran0)
def Mach.resetD (m : Mach) (t : TileIdx) (n : BitVec 3) : Mach := m.pushPtr t 10 (.d n ((m.tile t).dreg n).base0)
def Mach.resetAcp (m : Mach) (t : TileIdx) : Mach := m.pushPtr t 10 (.acp 0)
def Mach.resetParts (m : Mach) (t : TileIdx) : Mach := (m.pushPtr t 10 (.wcnt false 0)).pushPtr t 10 (.wcnt true 0)

/-- ARST by kind. -/
def Mach.issueArst (m : Mach) (t : TileIdx) (kind : BitVec 3) (index : BitVec 4) : Mach :=
  let m := match kind.toNat with
    | 0 => m.resetA t index
    | 1 => m.resetG t (index.setWidth 3)
    | 2 => m.resetD t (index.setWidth 3)
    | 3 => m.resetAcp t
    | 4 => m.resetParts t
    | 5 =>
      let m := (List.range 16).foldl (fun (m : Mach) k => m.resetA t (BitVec.ofNat 4 k)) m
      let m := (List.range 8).foldl (fun (m : Mach) k => (m.resetG t (BitVec.ofNat 3 k)).resetD t (BitVec.ofNat 3 k)) m
      (m.resetAcp t).resetParts t
    | _ => m
  m.nextPc t

/-- A change on its way is the VOUT of a sample. -/
def Eff.isVout (e : Eff) (smp : BitVec 48) : Bool :=
  match e with
  | .vout i _ _ => i == smp
  | .read _ (.vout i _) => i == smp
  | _ => false

/-- The sample's VOUT has issued in an earlier cycle (R456). -/
def Mach.tallyLate (m : Mach) (smp : BitVec 48) : Bool :=
  m.flt.vouted.contains smp || m.fx.any fun f => decide (f.issue < m.cyc) && f.eff.isVout smp

/-- TALY: the slot that the bundle's STV or CPY leaves, or that its PUT reads, is a unit of the stream (R455). -/
def Mach.issueTaly (m : Mach) (t : TileIdx) (st : BitVec 3) : Mach :=
  let x := m.tile t
  let late := m.tallyLate x.smp
  let j := FMap.get (fun _ => 0) x.tallyCnt st.toNat
  let later := b2n (m.fx.any fun g => g.tile == t && g.issue == m.cyc && g.eff == .bankHold)
  let unit := fun (m : Mach) (p : Pred) (lat : Nat) (s : Option (BitVec 13)) (v : Slot) =>
    (m.push t 11 lat (.tally st s v x.smp j (!x.predOff p && !x.isPad) late)).push t 11 1 (.tallyCnt st (j + 1))
  let m := match x.bundle.findSome? fun
      | .movStv _ p f => some (unit m p 3 (some (x.eff f.n f.off)) 0)
      | .movCpy _ p f => some (unit m p (3 + later) (some (x.eff f.m 0)) 0)
      | .movPut _ p f =>
        let s := x.eff f.n 0
        some (unit m p 1 (if later = 1 then some s else none) (m.slot t s.toNat))
      | _ => none with
    | some m' => m'
    | none => m
  m.nextPc t

/-- HALT: the tile stops issuing. -/
def Mach.issueHalt (m : Mach) (t : TileIdx) : Mach := (m.push t 10 1 .halt).nextPc t

end Sys2Proof.Machine
end

