-- ==== Sys2Proof/Machine/Mac.lean ====
section
/-! DEFINITION. The MAC slot: what holds its operations and what they do when their bundle issues (R46-R52, R146). -/
namespace Sys2Proof.Machine

/-- The operations on a slot are held by its tag (R41). -/
def Mach.macUnmet (m : Mach) (t : TileIdx) (n : BitVec 4) (tm : BitVec 2) : Unmet :=
  { Unmet.none with tag := m.readUnmet t ((m.tile t).eff n 0) tm.toNat }

/-- The read that MM, WLD and XLD share: tag, errors and post-increment (R50). -/
def Mach.macRead (m : Mach) (t : TileIdx) (n : BitVec 4) (tm : BitVec 2) (inc : Bool) : Mach :=
  (m.readSlot t ((m.tile t).eff n 0) tm.toNat 2).incA t 2 n inc

/-- The array holds an MM while an earlier one occupies it (R52). -/
def Mach.unmetMm (m : Mach) (t : TileIdx) (f : MmF) : Unmet :=
  { m.macUnmet t f.n f.tm with bank := decide (m.cyc < (m.tile t).arrayFree) }

/-- MM (R48-R50, R52): four rows from the activation slot, the weight set and the scales as they stand in the issue cycle. A PH or
XSEL that the set's format forbids counts as 0 (R49). -/
def Mach.issueMm (m : Mach) (t : TileIdx) (p : Pred) (f : MmF) : Mach :=
  let x := m.tile t
  let w := x.wset f.ws
  let fmt := w.fmt.toNat
  let ph := f.ph && isMx8 fmt
  let xsel := if isMx fmt then f.xsel.toNat else 0
  let act := m.slot t (x.eff f.n 0).toNat
  let m := m.macRead t f.n f.tm f.inc
  let m := if isMx8 fmt && !ph then m.push t 2 1 (.scaleLatch w.scale) else m
  let m := m.push t 2 1 (.arrayBusy (m.cyc + macCycles fmt))
  let m := if f.p then m.pushPtr t 2 (.acp (x.acp + 4)) else m
  if x.predOff p then m
  else
    m.push t 2 (macLatency fmt)
      (.mm (x.acp + f.aoff) w.fmt f.z act w.parts (if ph then x.scaleLatch else w.scale) (x.xs.extractLsb' (32 * xsel) 32))

/-- The format of a weight set once the WLDs issued so far have landed (R51). -/
def Mach.wfmtAfter (m : Mach) (t : TileIdx) (ws : Bool) : BitVec 4 :=
  m.fx.foldl (fun fmt g => match g.eff with
    | .wfmt w f => if g.tile = t ∧ w = ws then f else fmt
    | _ => fmt) ((m.tile t).wset ws).fmt

/-- WLD (R51): the named part, or the one that the part counter names, which then advances. -/
def Mach.issueWld (m : Mach) (t : TileIdx) (p : Pred) (f : WldF) : Mach :=
  let x := m.tile t
  let w := x.wset f.ws
  let v := m.slot t (x.eff f.n 0).toNat
  let part : BitVec 4 := if f.part = 15 then w.cnt else f.part
  let m := m.macRead t f.n f.tm f.inc
  let m :=
    if x.predOff p then m
    else
      let m := m.push t 2 2 (.wpart f.ws part v)
      if part = 0 then m.push t 2 2 (.wfmt f.ws f.fmt) else m
  if f.part = 15 then
    let last : Nat := if isMx (m.wfmtAfter t f.ws).toNat then 8 else 7
    m.pushPtr t 2 (.wcnt f.ws (if last ≤ part.toNat then 0 else part + 1))
  else m

/-- XLD: byte i of the slot to XS[i]. -/
def Mach.issueXld (m : Mach) (t : TileIdx) (p : Pred) (f : XldF) : Mach :=
  let x := m.tile t
  let v := m.slot t (x.eff f.n 0).toNat
  let m := m.macRead t f.n f.tm f.inc
  if x.predOff p then m else m.push t 2 2 (.xs v)

/-- ACLR: rows ROW to ROW + CNT, modulo 64, become 0. -/
def Mach.issueAclr (m : Mach) (t : TileIdx) (p : Pred) (row cnt : BitVec 6) : Mach :=
  if (m.tile t).predOff p then m
  else (List.range (cnt.toNat + 1)).foldl (fun m i => m.push t 2 1 (.acc (row + BitVec.ofNat 6 i) 0)) m

end Sys2Proof.Machine
end

