-- ==== Sys2Proof/Machine/Sync.lean ====
section
/-! DEFINITION. The SYNC slot: what holds its operations and what they do when their bundle issues (R65, R66, R118, R130, R148,
R156, R159, R164). -/
namespace Sys2Proof.Machine

/-! ### LWAIT and LSIG -/

/-- The wait that a tile has pending: each tile has at most one (R130). -/
def Mach.waitOf (m : Mach) (t : TileIdx) : Option Wait := m.waits.find? fun w => w.who == .tile t

/-- The wait reaches the latch unit ℓ cycles after its bundle is first presented (R156). -/
def Mach.registerWait (m : Mach) (t : TileIdx) (n : BitVec 4) (imm : BitVec 8) : Mach :=
  if (m.waitOf t).isSome then m
  else
    let l := ((m.tile t).lreg n).toNat
    { m with waits := m.waits ++
        [{ latch := l, who := .tile t, amount := imm.toNat, first := m.cyc, arrive := m.cyc + latchL t l, granted := none }] }

/-- An LWAIT is held until its grant is back at the tile (R156). -/
def Mach.unmetLwait (m : Mach) (t : TileIdx) (n : BitVec 4) : Unmet :=
  let l := latchL t ((m.tile t).lreg n).toNat
  match m.waitOf t with
  | none => { Unmet.none with lat := true, grace := true }
  | some w =>
    let back := match w.granted with
      | some g => decide (g + l ≤ m.cyc)
      | none => false
    if back then Unmet.none else { Unmet.none with lat := true, grace := decide (m.cyc < w.first + 2 * l) }

/-- The wait is over, or is withdrawn in a slip (R159). A count that the latch has granted and whose grant is not back when the bundle slips
stays taken, DESIGN CHOICE (log 139). -/
def Mach.issueLwait (m : Mach) (t : TileIdx) : Mach := { m with waits := m.waits.filter fun w => w.who != .tile t }

/-- LSIG: the signal arrives ℓ cycles later (R148). -/
def Mach.issueLsig (m : Mach) (t : TileIdx) (n : BitVec 4) (imm : BitVec 8) : Mach :=
  let l := ((m.tile t).lreg n).toNat
  { m with signals := m.signals ++
      [{ latch := l, amount := imm.toNat, src := BitVec.ofNat 16 t, issue := m.cyc, due := m.cyc + latchL t l }] }

/-! ### NEXT and PASS -/

def Mach.unmetNext (m : Mach) (t : TileIdx) (n : BitVec 4) : Unmet :=
  { Unmet.none with tag := m.readUnmet t ((m.tile t).eff n 0) 2 }

/-- The draw counters become 0. When a GEN of the same bundle advances one, the spec does not say which change prevails, and a
free value decides (log 18). -/
def Mach.clearDraws (m : Mach) (t : TileIdx) : Mach :=
  let clash := m.fx.any fun g => g.tile == t && g.issue == m.cyc && (match g.eff with
    | .draw _ _ => true
    | _ => false)
  if clash then
    let (b, m) := m.fresh 1
    m.push t (if b = 1 then 8 else 1) 1 .drawsClear
  else m.push t 8 1 .drawsClear

/-- NEXT: the sample register from the descriptor slot, F2 besides in a slip's span (R164); an empty slot that a skew or a slip
lets through leaves the index and loads F1 and F2 (R159, R160). An uncorrectable error of the slot marks the sample that it
loads, DEDUCED (log 20). A NEXT that a slip lets through empty uses up one sample of the span like any other, DESIGN CHOICE (log 138). -/
def Mach.issueNext (m : Mach) (t : TileIdx) (n : BitVec 4) : Mach :=
  let x := m.tile t
  let s := x.eff n 0
  let bs := slotBytes (m.slot t s.toNat)
  let full := m.tag t s.toNat
  let ue := (m.slotErrors t s.toNat).contains .ue
  let fl := loadFlags (fieldAt bs 6 2) (x.spanLeft != 0)
  let fl := if ue then setFlagBit fl 3 else fl
  let m := (m.readSlot t s 2 8).incA t 8 n true
  let m := m.push t 15 1 (if full then .smp (some (BitVec.ofNat 48 (fieldAt bs 0 6))) fl else .smp none slipFlags)
  let m := m.push t 8 1 (.spanLeft (x.spanLeft - 1))
  m.clearDraws t

def Mach.unmetPass (m : Mach) (t : TileIdx) (n : BitVec 4) : Unmet :=
  { Unmet.none with tag := m.writeUnmet t ((m.tile t).eff n 0) 1 }

/-- The descriptor slot that PASS writes (R66). -/
def Tile.descriptor (x : Tile) (flags : BitVec 16) : Slot := bytesSlot (leBytes 6 x.smp.toNat ++ leBytes 2 flags.toNat ++ zeros 56)

/-- PASS (R66). -/
def Mach.issuePass (m : Mach) (t : TileIdx) (n : BitVec 4) : Mach :=
  let x := m.tile t
  (m.storeSlot t (x.eff n 0) 1 8 true (BitVec.allOnes 64) (x.descriptor (m.flagsNow t))).incA t 8 n true

/-! ### WOPN and WCLS (R118) -/

/-- A window opened: the generation advances, also when it was open. -/
def Window.opened (w : Window) : Window := { w with isOpen := true, gen := w.gen % 4095 + 1 }
def Window.closed (w : Window) : Window := { w with isOpen := false }
/-- What WOPN or WCLS makes of a window: one whose lease is revoked stays closed as it is (R135). -/
def Window.change (w : Window) (opens : Bool) : Window := if w.revoked then w else if opens then w.opened else w.closed

/-- A scratchpad window changes in the issue cycle, a stack window at its stack q cycles later (R118, R148). -/
def Mach.changeWindow (m : Mach) (t : TileIdx) (w : BitVec 3) (opens : Bool) : Mach :=
  let x := m.win t w.toNat
  if x.kind then
    { m with winUpds := m.winUpds ++ [{ tile := t, w := w, opens := opens, issue := m.cyc, due := m.cyc + stackQ t x.stack }] }
  else m.setWin t w.toNat (x.change opens)

def Mach.issueWopn (m : Mach) (t : TileIdx) (w : BitVec 3) : Mach := m.changeWindow t w true
def Mach.issueWcls (m : Mach) (t : TileIdx) (w : BitVec 3) : Mach := m.changeWindow t w false

end Sys2Proof.Machine
end

