-- ==== Sys2Proof/Machine/Vec.lean ====
section
/-! DEFINITION. The VEC slot: the row each operation computes, its latency, and what it does when its bundle issues (R53-R58, R147). -/
namespace Sys2Proof.Machine

/-- A lane function by TYPE: FP32, INT32, or BF16-in-FP32, which rounds the FP32 result to BF16 precision (R53). -/
def typed (ty : BitVec 3) (fp int : W32) : W32 := if ty = 1 then int else if ty = 2 then toBf16 fp else fp

/-- A lane of a source row. -/
def elem (v : Row) (i : Nat) : W32 := lane v i

/-- One row from the lanes of va, vb and vc. -/
def Tile.lanes3 (x : Tile) (f : VecF) (op : W32 → W32 → W32 → W32) : Row :=
  let a := x.vreg f.va
  let b := x.vreg f.vb
  let c := x.vreg f.vc
  mkRow fun i => op (lane a i) (lane b i) (lane c i)

/-- The result of an operation goes to V[VD] unless it is predicated off (R43, R44). -/
def Mach.vecResult (m : Mach) (t : TileIdx) (p : Pred) (f : VecF) (lat : Nat) (row : Row) : Mach :=
  if (m.tile t).predOff p then m else m.push t 4 lat (.v f.vd 0xFFFFFFFF row)

/-- Latency by TYPE (R147): FP32, INT32, BF16. -/
def latOf (ty : BitVec 3) (fp int bf : Nat) : Nat := if ty = 1 then int else if ty = 2 then bf else fp

def Mach.issueAdd (m : Mach) (t : TileIdx) (p : Pred) (f : VecF) : Mach :=
  m.vecResult t p f (latOf f.ty 4 2 5) ((m.tile t).lanes3 f fun a b _ => typed f.ty (addF a b) (a + b))
def Mach.issueSub (m : Mach) (t : TileIdx) (p : Pred) (f : VecF) : Mach :=
  m.vecResult t p f (latOf f.ty 4 2 5) ((m.tile t).lanes3 f fun a b _ => typed f.ty (subF a b) (a - b))
def Mach.issueMul (m : Mach) (t : TileIdx) (p : Pred) (f : VecF) : Mach :=
  m.vecResult t p f (latOf f.ty 4 4 5) ((m.tile t).lanes3 f fun a b _ => typed f.ty (mulF a b) (a * b))
/-- FMA rounds once; INT32 wraps. -/
def Mach.issueFma (m : Mach) (t : TileIdx) (p : Pred) (f : VecF) : Mach :=
  m.vecResult t p f (latOf f.ty 5 4 6) ((m.tile t).lanes3 f fun a b c => typed f.ty (fmaF a b c) (a * b + c))
def Mach.issueMin (m : Mach) (t : TileIdx) (p : Pred) (f : VecF) : Mach :=
  m.vecResult t p f 2 ((m.tile t).lanes3 f fun a b _ => typed f.ty (minF a b) (minI a b))
def Mach.issueMax (m : Mach) (t : TileIdx) (p : Pred) (f : VecF) : Mach :=
  m.vecResult t p f 2 ((m.tile t).lanes3 f fun a b _ => typed f.ty (maxF a b) (maxI a b))
def Mach.issueAbs (m : Mach) (t : TileIdx) (p : Pred) (f : VecF) : Mach :=
  m.vecResult t p f 2 ((m.tile t).lanes3 f fun a _ _ => typed f.ty (absF a) (absI a))
def Mach.issueNeg (m : Mach) (t : TileIdx) (p : Pred) (f : VecF) : Mach :=
  m.vecResult t p f 2 ((m.tile t).lanes3 f fun a _ _ => typed f.ty (negF a) (negI a))
def Mach.issueClt (m : Mach) (t : TileIdx) (p : Pred) (f : VecF) : Mach :=
  m.vecResult t p f 2 ((m.tile t).lanes3 f fun a b _ => if f.ty = 1 then cltI a b else cltF a b)
def Mach.issueCeq (m : Mach) (t : TileIdx) (p : Pred) (f : VecF) : Mach :=
  m.vecResult t p f 2 ((m.tile t).lanes3 f fun a b _ => if f.ty = 1 then ceqI a b else ceqF a b)
/-- SEL tests the 32 bits of vc. -/
def Mach.issueSel (m : Mach) (t : TileIdx) (p : Pred) (f : VecF) : Mach :=
  m.vecResult t p f 1 ((m.tile t).lanes3 f fun a b c => if c = 0 then b else a)
def Mach.issueAnd (m : Mach) (t : TileIdx) (p : Pred) (f : VecF) : Mach :=
  m.vecResult t p f 1 ((m.tile t).lanes3 f fun a b _ => a &&& b)
def Mach.issueOr (m : Mach) (t : TileIdx) (p : Pred) (f : VecF) : Mach :=
  m.vecResult t p f 1 ((m.tile t).lanes3 f fun a b _ => a ||| b)
def Mach.issueXor (m : Mach) (t : TileIdx) (p : Pred) (f : VecF) : Mach :=
  m.vecResult t p f 1 ((m.tile t).lanes3 f fun a b _ => a ^^^ b)
def Mach.issueShl (m : Mach) (t : TileIdx) (p : Pred) (f : VecF) : Mach :=
  m.vecResult t p f 1 ((m.tile t).lanes3 f fun a b _ => a <<< (b.toNat % 32))
def Mach.issueShr (m : Mach) (t : TileIdx) (p : Pred) (f : VecF) : Mach :=
  m.vecResult t p f 1 ((m.tile t).lanes3 f fun a b _ => a >>> (b.toNat % 32))
def Mach.issueSra (m : Mach) (t : TileIdx) (p : Pred) (f : VecF) : Mach :=
  m.vecResult t p f 1 ((m.tile t).lanes3 f fun a b _ => a.sshiftRight (b.toNat % 32))
def Mach.issueRcp (m : Mach) (t : TileIdx) (p : Pred) (f : VecF) : Mach :=
  m.vecResult t p f 10 ((m.tile t).lanes3 f fun a _ _ => rcpF a)
def Mach.issueRsq (m : Mach) (t : TileIdx) (p : Pred) (f : VecF) : Mach :=
  m.vecResult t p f 10 ((m.tile t).lanes3 f fun a _ _ => rsqF a)
def Mach.issueExp2 (m : Mach) (t : TileIdx) (p : Pred) (f : VecF) : Mach :=
  m.vecResult t p f 10 ((m.tile t).lanes3 f fun a _ _ => exp2F a)
def Mach.issueLog2 (m : Mach) (t : TileIdx) (p : Pred) (f : VecF) : Mach :=
  m.vecResult t p f 10 ((m.tile t).lanes3 f fun a _ _ => log2F a)
/-- RSUM: every lane takes the tree sum (R55). -/
def Mach.issueRsum (m : Mach) (t : TileIdx) (p : Pred) (f : VecF) : Mach :=
  m.vecResult t p f (latOf f.ty 14 8 14)
    (splat (treeOf (fun a b => if f.ty = 1 then a + b else addF a b) ((m.tile t).vreg f.va)))
/-- RMAX: every lane takes the tree maximum (R55). -/
def Mach.issueRmax (m : Mach) (t : TileIdx) (p : Pred) (f : VecF) : Mach :=
  m.vecResult t p f (latOf f.ty 14 8 14)
    (splat (treeOf (fun a b => if f.ty = 1 then maxI a b else maxF a b) ((m.tile t).vreg f.va)))
def Mach.issueShuf (m : Mach) (t : TileIdx) (p : Pred) (f : VecF) : Mach :=
  m.vecResult t p f 2 (mkRow fun i => elem ((m.tile t).vreg f.va) (Nat.xor i f.vc.toNat))
def Mach.issueRot (m : Mach) (t : TileIdx) (p : Pred) (f : VecF) : Mach :=
  m.vecResult t p f 2 (mkRow fun i => elem ((m.tile t).vreg f.va) ((i + f.vc.toNat) % 32))
def Mach.issueBcst (m : Mach) (t : TileIdx) (p : Pred) (f : VecF) : Mach :=
  m.vecResult t p f 2 (splat (elem ((m.tile t).vreg f.va) f.vc.toNat))
/-- CVT: the conversion that IMM5 selects (R56). -/
def Mach.issueCvt (m : Mach) (t : TileIdx) (p : Pred) (f : VecF) : Mach :=
  m.vecResult t p f 3 ((m.tile t).lanes3 f fun a _ _ => cvt f.vc.toNat a)
/-- QNT: va with scale word vb and zero point vc, output by MOD (R57, R97). -/
def Mach.issueQnt (m : Mach) (t : TileIdx) (p : Pred) (f : VecF) : Mach :=
  m.vecResult t p f 4 ((m.tile t).lanes3 f fun a b c => qnt f.md.toNat a b c)
def Mach.issueSrnd (m : Mach) (t : TileIdx) (p : Pred) (f : VecF) : Mach :=
  m.vecResult t p f 2 ((m.tile t).lanes3 f fun a b _ => srnd a b)

/-- The generator's key for a tile: the seed of the recipe admitted for the weave that uses it, 0 without one (R58); in an
adaptation program the seed plus the version number times the constant of R261. -/
def Mach.genKey (m : Mach) (t : TileIdx) : BitVec 64 :=
  let weave := m.wv.running.find? fun w => w.hdr.tiles.getLsbD t
  let recipe := if (m.tile t).adapt then m.prep.recipe else weave.bind fun w => w.recipe
  let seed := (recipe.map fun r => r.seed).getD 0
  if (m.tile t).adapt then
    seed + BitVec.ofNat 64 ((m.adapt.run.map fun r => r.version).getD 0 * 0x9E3779B97F4A7C15)
  else seed

/-- GEN: 32 draws of stream IMM5 for the current sample; the counter advances also when it is predicated off (R58, R44). -/
def Mach.issueGen (m : Mach) (t : TileIdx) (p : Pred) (f : VecF) : Mach :=
  let x := m.tile t
  let d := x.drawOf f.vc
  let m := m.vecResult t p f 6
    (mkRow fun i => gen (m.genKey t) x.smp.toNat f.vc.toNat ((d.toNat + i) % 256))
  m.push t 4 1 (.draw f.vc (d + 32))

/-- The accumulator row that RDAC and WRAC name: {MOD[0], VA}. -/
def accRowOf (f : VecF) : BitVec 6 := BitVec.ofNat 6 (32 * bits f.md 0 0 + f.va.toNat)

/-- RDAC: the row as it stands in the issue cycle; MOD[1] clears it in that cycle (R147). -/
def Mach.issueRdac (m : Mach) (t : TileIdx) (p : Pred) (f : VecF) : Mach :=
  let x := m.tile t
  let m := m.vecResult t p f 2 (x.accRow (accRowOf f))
  if bitAt f.md 1 && !x.predOff p then m.push t 4 1 (.acc (accRowOf f) 0) else m
/-- WRAC: the row takes V[VD]. -/
def Mach.issueWrac (m : Mach) (t : TileIdx) (p : Pred) (f : VecF) : Mach :=
  let x := m.tile t
  if x.predOff p then m else m.push t 4 2 (.acc (accRowOf f) (x.vreg f.vd))
def Mach.issueMovv (m : Mach) (t : TileIdx) (p : Pred) (f : VecF) : Mach :=
  m.vecResult t p f 1 ((m.tile t).vreg f.va)

end Sys2Proof.Machine
end

