-- ==== Sys2Proof/Machine/Issue.lean ====
section
/-! DEFINITION. A bundle in the hands of the sequencer: the conditions that hold it, its issue, its holds cycle by cycle, and the
passing of a cycle (R33, R41-R44, R157-R163). -/
namespace Sys2Proof.Machine

/-- The conditions of an operation that are unmet (R41). -/
def Mach.opUnmet (m : Mach) (t : TileIdx) : Instr → Unmet
  | .macMm _ _ f => m.unmetMm t f
  | .macWld _ _ f => m.macUnmet t f.n f.tm
  | .macXld _ _ f => m.macUnmet t f.n f.tm
  | .movLdv _ _ f => m.unmetRead t f.n f.off (tmInForce f)
  | .movStv _ _ f => m.unmetStv t f
  | .movCpy _ _ f => m.unmetCpy t f
  | .movPut _ _ f => m.unmetPut t f
  | .movGld _ _ f => m.unmetGld t f
  | .movGst _ _ f => m.unmetGst t f
  | .movVout _ n tm _ => m.unmetRead t n 0 tm.toNat
  | .syncLwait _ n _ => m.unmetLwait t n
  | .syncNext _ n => m.unmetNext t n
  | .syncPass _ n => m.unmetPass t n
  | _ => Unmet.none

/-- What an operation does when its bundle issues. -/
def Mach.issueOp (m : Mach) (t : TileIdx) : Instr → Mach
  | .nop _ sl => if sl = .ctl then m.nextPc t else m
  | .macMm _ p f => m.issueMm t p f
  | .macWld _ p f => m.issueWld t p f
  | .macXld _ p f => m.issueXld t p f
  | .macAclr _ p row cnt => m.issueAclr t p row cnt
  | .vecAdd _ p f => m.issueAdd t p f
  | .vecSub _ p f => m.issueSub t p f
  | .vecMul _ p f => m.issueMul t p f
  | .vecFma _ p f => m.issueFma t p f
  | .vecMin _ p f => m.issueMin t p f
  | .vecMax _ p f => m.issueMax t p f
  | .vecAbs _ p f => m.issueAbs t p f
  | .vecNeg _ p f => m.issueNeg t p f
  | .vecClt _ p f => m.issueClt t p f
  | .vecCeq _ p f => m.issueCeq t p f
  | .vecSel _ p f => m.issueSel t p f
  | .vecAnd _ p f => m.issueAnd t p f
  | .vecOr _ p f => m.issueOr t p f
  | .vecXor _ p f => m.issueXor t p f
  | .vecShl _ p f => m.issueShl t p f
  | .vecShr _ p f => m.issueShr t p f
  | .vecSra _ p f => m.issueSra t p f
  | .vecRcp _ p f => m.issueRcp t p f
  | .vecRsq _ p f => m.issueRsq t p f
  | .vecExp2 _ p f => m.issueExp2 t p f
  | .vecLog2 _ p f => m.issueLog2 t p f
  | .vecRsum _ p f => m.issueRsum t p f
  | .vecRmax _ p f => m.issueRmax t p f
  | .vecShuf _ p f => m.issueShuf t p f
  | .vecRot _ p f => m.issueRot t p f
  | .vecBcst _ p f => m.issueBcst t p f
  | .vecCvt _ p f => m.issueCvt t p f
  | .vecQnt _ p f => m.issueQnt t p f
  | .vecSrnd _ p f => m.issueSrnd t p f
  | .vecGen _ p f => m.issueGen t p f
  | .vecRdac _ p f => m.issueRdac t p f
  | .vecWrac _ p f => m.issueWrac t p f
  | .vecMovv _ p f => m.issueMovv t p f
  | .movLdv _ p f => m.issueLdv t p f
  | .movStv _ p f => m.issueStv t p f
  | .movCpy _ p f => m.issueCpy t p f
  | .movPut _ p f => m.issuePut t p f
  | .movGld _ p f => m.issueGld t p f
  | .movGst _ p f => m.issueGst t p f
  | .movSeta _ p n imm => m.issueSeta t p n imm
  | .movTags _ p n inc tag off => m.issueTags t p n inc tag off
  | .movVout _ n tm inc => m.issueVout t n tm inc
  | .syncLwait _ _ _ => m.issueLwait t
  | .syncLsig _ n imm => m.issueLsig t n imm
  | .syncNext _ n => m.issueNext t n
  | .syncPass _ n => m.issuePass t n
  | .syncWopn _ w => m.issueWopn t w
  | .syncWcls _ w => m.issueWcls t w
  | .ctlLoop _ level n => m.issueLoop t level n
  | .ctlEndl _ level => m.issueEndl t level
  | .ctlStep _ => m.issueStep t
  | .ctlArst _ kind index => m.issueArst t kind index
  | .ctlTaly _ st => m.issueTaly t st
  | .ctlHalt _ => m.issueHalt t
  | _ => m

/-- The predicate that an operation carries. -/
def predOf : Instr → Option Pred
  | .macMm _ p _ | .macWld _ p _ | .macXld _ p _ | .macAclr _ p _ _ => some p
  | .vecAdd _ p _ | .vecSub _ p _ | .vecMul _ p _ | .vecFma _ p _ | .vecMin _ p _ | .vecMax _ p _ | .vecAbs _ p _ | .vecNeg _ p _ => some p
  | .vecClt _ p _ | .vecCeq _ p _ | .vecSel _ p _ | .vecAnd _ p _ | .vecOr _ p _ | .vecXor _ p _ | .vecShl _ p _ | .vecShr _ p _ => some p
  | .vecSra _ p _ | .vecRcp _ p _ | .vecRsq _ p _ | .vecExp2 _ p _ | .vecLog2 _ p _ | .vecRsum _ p _ | .vecRmax _ p _ => some p
  | .vecShuf _ p _ | .vecRot _ p _ | .vecBcst _ p _ | .vecCvt _ p _ | .vecQnt _ p _ | .vecSrnd _ p _ | .vecGen _ p _ => some p
  | .vecRdac _ p _ | .vecWrac _ p _ | .vecMovv _ p _ => some p
  | .movLdv _ p _ | .movStv _ p _ | .movCpy _ p _ | .movPut _ p _ | .movGld _ p _ | .movGst _ p _ => some p
  | .movSeta _ p _ _ | .movTags _ p _ _ _ _ => some p
  | _ => none

/-- The slot an operation stands in, by number in the bundle (R40). -/
def slotNo : SlotName → Nat
  | .mac => 0
  | .vec => 1
  | .mov => 2
  | .sync => 3
  | .ctl => 4

/-- The slot of an operation. -/
def slotOf : Instr → SlotName
  | .nop _ sl => sl
  | .macMm _ _ _ | .macWld _ _ _ | .macXld _ _ _ | .macAclr _ _ _ _ => .mac
  | .movLdv _ _ _ | .movStv _ _ _ | .movCpy _ _ _ | .movPut _ _ _ | .movGld _ _ _ | .movGst _ _ _ | .movSeta _ _ _ _
  | .movTags _ _ _ _ _ _ | .movVout _ _ _ _ => .mov
  | .syncLwait _ _ _ | .syncLsig _ _ _ | .syncNext _ _ | .syncPass _ _ | .syncWopn _ _ | .syncWcls _ _ => .sync
  | .ctlLoop _ _ _ | .ctlEndl _ _ | .ctlStep _ | .ctlArst _ _ _ | .ctlTaly _ _ | .ctlHalt _ => .ctl
  | _ => .vec

/-- The counters of a tile count: TILE_CNT_CTL.EN outside confidential mode (R70). -/
def Mach.counting (m : Mach) (t : TileIdx) : Bool := m.bit (rTileCntCtl t) 0 && !m.sec.conf

/-- A 32-bit count that saturates. -/
def sat32 (n : Nat) : Nat := min n 0xFFFFFFFF

/-- The one cycle of a bank hold (R33). -/
def Mach.bankUnmet (m : Mach) (t : TileIdx) : Unmet := { Unmet.none with bank := (m.tile t).bankHeldAt == m.cyc + 1 }

/-- The conditions of the whole bundle that a tile presents. -/
def Mach.bundleUnmet (m : Mach) (t : TileIdx) : Unmet := (m.tile t).bundle.foldl (fun u i => u.or (m.opUnmet t i)) (m.bankUnmet t)

/-- The bundle has issued: counters, and a free place for the next one. A failing predicate of a slot that holds NOP switches nothing off
and does not count, DESIGN CHOICE (log 135). -/
def Mach.finish (m : Mach) (t : TileIdx) : Mach :=
  let x := m.tile t
  let off := x.bundle.any fun i => (predOf i).any fun p => x.predOff p
  let c := m.counting t
  m.setTile t { x with
    bundle := [], held := none, closed := false, slipped := false, counted := 0, issuedAt := m.cyc + 1,
    cntIssue := x.cntIssue + b2n c, cntPred := sat32 (x.cntPred + b2n (c && off)) }

/-- Every operation of the bundle issues. -/
def Mach.issueAll (m : Mach) (t : TileIdx) : Mach := ((m.tile t).bundle.foldl (fun m i => m.issueOp t i) m).finish t

/-- A held bundle is presented again: it issues when every condition holds, or, once it has slipped, when only conditions that a
slip resolves are left (R113, R159, R163). -/
def Mach.represent (m : Mach) (t : TileIdx) : Mach :=
  let x := m.tile t
  let u := m.bundleUnmet t
  if !u.any || (x.slipped && !u.que && !u.bank) then m.issueAll t
  else m.setTile t { x with held := some u.kind }

/-- A cycle in which the bundle was held: its counter and, where it counts, the slack budget (R70, R158). -/
def Mach.countHeld (m : Mach) (t : TileIdx) : Mach :=
  let x := m.tile t
  let u := m.bundleUnmet t
  let k := u.kind
  let one := b2n (m.counting t)
  m.setTile t { x with
    counted := x.counted + b2n u.counts,
    cntHtag := sat32 (x.cntHtag + if k = .tag then one else 0),
    cntHlat := sat32 (x.cntHlat + if k = .latch then one else 0),
    cntHque := sat32 (x.cntHque + if k = .queue then one else 0),
    cntHbank := sat32 (x.cntHbank + if k = .bank then one else 0) }

/-- The tile issues bundles: RUN or HOLD, and the fabric is not frozen (R39, R68, R459). -/
def Mach.issuing (m : Mach) (t : TileIdx) : Bool := (m.tile t).mode == .run && !m.flt.frozen && !((m.tile t).adapt && m.runFailed)

/-! ### A bundle is presented (R33, R40, R41) -/

/-- An operation joins the bundle: it issues, or the whole bundle is held and nothing of it issues (R41). -/
def Mach.offer (m : Mach) (t : TileIdx) (i : Instr) : Mach :=
  let m := match i with
    | .syncLwait _ n imm => m.registerWait t n imm
    | _ => m
  let x := m.tile t
  let u := (m.bankUnmet t).or (m.opUnmet t i)
  if x.held.isSome then
    m.setTile t { x with bundle := x.bundle ++ [i], held := some ((m.bundleUnmet t).or u).kind }
  else if u.any then
    { m with fx := m.fx.filter fun f => !(f.tile == t && f.issue == m.cyc && f.prio != 0 && f.prio != 20) }.setTile t
      { x with bundle := x.bundle ++ [i], held := some u.kind }
  else
    let m := m.issueOp t i
    let x := m.tile t
    m.setTile t { x with bundle := x.bundle ++ [i] }

/-- The bundle ends: it has issued, or the sequencer presents it until it issues. -/
def Mach.endBundle (m : Mach) (t : TileIdx) : Mach :=
  let x := m.tile t
  if x.held.isSome then m.setTile t { x with closed := true } else m.finish t

/-- An uncorrectable program memory error: the tile enters FAULT and issues nothing further (R136, R439). -/
def Mach.pmemFault (m : Mach) (t : TileIdx) : Mach :=
  let x := m.tile t
  (m.setTile t { x with mode := .fault, bundle := [], held := none, closed := false }).raiseFab t 1 { info := x.pc.toNat }

/-- The bundle at the program counter is read from program memory and presented. A corrected error is reported (R70, R136). The loader
lets in no bundle that decodes to nothing (R68). -/
def Mach.fetch (m : Mach) (t : TileIdx) : Mach :=
  let pc := (m.tile t).pc.toNat
  let e := FMap.get (fun _ => Ecc.ok) m.mem.eccPmem (2048 * t + pc)
  if e = .ue then m.pmemFault t
  else
    let m := if e = .ce then m.raiseFab t 0 { info := pc } else m
    let ops := (bundleOps t (FMap.get (fun _ => 0) m.mem.pmem (2048 * t + pc))).getD [.nop t .ctl]
    (ops.foldl (fun (m : Mach) i => m.offer t i) m).endBundle t

/-- The sequencer's turn in the present cycle (R38, R140, R142): a tile that is not held and whose start cycle has come presents the
bundle at its program counter, unless operations were presented to it in this cycle; a bundle in hand that lacks its last slots ends
with a NOP in them (log 21). -/
def Mach.sequence (m : Mach) (t : TileIdx) : Mach :=
  let x := m.tile t
  if !m.issuing t || x.closed || decide (m.cyc < x.startCycle) || x.issuedAt == m.cyc + 1 then m
  else if x.bundle.isEmpty then m.fetch t
  else (m.offer t (.nop t .ctl)).endBundle t

/-! ### Slips (R158, R159) -/

/-- The counted cycles of a held bundle have reached its budget, and it has not slipped yet (R158). -/
def Tile.spent (x : Tile) : Bool := x.closed && !x.slipped && decide (1 ≤ x.budget) && decide (x.budget ≤ x.counted)

/-- A slip (R159): F2, the count, the report, the span (R164); then the bundle issues unless a queue, the array or a bank still holds it
(R163). -/
def Mach.slip (m : Mach) (t : TileIdx) : Mach :=
  let x := m.tile t
  if m.issuing t && x.spent then
    let m := m.setTile t { x with
      flags := setFlagBit x.flags 2, slips := sat32 (x.slips + 1), spanLeft := x.span, slipped := true }
    (m.raiseFab t 6 { akind := 1, addr := x.step.toNat, info := x.stage.toNat, sample := some x.smp }).represent t
  else m

/-! ### Leases (R133) -/

/-- A holder is live (R133). -/
def Mach.live (m : Mach) : Holder → Bool
  | .tile t => (m.tile t).mode == .run || (m.tile t).mode == .halt
  | .engine e => (m.engine e).st != .fault
  | .queue q => m.qEn q

/-- A holder has leases: a tile its windows and latches, an engine in PLAN mode itself and its latches, a queue the engine that it
feeds or fed. -/
def Mach.hasLeases (m : Mach) : Holder → Bool
  | .tile t => (List.range 8).any (fun w => (m.win t w).used) || m.latches.any fun p => p.2.owner == BitVec.ofNat 16 t
  | .engine e => (m.engine e).mode == .plan || m.latches.any fun p => p.2.owner == BitVec.ofNat 16 (0x4000 + e)
  | .queue q => m.qType q == 4 && m.engines.any fun p => p.2.feeds && p.2.queue == q.val

/-- The holders of leases that are not live. -/
def Mach.deadHolders (m : Mach) : List Holder :=
  let tiles := (m.tiles.filter fun p => p.2.mode == .idle || p.2.mode == .fault).map fun p => Holder.tile (Fin.ofNat 576 p.1)
  let engines := (m.engines.filter fun p => p.2.st == .fault).map fun p => Holder.engine (Fin.ofNat 32 p.1)
  let queues := (m.engines.filter fun p => p.2.feeds).map fun p => Holder.queue (Fin.ofNat 8192 p.2.queue)
  (tiles ++ engines ++ queues).filter fun h => m.hasLeases h && !m.live h

/-- Since when each of them has not been live; one that is live again is forgotten (R133). -/
def Mach.watchLeases (m : Mach) : Mach :=
  { m with notLive := m.deadHolders.map fun h => (m.notLive.find? fun p => p.1 == h).getD (h, m.tb1, false) }

/-! ### The clock -/

/-- The tiles whose sequencer presents a held bundle. -/
def Mach.heldTiles (m : Mach) : List TileIdx :=
  if m.flt.frozen then []
  else (m.tiles.filter fun p => p.2.closed && p.2.mode == .run).map fun p => Fin.ofNat 576 p.1

/-- The tiles in RUN. -/
def Mach.runTiles (m : Mach) : List TileIdx := (m.tiles.filter fun p => p.2.mode == .run).map fun p => Fin.ofNat 576 p.1

/-- TB0 at an edge of PTPTS: 4 × (1 + ADJ × 2^-40) ns on (R305). -/
def Mach.tb0Edge (m : Mach) (n : Nat) : Mach :=
  if 5 * n / 28 < 5 * (n + 1) / 28 then
    { m with pos := { m.pos with tb0 := m.pos.tb0 + 4 * 2 ^ 40 + 4 * (m.reg rPtpAdj).toInt } }
  else m

/-- What is left of the present cycle: bundles whose budget is spent slip, and every sequencer has its turn. -/
def Mach.sequenceAll (m : Mach) : Mach :=
  let m := m.heldTiles.foldl (fun (m : Mach) t => m.slip t) m
  m.runTiles.foldl (fun (m : Mach) t => m.sequence t) m

/-- A held bundle at the start of a cycle: presented again, unless it is to slip in this cycle (R158). -/
def Mach.again (m : Mach) (t : TileIdx) : Mach := if m.issuing t && !(m.tile t).spent then m.represent t else m

/-- A tile's step counter has reached FLT_RPL_STOP in this cycle: from the next on the fabric is frozen (R462). -/
def Mach.freezeNext (m : Mach) : Mach := { m with flt := { m.flt with frozen := m.flt.frozen || m.flt.stopHit, stopHit := false } }

/-- One cy(CORE) passes: bundles slip and issue in the present cycle, held cycles are counted, the time bases advance, changes land, and
held bundles are presented again. Before reset alignment no clock runs (R464). -/
def Mach.tick (m : Mach) : Mach :=
  if !m.pwr.aligned then m
  else
    let m := m.sequenceAll.watchLeases
    let held := m.heldTiles
    let m := held.foldl Mach.countHeld m
    let m := ({ m.freezeNext with cyc := m.cyc + 1, justSet := [] }.tb0Edge m.cyc).landAll
    held.foldl Mach.again m

/-- Cycles pass. -/
def Mach.ticks (m : Mach) : Nat → Mach
  | 0 => m
  | n + 1 => m.tick.ticks n

/-- The clock stands at a cycle or later. -/
def Mach.advanceTo (m : Mach) (c : Nat) : Mach := m.ticks (c - m.cyc)

end Sys2Proof.Machine
end

