-- ==== Sys2Proof/Machine/Windows.lean ====
section
/-! DEFINITION. Remote writes: the window check, drops and their reports, the inbound buffers, the stack channels and the replies of
GLD (R34, R35, R102-R106, R110-R122, R136, R150-R155, R160, R161). -/
namespace Sys2Proof.Machine

/-! ### The window check (R119-R121) -/

/-- A writer ID that names a tile, an engine, a ring peer or a device block. -/
def writerKind (w : BitVec 16) : Nat := bits w 15 14
def writerNum (w : BitVec 16) : Nat := bits w 13 0

/-- Why a write is dropped (MEM_WDROP_DST.REASON) and the tile that owns the window concerned. -/
structure DropInfo where
  reason : Nat
  owner : Option Nat
deriving DecidableEq, Repr

/-- The window of a target that covers an address, with its owner (R120, R121). -/
def Mach.cover (m : Mach) : WTarget → Option (Nat × Window)
  | .slot t s => ((List.range 8).find? fun w => let x := m.win t w; x.used && !x.kind && decide (x.base ≤ s) && decide (s ≤ x.limit)).map
      fun w => (t, m.win t w)
  | .gran st g => (m.windows.find? fun p =>
      p.2.used && p.2.kind && p.2.stack == st && decide (p.2.base ≤ g) && decide (g ≤ p.2.limit)).map fun p => (p.1 / 8, p.2)

/-- The tile belongs to the weave that holds a window (R116, R488): to the running weave of the window's owner, or to the programs of
a run, which no running weave holds. -/
def Mach.sameWeave (m : Mach) (t owner : Nat) : Bool :=
  (m.tile t).assigned && m.wv.running.all fun w => w.hdr.tiles.getLsbD t == w.hdr.tiles.getLsbD owner

/-- The writer may write through the window (R120 rule 3). -/
def Mach.permitted (m : Mach) (writer : BitVec 16) (owner : Nat) (w : Window) : Bool :=
  w.writers.contains writer || (w.weaveTiles && writerKind writer == 0 && m.sameWeave (writerNum writer) owner)
    || (w.kind && writer == BitVec.ofNat 16 owner)

/-- The check of R120; `none` passes. -/
def Mach.windowCheck (m : Mach) (writer : BitVec 16) (target : WTarget) (gen : Option Nat) : Option DropInfo :=
  let absent := match target with
    | .slot t _ => !(m.tile t).assigned
    | .gran st _ => !m.variant.hasStack st
  let tileOwner := match target with
    | .slot t _ => some t
    | .gran _ _ => none
  if absent then some ⟨4, tileOwner⟩
  else match m.cover target with
    | none => some ⟨0, tileOwner⟩
    | some (o, w) =>
      if !w.isOpen then some ⟨1, some o⟩
      else if !m.permitted writer o w then some ⟨2, some o⟩
      else if gen.any fun g => g != w.gen then some ⟨3, some o⟩
      else none

/-! ### Drops (R122, R161) -/

/-- The drop log: the first drop since VALID was cleared, and their count. -/
def Mach.logDrop (m : Mach) (writer : BitVec 16) (target : WTarget) (reason : Nat) : Mach :=
  let m := m.incFld rMemWdropStat 15 0
  if m.bit rMemWdropStat 31 then m
  else
    let (dst, addr) := match target with
      | .slot t s => (reason * 2 ^ 25 + t, s)
      | .gran st g => (2 ^ 31 + st * 2 ^ 28 + reason * 2 ^ 25, g)
    (((m.setReg rMemWdropSrc (BitVec.ofNat 32 writer.toNat)).setReg rMemWdropDst (BitVec.ofNat 32 dst)).setReg rMemWdropAddr
      (BitVec.ofNat 32 addr)).putBit rMemWdropStat 31 true

/-- The report to the writer. A drop of an import engine shows in the import's result (R411); that of a ring peer is sent back by
the ring (R357). -/
def Mach.reportWriter (m : Mach) (writer : BitVec 16) : Mach :=
  let n := writerNum writer
  match writerKind writer with
  | 0 => m.raiseFab n 4
  | 1 => m.raiseSlu n 2
  | 3 => if n ≤ 1 then m.raiseStem n 3 else if n = 2 then m.raisePrep 2 else if n ≤ 4 then m.raiseRoi (n - 3) 2 else m
  | _ => m

/-- A dropped granule of a ring write joins those of its frame (R357). -/
def Mach.noteRingDrop (m : Mach) (src seq reason : Nat) (target : WTarget) : Mach :=
  let l := m.ring.drops
  let l := if l.any fun d => d.src == src && d.seq == seq then
      l.map fun d => if d.src = src ∧ d.seq = seq then { d with n := d.n + 1 } else d
    else l ++ [{ src := src, seq := seq, reason := reason, n := 1, target := target }]
  { m with ring := { m.ring with drops := l } }

/-- The skew of a slot that a FILL never reached falls by one (R161), from the next cycle on. -/
def Mach.pairDrop (m : Mach) (ovr : Bool) : WTarget → Mach
  | .slot t s => if !ovr && (m.tile t).assigned then m.push (Fin.ofNat 576 t) 20 1 (.skew (BitVec.ofNat 13 s) (-1)) else m
  | .gran _ _ => m

/-- A change of the descriptor in flight of an engine. -/
def Mach.modRun (m : Mach) (e index pass : Nat) (f : SluRun → SluRun) : Mach :=
  let x := m.engine e
  m.setEngine e { x with inflight := x.inflight.map fun r => if r.index = index ∧ r.pass = pass then f r else r }

/-- A copy of PREP's of which one write has passed its check or has been dropped (R245). -/
def CopyState.settled (c : CopyState) (dropped : Bool) : CopyState :=
  match c with
  | .writing n => if dropped then .dropped else .writing (n - 1)
  | c => c

/-- The owner of a write learns its outcome: one granule fewer to wait for, one more dropped. -/
def Mach.settleOwner (m : Mach) (o : WOwner) (dropped : Bool) : Mach :=
  match o with
  | .sluice e index pass =>
    m.modRun e index pass fun r => { r with left := r.left - 1, drops := r.drops + b2n dropped, windrop := r.windrop || dropped }
  | .stem port row =>
    let x := m.stem port
    m.setStem port { x with checking := x.checking.map fun c => if c.1 = row then (row, c.2.1 - 1, c.2.2.1 || dropped, c.2.2.2) else c }
  | .roi d =>
    let x := m.roi d
    m.setRoi d { x with left := x.left - 1, drops := x.drops + b2n dropped }
  | .sample idx =>
    { m with prep := { m.prep with parts := m.prep.parts.map fun x =>
        if x.idx = idx ∧ x.accepted then { x with copy := x.copy.settled dropped } else x } }
  | .image key batch =>
    let x := m.bucket key
    m.setBucket key { x with batches := x.batches.map fun k => if k.id = batch then { k with copy := k.copy.settled dropped } else k }
  | _ => m

/-- A write dropped by the window check (R122). -/
def Mach.dropWrite (m : Mach) (f : Flight) (d : DropInfo) : Mach :=
  let m := (m.reportWriter f.writer).logDrop f.writer f.target d.reason
  let m := match d.owner with
    | some o => m.raiseFab o 5
    | none => m
  let m := match f.owner with
    | .ring src seq => m.noteRingDrop src seq d.reason f.target
    | _ => m
  (m.pairDrop f.ovr f.target).settleOwner f.owner true

/-! ### Arrival (R34, R35, R120) -/

/-- Entries of one part of a tile's inbound buffer. -/
def Mach.inCount (m : Mach) (t : TileIdx) (sched : Bool) : Nat := (m.inbox.filter fun e => e.tile == t && e.sched == sched).length

/-- A completion record or a sampler's status slot with UE (R126, R189). -/
def Flight.isUeRecord (f : Flight) : Bool :=
  match f.owner, f.data with
  | .crec _, some v => (fieldAt (slotBytes v) 8 1).testBit 1
  | .rstat _, some v => (fieldAt (slotBytes v) 10 1).testBit 1
  | _, _ => false

/-- What became of an arriving write. -/
inductive Arrival where | passed | dropped (d : DropInfo) | waits
deriving DecidableEq, Repr

/-- A write at its target: checked, then into the inbound buffer or to its channel. A full part of the buffer holds it (R35), but a write
that fails its check is dropped at once, the buffer full or not, DESIGN CHOICE (log 136). -/
def Mach.arrive (m : Mach) (f : Flight) : Mach × Arrival :=
  let sched := writerKind f.writer == 0
  let full := match f.target with
    | .slot t _ => decide (16 ≤ m.inCount (Fin.ofNat 576 t) sched)
    | .gran _ _ => false
  match m.windowCheck f.writer f.target f.gen with
  | some d => (m.dropWrite f d, .dropped d)
  | none =>
    if full then (m, .waits)
    else
      let m := m.settleOwner f.owner false
      match f.target with
      | .slot t s =>
        ({ m with inbox := m.inbox ++ [{ tile := Fin.ofNat 576 t, sched := sched, slot := BitVec.ofNat 13 s, data := f.data, ovr := f.ovr,
                                         gld := none, ue := false, crec := f.isUeRecord }] }, .passed)
      | .gran st g =>
        ({ m with chanQ := m.chanQ ++ [{ stack := st, gran := g, requester := f.writer.toNat, sched := sched, due := m.cyc, read := none,
                                         write := some f }] }, .passed)

/-- Two writes take the same path: one writer, and one tile or one stack as the target (R151). -/
def Flight.samePath (f g : Flight) : Bool :=
  f.writer == g.writer && match f.target, g.target with
    | .slot t _, .slot u _ => t == u
    | .gran s _, .gran u _ => s == u
    | _, _ => false

/-- Write i of those in flight reaches its target (R120). It stays on its way while an earlier one of its path does: the routers never
reorder two transfers (R151). -/
def Mach.arriveFlight (m : Mach) (i : Nat) : Mach :=
  match m.flights[i]? with
  | none => m
  | some f =>
    if (m.flights.take i).any f.samePath then m
    else
    let m := m.advanceTo f.due
    let (m, r) := m.arrive f
    let rest := dropNth m.flights i
    match r with
    | .waits => { m with flights := setNth m.flights i { f with blocked := true } }
    | .passed => { m with flights := rest }
    | .dropped _ => { m with flights := rest }

/-! ### Draining (R34, R110, R111) -/

/-- The entry waits behind no earlier entry for its slot, and its tag mode and the slot's skew let it in (R110, R111, R160). -/
def Mach.inReady (m : Mach) (earlier : List InEntry) (e : InEntry) : Bool :=
  let k := m.skew e.tile e.slot.toNat
  !(earlier.any fun x => x.tile == e.tile && x.slot == e.slot) &&
    match e.gld with
    | some tm => tm != 1 || decide (0 ≤ k)
    | none => e.ovr || (!m.tag e.tile e.slot.toNat && decide (0 ≤ k))

/-- The first ready entry of a part for a bank, by its place. -/
def Mach.pickEntry (m : Mach) (t : TileIdx) (bank : Nat) (sched : Bool) (earlier : List InEntry) : List InEntry → Option Nat
  | [] => none
  | e :: l =>
    if e.tile == t && e.slot.toNat % 8 == bank && e.sched == sched && m.inReady earlier e then some earlier.length
    else m.pickEntry t bank sched (earlier ++ [e]) l

/-- A bank's write port is in use this cycle: a change of one of its slots lands at the next (R33, R34). -/
def Mach.portBusy (m : Mach) (t : TileIdx) (bank : Nat) : Bool :=
  m.fx.any fun f => f.tile == t && f.land == m.cyc + 1 && (match f.eff with
    | .slot s _ _ => s.toNat % 8 == bank
    | _ => false)

/-- Cycles pass until the port is free. -/
def Mach.awaitPort (m : Mach) (t : TileIdx) (bank : Nat) : Nat → Mach
  | 0 => m
  | n + 1 => if m.portBusy t bank then m.tick.awaitPort t bank n else m

/-- An entry leaves the buffer: its data and tag, or K − 1 where R160 discards it. An error sets F3 in the cycle in which the reply is
written (R136). -/
def Mach.drainEntry (m : Mach) (e : InEntry) : Mach :=
  let t := e.tile
  let fill := match e.gld with
    | some tm => tm == 1
    | none => !e.ovr
  if fill && decide (0 < m.skew t e.slot.toNat) then (m.push t 20 1 (.skew e.slot (-1))).push t 20 1 (.slot e.slot 0 0)
  else
    let m := m.push t 20 1 (.slot e.slot (if e.data.isSome then BitVec.allOnes 64 else 0) (e.data.getD 0))
    let m := if e.crec then m.push t 20 1 (.crec e.slot) else m
    let m := if e.gld = some 0 then m else m.pushPtr t 20 (.tag e.slot true)
    if e.ue then m.setTile t { m.tile t with flags := setFlagBit (m.tile t).flags 3 } else m

/-- INBOUND_DRAIN: a bank takes its oldest ready scheduled entry, or its oldest ready asynchronous one (R34). -/
def inboundDrain (t : TileIdx) (bank : Nat) (m : Mach) : Mach :=
  let m := m.awaitPort t bank 8
  if m.portBusy t bank then m
  else
    let i := match m.pickEntry t bank true [] m.inbox with
      | some i => some i
      | none => m.pickEntry t bank false [] m.inbox
    match i with
    | none => m
    | some i => match m.inbox[i]? with
      | none => m
      | some e => { m with inbox := dropNth m.inbox i }.drainEntry e

def execInboundDrain (t : TileIdx) (bank : Fin 8) (s : State) : Host.Outcome State Fault Refusal := done s (inboundDrain t bank s.m)

/-- GLD_REPLY: reply i enters the scheduled part of its tile's inbound buffer, unchecked (R34, R152). -/
def gldReply (i : Nat) (m : Mach) : Mach :=
  match m.gldReplies[i]? with
  | none => m
  | some r =>
    let m := m.advanceTo r.due
    if 16 ≤ m.inCount r.tile true then m
    else
      { m with
        gldReplies := dropNth m.gldReplies i,
        inbox := m.inbox ++ [{ tile := r.tile, sched := true, slot := r.slot, data := r.data, ovr := false, gld := some r.tm, ue := r.ue,
                               crec := false }] }

def execGldReply (i : Nat) (s : State) : Host.Outcome State Fault Refusal := done s (gldReply i s.m)

/-! ### Stack channels (R102-R104, R152-R155) -/

/-- The ECC state of a granule: the worst of its words. -/
def Mach.stackEcc (m : Mach) (st g : Nat) : Ecc := eccWorst (m.granErrors st g)

/-- A stack read's errors: every corrected word is counted, and the granule is reported, once as corrected and once as uncorrectable,
where it holds such words (R136, R432). -/
def Mach.stackRead (m : Mach) (st g requester : Nat) (sample : Option (BitVec 48)) : Mach :=
  let l := m.granErrors st g
  let m := if ceCount l = 0 then m else (m.addReg (rMemStkCe st) (ceCount l)).dev 4 requester { akind := 3, addr := st * 2 ^ 22 + g }
  if l.contains .ue then m.dev 5 requester { akind := 3, addr := st * 2 ^ 22 + g, sample := sample } else m

/-- A granule that an engine read goes where its descriptor says: to a slot (operation 4) or to DDR4 (operation 3). -/
def Mach.sluiceGot (m : Mach) (e index pass k : Nat) (st g : Nat) : Mach :=
  let ecc := m.stackEcc st g
  let v := m.gran st g
  match (m.engine e).inflight.find? fun r => r.index == index && r.pass == pass with
  | none => m
  | some r =>
    let m := m.modRun e index pass fun r => { r with ue := r.ue || ecc == .ue, ce := r.ce || ecc == .ce }
    let x : EvX := { akind := 3, addr := st * 2 ^ 22 + g, info := index }
    let m := if ecc = .ue then m.raiseSlu e 1 x else if ecc = .ce then m.raiseSlu e 0 x else m
    if r.desc.op = 4 then
      { m with flights := m.flights ++
          [{ writer := BitVec.ofNat 16 (0x4000 + e), target := .slot r.desc.ftile (r.desc.fslot.toNat + k), data := some v, ovr := r.desc.ovr,
             gen := some r.gen, issue := m.cyc, due := m.cyc, blocked := false, owner := .sluice e index pass }] }
    else (m.setDdrBytes (r.desc.daddr.toNat + 64 * k) (slotBytes v)).modRun e index pass fun r => { r with left := r.left - 1 }

/-- Scheduled requests first, then by arrival, then by requester ID (R103). -/
def ChanReq.le (a b : ChanReq) : Bool :=
  if a.sched != b.sched then a.sched
  else decide (a.due < b.due) || (a.due == b.due && decide (a.requester ≤ b.requester))

/-- The channel that holds a granule: 32 of each stack (R102). -/
def ChanReq.at (q : ChanReq) (st ch : Nat) : Bool := q.stack == st && q.gran % 32 == ch

/-- Cycles pass until the channel accepts and has not yet served (R154). -/
def Mach.awaitChannel (m : Mach) (st ch : Nat) : Nat → Mach
  | 0 => m
  | n + 1 =>
    if !channelAccepts m.cyc || FMap.get (fun _ => 0) m.chanLast (32 * st + ch) == m.cyc + 1 then m.tick.awaitChannel st ch n else m

/-- STACK_WINDOW_UPDATE: change i of a stack window reaches its stack (R118, R148). -/
def stackWindowUpdate (i : Nat) (m : Mach) : Mach :=
  match m.winUpds[i]? with
  | none => m
  | some u =>
    let m := m.advanceTo u.due
    let x := m.win u.tile u.w.toNat
    { m with winUpds := dropNth m.winUpds i }.setWin u.tile u.w.toNat (x.change u.opens)

def execStackWindowUpdate (i : Nat) (s : State) : Host.Outcome State Fault Refusal := done s (stackWindowUpdate i s.m)

end Sys2Proof.Machine
end

