-- ==== Sys2Proof/Machine/Latch.lean ====
section
/-! DEFINITION. The latch unit: signals, waits and grants (R129-R131). -/
namespace Sys2Proof.Machine

/-- Batches of a bucket to which REL has granted a place that they have not claimed yet. -/
def Mach.unclaimed (m : Mach) (key : Nat) : Nat :=
  (m.waits.filter fun w => w.granted.isSome && (match w.who with
    | .prep k => k / 2 ^ 32 == key
    | _ => false)).length

/-- LEVEL of a bucket (R247): handed-over batches whose place the weave has not released yet. Of the NQ places the others are free (REL's
count), granted, or claimed by a batch that has not been handed over. -/
def Mach.level (m : Mach) (serial b : Nat) (c : BucketCfg) : Nat :=
  let key := 8 * serial + b
  let x := m.bucket key
  let l := m.latch c.rel
  min c.nq (x.handed + c.nq - (x.nextQ + m.unclaimed key + if l.st = .held then l.count.toNat else 0))

/-- The low-water alarm of every bucket of the recipe in force (R247). -/
def Mach.lowCheck (m : Mach) : Mach :=
  match m.prep.recipe with
  | none => m
  | some r => r.buckets.foldl (fun (m : Mach) p =>
      let key := 8 * m.prep.serial + p.1
      let x := m.bucket key
      if m.level m.prep.serial p.1 p.2 < m.rbits (rPrepBktLow p.1) 4 0 then
        if x.above then ((m.setBucket key { x with above := false }).putBit rPrepStat (8 + p.1) true).raisePrep 9 else m
      else (if x.above then m else m.setBucket key { x with above := true }).putBit rPrepStat (8 + p.1) false) m

/-- A signal at its latch: added, saturating with LATCH_OVF at the signalling tile (R65), or discarded and reported at a latch that
is REVOKED or FREE (R131). -/
def Mach.latchSignal (m : Mach) (sg : Signal) : Mach :=
  let x := m.latch sg.latch
  match x.st with
  | .held =>
    let n := x.count.toNat + sg.amount
    let m := m.setLatch sg.latch { x with count := BitVec.ofNat 32 (min n 0xFFFFFFFF) }
    if 0xFFFFFFFF < n ∧ writerKind sg.src = 0 then m.raiseFab (writerNum sg.src) 7 { akind := 5, addr := sg.latch } else m
  | .revoked => m.dev 3 sg.src.toNat { akind := 5, addr := sg.latch, info := 0 }
  | .free => m.dev 3 sg.src.toNat { akind := 5, addr := sg.latch, info := 1 }

/-- LATCH_SIGNAL_ARRIVAL: signal i of those on their way reaches its latch unit (R130 step 1, R148). -/
def latchSignalArrival (i : Nat) (m : Mach) : Mach :=
  match m.signals[i]? with
  | none => m
  | some sg =>
    let m := m.advanceTo sg.due
    ({ m with signals := dropNth m.signals i }.latchSignal sg).lowCheck

def execLatchSignalArrival (i : Nat) (s : State) : Host.Outcome State Fault Refusal := done s (latchSignalArrival i s.m)

/-- The requester ID by which waits of one cycle are ordered (R119, R130). -/
def Waiter.id : Waiter → Nat
  | .tile t => t
  | .engine e => 0x4000 + e
  | .roi d => 0xC003 + d
  | .prep _ => 0xC002
  | .ring p => 0x8000 + p

/-- The order in which a latch serves its waits: cycle of arrival, then requester ID. -/
def Wait.le (a b : Wait) : Bool := decide (a.arrive < b.arrive) || (a.arrive == b.arrive && decide (a.who.id ≤ b.who.id))

/-- Waits granted in order until one cannot be (R130 steps 2 and 3). -/
def Mach.grant (m : Mach) (l : Nat) : List Wait → Mach
  | [] => m
  | w :: rest =>
    let x := m.latch l
    if x.st = .held ∧ w.amount ≤ x.count.toNat then
      let m := m.setLatch l { x with count := x.count - BitVec.ofNat 32 w.amount }
      let m := { m with waits := m.waits.map fun v => if v = w then { v with granted := some m.cyc } else v }
      m.grant l rest
    else m

/-- Signals due at a latch by now are added before its waits are served (R130). -/
def Mach.signalsDue (m : Mach) (l : Nat) : Mach :=
  let due := m.signals.filter fun g => g.latch == l && decide (g.due ≤ m.cyc)
  if due.isEmpty then m else (due.foldl Mach.latchSignal { m with signals := m.signals.filter fun g => !(g.latch == l && decide (g.due ≤ m.cyc)) }).lowCheck

/-- LATCH_WAIT_GRANT: latch l serves its pending waits in the present cycle, or in the cycle in which the first arrives. -/
def latchWaitGrant (l : Nat) (m : Mach) : Mach :=
  match (m.waits.filter fun w => w.latch == l && w.granted.isNone).map (·.arrive) with
  | [] => m
  | a :: as =>
    let m := (m.advanceTo (as.foldl min a)).signalsDue l
    m.grant l (sortBy Wait.le (m.waits.filter fun w => w.latch == l && w.granted.isNone && decide (w.arrive ≤ m.cyc)))

def execLatchWaitGrant (l : Fin 16384) (s : State) : Host.Outcome State Fault Refusal := done s (latchWaitGrant l s.m)

/-- A gate waits on a REVOKED latch: an engine and a sampler report it (R131, R193). -/
def Mach.gateRevoked (m : Mach) : Waiter → Mach
  | .engine e => m.raiseSlu e 3
  | .roi d => m.raiseRoi d 3
  | _ => m

/-- A unit other than a tile asks for a latch: its wait stands at the latch from the present cycle on; once it has been granted the
wait is gone and the unit goes on (R125, R186). The answer says whether it was granted. -/
def Mach.gate (m : Mach) (who : Waiter) (l amount : Nat) : Mach × Bool :=
  match m.waits.find? fun w => w.who == who with
  | none =>
    ({ m with waits := m.waits ++ [{ latch := l, who := who, amount := amount, first := m.cyc, arrive := m.cyc, granted := none }] }, false)
  | some w =>
    if w.granted.isSome then ({ m with waits := m.waits.filter fun v => v.who != who }, true) else (m, false)

/-- A unit's signal on its way to a latch, from the present cycle on. -/
def Mach.sendSignal (m : Mach) (l amount : Nat) (src : BitVec 16) : Mach :=
  { m with signals := m.signals ++ [{ latch := l, amount := amount, src := src, issue := m.cyc, due := m.cyc }] }

end Sys2Proof.Machine
end

