-- ==== Sys2Proof/Machine/Hif.lean ====
section
/-! DEFINITION. The host interface (R14, R373-R398): accesses through the three BARs, the doorbells and queue contexts, the
interrupt timer and the lot commands. -/
namespace Sys2Proof.Machine

/-! ### What the endpoint answers -/

/-- The context windows are closed: during a scrub, and in phases 3 to 5 of a switch into a confidential context (R376, R420). -/
def Mach.windowsClosed (m : Mach) : Bool :=
  match m.sec.switching with
  | none => false
  | some w =>
    w.phase ≤ 2 || (w.phase ≤ 5 &&
      match m.sec.ctxs.lookup w.target with
      | some c => c.conf
      | none => false)

/-- The blocks whose registers are context windows: FAB, MEM and PREP (R375, R376). -/
def inContextWindow (a : Nat) : Bool :=
  (decide (0x00100000 ≤ a) && decide (a < 0x01800000)) || (decide (0x01A00000 ≤ a) && decide (a < 0x01B00000))

/-- A host write to a BAR0 offset arrives (R373, R376, R420). -/
def Mach.hostWrites (m : Mach) (a : Nat) : Bool := m.hostUp && !(m.windowsClosed && inContextWindow a)

/-- The first access that breaks a rule is logged in HIF_ERR_ADDR and HIF_ERR_INFO (R14, R374, R377). -/
def Mach.logAccess (m : Mach) (bar : Nat) (off size : Nat) (write : Bool) : Mach :=
  if m.bit rHifErrInfo 31 then m
  else
    (((m.setReg rHifErrAddrLo (BitVec.ofNat 32 off)).setReg rHifErrAddrHi 0).setReg rHifErrInfo
      (BitVec.ofNat 32 (min size 0xFFF * 16 + b2n write * 8 + bar))).putBit rHifErrInfo 31 true

/-- An error bit of HIF_ERR set by an access, with the access logged. -/
def Mach.accessError (m : Mach) (bit bar off size : Nat) (write : Bool) : Mach :=
  (m.logAccess bar off size write).raiseHif bit 0xFFFF

/-- The code of a BAR (HIF_ERR_INFO.BAR). -/
def barCode : Bar → Nat
  | .bar0 => 0
  | .bar2 => 1
  | .bar4 => 2

/-- The width and alignment that a BAR allows (R14, R374). -/
def barAllows (b : Bar) (off size : Nat) (write : Bool) : Bool :=
  match b with
  | .bar0 => size == 4 && off % 4 == 0
  | .bar2 => decide (1 ≤ size) && decide (size ≤ 4096)
  | .bar4 =>
    if off < 0x00100000 then size == 4 && off % 4 == 0
    else !write && (size == 4 || size == 8 || size == 16 || size == 32 || size == 64) && off % size == 0

/-- The host-to-device types (R379). -/
def isH2D (ty : Nat) : Bool := ty == 2 || ty == 4 || ty == 6 || ty == 7 || ty == 9 || ty == 0xB || ty == 0xD
/-- The device-to-host types (R379). -/
def isD2H (ty : Nat) : Bool := ty == 1 || ty == 3 || ty == 5 || ty == 8 || ty == 0xA || ty == 0xC || ty == 0xE

/-- The bytes that a BAR holds (R374). -/
def barSize : Bar → Nat
  | .bar0 => 2 ^ 26
  | .bar2 => 2 ^ 30
  | .bar4 => 2 ^ 24

/-- The record area of a device-to-host queue in BAR4, from its first to beyond its last byte. -/
def Mach.areaOf (m : Mach) (q ty : Nat) : Nat × Nat :=
  let b := (m.reg64 (rQBaseLo q)).toNat
  (b, b + m.qSize q * entrySize ty)

/-- The enabled queue in whose record area a byte of BAR4 lies (R379). -/
def Mach.areaAt (m : Mach) (o : Nat) : Option Nat :=
  (List.range 8192).find? fun q => m.qEn q && isD2H (m.qType q) && decide ((m.areaOf q (m.qType q)).1 ≤ o)
    && decide (o < (m.areaOf q (m.qType q)).2)

/-- A byte of a BAR lies in a context window: FAB, MEM or PREP, or the record area of a RESULT queue (R376). -/
def Mach.inWindow (m : Mach) (b : Bar) (o : Nat) : Bool :=
  match b with
  | .bar0 => inContextWindow o
  | .bar2 => false
  | .bar4 => decide (0x00100000 ≤ o) && (m.areaAt o).any fun q => m.qType q == 1

/-- An access meets a closed context window (R376, R420). -/
def Mach.closedTo (m : Mach) (b : Bar) (o : Nat) : Bool := m.windowsClosed && m.inWindow b o

/-- An access of a width or alignment that is not allowed sets WIDTH, and a write to the record areas, where none is allowed, sets BAR4W too;
the first is logged (R14, R374). In a closed context window nothing is reported (R376). -/
def Mach.badAccess (m : Mach) (b : Bar) (off size : Nat) (write : Bool) : Mach :=
  if m.closedTo b off then m
  else
    let m := m.accessError 0 (barCode b) off size write
    if b = .bar4 ∧ write ∧ 0x00100000 ≤ off then m.raiseHif 2 0xFFFF else m

/-- RECORD_AREA_WRITE: a write to the record areas of BAR4 is discarded (R374, R376). -/
def recordAreaWrite (off : BitVec 24) (size : Nat) (m : Mach) : Mach :=
  if m.hostUp && decide (0x00100000 ≤ off.toNat) then m.badAccess .bar4 off.toNat size true else m

def execRecordAreaWrite (off : BitVec 24) (size : Nat) (s : State) : Host.Outcome State Fault Refusal :=
  done s (recordAreaWrite off size s.m)

/-! ### The staging window (R377) -/

/-- The DDR4 address of byte o of BAR2. -/
def Mach.stgBase (m : Mach) : Nat := m.rbits rHifStgBaseHi 4 0 * 2 ^ 32 + m.rbits rHifStgBaseLo 31 30 * 2 ^ 30
/-- A DDR4 address lies in the host region. -/
def Mach.inHostRegion (m : Mach) (a : Nat) : Bool := decide (m.sec.hostBase ≤ a) && decide (a < m.sec.hostBase + m.sec.hostSize)
/-- A byte of DDR4 is reachable through the staging window. -/
def Mach.stgReach (m : Mach) (a : Nat) : Bool := m.bit rHifStgBaseLo 0 && m.inHostRegion a

/-- The bytes that a staging read returns: all ones where a byte is not reachable. -/
def Mach.stgRead (m : Mach) (a : Nat) : Nat → List Byte
  | 0 => []
  | n + 1 => (if m.stgReach a then m.ddrByte a else 0xFF) :: m.stgRead (a + 1) n

/-- DDR4 after a staging write: bytes that are not reachable are discarded. -/
def stgWrite (reach : Nat → Bool) (d : List Host.Cell) (a : Nat) : List Byte → List Host.Cell
  | [] => d
  | b :: bs => stgWrite reach (if reach a then FMap.put emptyByte d a b else d) (a + 1) bs

/-- Every byte of the range is reachable. -/
def Mach.stgWhole (m : Mach) (a : Nat) : Nat → Bool
  | 0 => true
  | n + 1 => m.stgReach a && m.stgWhole (a + 1) n

/-- A staging write: bytes that are not reachable are discarded, and the first such access is logged (R377). -/
def Mach.stagingWrite (m : Mach) (off size : Nat) (data : List Byte) : Mach :=
  let a := m.stgBase + off
  let n : Mach := { m with mem := { m.mem with
    ddr := stgWrite m.stgReach m.mem.ddr a (m.masked a (padTo size data)),
    eccDdr := FMap.clear m.mem.eccDdr fun k => wholeBeat a size k && m.stgReach (8 * k) && m.stgReach (8 * k + 7) } }
  if m.stgWhole a size then n else n.accessError 1 1 off size true

/-! ### Doorbells and queue contexts (R379-R383, R398) -/

/-- A doorbell write that is ignored (R381). -/
def Mach.badDoorbell (m : Mach) (q : Nat) : Mach := (m.putBit (rQStat q) 1 true).raiseHif 4 q

/-- The slots that a CI advance releases read as zeros again (R383). -/
def releaseSlots (n size : Nat) (ci : Nat) : List (Nat × List Byte) → List (Nat × List Byte)
  | es => match n with
    | 0 => es
    | k + 1 => releaseSlots k size (ci + 1) (FMap.erase es (ci % size))

/-- DOORBELL_WRITE: the host-owned index is set unless the queue is disabled or the count would leave 0 to N (R381). -/
def doorbellWrite (q : Nat) (v : W32) (m : Mach) : Mach :=
  if !m.hostUp then m
  else
    let x := m.queue q
    if !m.qEn q then m.badDoorbell q
    else if isH2D (m.qType q) then
      if (v - x.ci).toNat ≤ m.qSize q then m.setQueue q { x with pi := v } else m.badDoorbell q
    else
      if (x.pi - v).toNat ≤ m.qSize q then
        let n := if (v - x.ci).toNat ≤ x.held then (v - x.ci).toNat else 0
        m.setQueue q { x with ci := v, ents := releaseSlots n (m.qSize q) x.ci.toNat x.ents }
      else m.badDoorbell q

def execDoorbellWrite (q : Fin 8192) (v : W32) (s : State) : Host.Outcome State Fault Refusal :=
  done s (doorbellWrite q v s.m)

/-- How many enabled queues other than q have a type and, where it counts, an engine (R379). -/
def Mach.othersOfType (m : Mach) (q ty : Nat) (eng : Option Nat) : Bool :=
  (List.range 8192).any fun k => k != q && m.qEn k && m.qType k == ty &&
    (match eng with
    | none => true
    | some e => m.rbits (rQLink k) 20 16 == e)

/-- The limit of enabled queues of a type would be passed (R379). -/
def Mach.limitPassed (m : Mach) (q ty : Nat) : Bool :=
  let eng := m.rbits (rQLink q) 20 16
  if ty = 2 ∨ ty = 3 ∨ ty = 7 ∨ ty = 8 ∨ ty = 9 ∨ ty = 0xA ∨ ty = 0xD ∨ ty = 0xE then m.othersOfType q ty none
  else if ty = 4 ∨ ty = 6 then m.othersOfType q ty (some eng)
  else false

/-- The DONE type of a host-to-device type; 0 where results go elsewhere (R379). -/
def doneType (ty : Nat) : Nat := if ty = 2 then 3 else if ty = 4 then 5 else if ty = 7 then 8 else if ty = 9 then 0xA
  else if ty = 0xB then 0xC else 0

/-- PEER names an enabled queue of the matching type (R379). -/
def Mach.peerOk (m : Mach) (q ty : Nat) : Bool :=
  let p := m.rbits (rQLink q) 12 0
  doneType ty == 0 || (m.qEn p && m.qType p == doneType ty)

/-- ENG names a fitted engine or intake block, and no engine that a running weave uses in PLAN mode (R379). -/
def Mach.engOk (m : Mach) (q ty : Nat) : Bool :=
  let eng := m.rbits (rQLink q) 20 16
  if ty = 4 then m.variant.hasEngine eng && !(m.wv.running.any fun w => w.hdr.engines.testBit eng)
  else if ty = 6 then m.variant.hasDie eng
  else true

/-- The record area lies in BAR4's record space and overlaps no other enabled queue's (R379). -/
def Mach.areaOk (m : Mach) (q ty : Nat) : Bool :=
  !isD2H ty ||
    (let a := m.areaOf q ty
     decide (0x00100000 ≤ a.1) && decide (a.2 ≤ 0x01000000) &&
      !((List.range 8192).any fun k => k != q && m.qEn k && isD2H (m.qType k) &&
        (let b := m.areaOf k (m.qType k)
         decide (a.1 < b.2) && decide (b.1 < a.2))))

/-- The checks of R379 for enabling a queue of a type. -/
def Mach.mayEnable (m : Mach) (q ty : Nat) : Bool :=
  ty != 0 && ty != 0xF && !m.limitPassed q ty && m.peerOk q ty && m.engOk q ty && m.areaOk q ty

/-- A queue configuration write that is refused or ignored (R379, R398). -/
def Mach.badCfg (m : Mach) (q : Nat) : Mach := m.raiseHif 3 q

/-- A queue enabled: indices and SEQ at 0, Q_LOST at 0 (R381, R394). A SLUICE queue puts its engine into QUEUE mode and holds its lease
(R123, R132), unless the engine is REVOKED, which it stays until a weave stops (R135). -/
def Mach.enableQueue (m : Mach) (q : Nat) : Mach :=
  let m := ((m.putBit (rQCfg q) 0 true).setQueue q Queue.empty).setReg (rQLost q) 0
  if m.qType q = 4 then
    let e := m.rbits (rQLink q) 20 16
    let m : Mach := { m with revoked := m.revoked.filter fun h => h != .queue (Fin.ofNat 8192 q) }
    if (m.engine e).st = .revoked then m else m.setEngine e { Engine.free with mode := .queue, feeds := true, queue := q }
  else m

/-- A queue disabled: no further entry is taken, and a record area is zeroed (R398). -/
def Mach.disableQueue (m : Mach) (q : Nat) : Mach :=
  let ty := m.qType q
  let m := (m.putBit (rQCfg q) 0 false).setQueue q { m.queue q with ents := [] }
  if ty = 4 then
    let e := m.rbits (rQLink q) 20 16
    m.setEngine e { m.engine e with mode := .free }
  else m

/-- Q_CFG_WRITE: VEC and IRQ_EN at any time, TYPE while EN is 0, EN under the checks of R379; a RESULT queue is not disabled
while a lot is open (R379, R388, R398). -/
def qCfgWrite (q : Nat) (v : W32) (m : Mach) : Mach :=
  if !m.hostUp then m
  else
    let was := m.qEn q
    let ty := bits v 4 1
    let m := (m.setFld (rQCfg q) 19 9 (bits v 19 9)).putBit (rQCfg q) 8 (bitAt v 8)
    if was then
      let m := if ty = m.qType q then m else m.badCfg q
      if bitAt v 0 then m
      else if m.qType q = 1 ∧ m.hif.lot.isOpen then m.badCfg q
      else m.disableQueue q
    else
      let m := m.setFld (rQCfg q) 4 1 ty
      if !bitAt v 0 then m
      else if m.mayEnable q ty then m.enableQueue q
      else m.badCfg q

def execQCfgWrite (q : Fin 8192) (v : W32) (s : State) : Host.Outcome State Fault Refusal := done s (qCfgWrite q v s.m)

/-- IRQ_TIMER: TIME µs of TB1 have passed since the oldest entry not yet signalled was committed; the vector is signalled (R384). -/
def irqTimer (q : Nat) (m : Mach) : Mach :=
  let x := m.queue q
  let time := m.rbits (rQMod q) 31 16
  if m.qEn q && m.bit (rQCfg q) 8 && time != 0 && x.unsig != 0 && decide (x.oldest + 1000 * time ≤ m.tb1) then
    (m.setQueue q { x with unsig := 0 }).signal (m.rbits (rQCfg q) 19 9)
  else m

def execIrqTimer (q : Fin 8192) (s : State) : Host.Outcome State Fault Refusal := done s (irqTimer q s.m)

/-- QUEUE_FETCH_FAIL: EN := 0, FETCH is set in Q_STAT and HIF_ERR, no further entry is taken (R382). -/
def queueFetchFail (q : Nat) (m : Mach) : Mach :=
  if m.qEn q && isH2D (m.qType q) then ((m.disableQueue q).putBit (rQStat q) 2 true).raiseHif 5 q else m

def execQueueFetchFail (q : Fin 8192) (s : State) : Host.Outcome State Fault Refusal := done s (queueFetchFail q s.m)

/-! ### Commands of the CMD queue (R382, R385, R388) -/

/-- The 32-byte completion of a command (R382). -/
def Mach.cmdDone (m : Mach) (q op status tag : Nat) (idx : W32) (res : List Byte) : Mach :=
  m.qReply q (leBytes 1 op ++ leBytes 1 status ++ leBytes 2 tag ++ leBytes 4 idx.toNat ++ leBytes 8 m.tb1
    ++ padTo 8 res ++ zeros 8)

/-- The bytes of a command that its OP does not name, all of which must be 0 (R385): those after byte 3 outside the ranges given. -/
def reservedZero (ent : List Byte) (used : List (Nat × Nat)) : Bool :=
  (List.range 64).all fun i => i < 4 || used.any (fun r => r.1 ≤ i && i < r.1 + r.2) || ent.getD i 0 == 0

/-- Taking a command: the entry is read into the device, and commands complete in queue order, so that nothing is taken while a
LOT_END waits (R385). A reserved OP, RING_SEND among them in a CMD entry, ends with RANGE; an entry with the OP of another row is that row's. -/
def Mach.cmdTake (m : Mach) (q : Nat) (ent : Slot) (op : Nat) (k : List Byte → W32 → Mach → Mach) : Mach :=
  if !m.qReady q 2 || m.hif.lot.ending.isSome then m
  else
    let b := slotBytes ent
    let o := fieldAt b 0 1
    let idx := (m.queue q).ci
    if o = op then k b idx (m.qTake q)
    else if 1 ≤ o ∧ o ≤ 4 then m
    else (m.qTake q).cmdDone q o 5 (fieldAt b 2 2) idx []

/-- An admitted recipe is loaded (HIF_LOT.RECIPE). -/
def Mach.recipeLoaded (m : Mach) : Bool := m.prep.recipe.isSome

/-- LOT_START: opens a lot with an index base (R385, R388). -/
def lotStart (q : Nat) (ent : Slot) (m : Mach) : Mach :=
  m.cmdTake q ent 2 fun b idx m =>
    let tag := fieldAt b 2 2
    let base := fieldAt b 8 6
    if fieldAt b 1 1 ≠ 0 ∨ !reservedZero b [(4, 2), (8, 6)] ∨ base = 2 ^ 48 - 1 then m.cmdDone q 2 5 tag idx []
    else if m.hif.lot.isOpen then m.cmdDone q 2 2 tag idx []
    else if !m.recipeLoaded then m.cmdDone q 2 4 tag idx []
    else
      let lot : Lot :=
        { isOpen := true, num := BitVec.ofNat 16 (fieldAt b 4 2), base := BitVec.ofNat 48 base, accepted := 0,
          records := 0, ending := none }
      ({ m with
          hif := { m.hif with lot := lot },
          prep := { m.prep with nextIdx := BitVec.ofNat 48 base, idxEnd := false } }).cmdDone q 2 0 tag idx (leBytes 6 base)

def execLotStart (q : Fin 8192) (ent : Slot) (s : State) : Host.Outcome State Fault Refusal := done s (lotStart q ent s.m)

/-- A position lies within 2^30 ct of the base (R282, R385). -/
def Mach.nearPos (m : Mach) (b : Bool) (p : BitVec 32) : Bool :=
  let d := diff32 p (m.pos32 b)
  decide (-(2 ^ 30 : Int) ≤ d) && decide (d ≤ 2 ^ 30)

/-- LOT_END: closes the lot to every part at or beyond P_END, and as such once the position base reaches P_END; its completion waits for
the records (R385, R388). -/
def lotEnd (q : Nat) (ent : Slot) (m : Mach) : Mach :=
  m.cmdTake q ent 3 fun b idx m =>
    let tag := fieldAt b 2 2
    let p := BitVec.ofNat 32 (fieldAt b 8 4)
    if fieldAt b 1 1 ≠ 0 ∨ !reservedZero b [(8, 4)] then m.cmdDone q 3 5 tag idx []
    else if !m.hif.lot.isOpen then m.cmdDone q 3 3 tag idx []
    else if !m.nearPos m.lotBase p then m.cmdDone q 3 5 tag idx []
    else { m with hif := { m.hif with lot := { m.hif.lot with ending := some (p, BitVec.ofNat 16 tag, idx) } } }.lotClose

def execLotEnd (q : Fin 8192) (ent : Slot) (s : State) : Host.Outcome State Fault Refusal := done s (lotEnd q ent s.m)

/-- LOT_END_DONE: the lot is closed, no marker before P_END waits, and every part accepted in the lot has its record; the completion is
written (R388). -/
def lotEndDone (m : Mach) : Mach :=
  match m.hif.lot.ending with
  | none => m
  | some (p, tag, idx) =>
    if !m.hif.lot.isOpen && m.hif.lot.records == m.hif.lot.accepted && !m.prep.markers.any (fun k => decide (diff32 k.pos p < 0)) then
      let lot := m.hif.lot
      let m := { m with hif := { m.hif with lot := { lot with ending := none } } }
      match m.queueOfType 2 with
      | some q => m.cmdDone q 3 0 tag.toNat idx (leBytes 4 lot.accepted ++ leBytes 4 lot.records)
      | none => m
    else m

def execLotEndDone (s : State) : Host.Outcome State Fault Refusal := done s (lotEndDone s.m)

/-- FENCE completes in queue order (R385). -/
def fenceCmd (q : Nat) (ent : Slot) (m : Mach) : Mach :=
  m.cmdTake q ent 4 fun b idx m =>
    m.cmdDone q 4 (if fieldAt b 1 1 ≠ 0 ∨ !reservedZero b [] then 5 else 0) (fieldAt b 2 2) idx []

def execFence (q : Fin 8192) (ent : Slot) (s : State) : Host.Outcome State Fault Refusal := done s (fenceCmd q ent s.m)

end Sys2Proof.Machine
end

