-- ==== Sys2Proof/Machine/Sec.lean ====
section
/-! DEFINITION. The root of trust (R399-R416, R424-R428): identity keys, boot and measurement, the mailbox, quotes, contexts, ring
sessions, the management CA and firmware. -/
namespace Sys2Proof.Machine

/-! ### Keys (R399-R401) -/

/-- A key of R401 derived from S_DEV; a multi-byte SVN is little-endian (log 12). -/
def deriveKey (sdev : BitVec 256) (info : List Byte) : BitVec 256 := scalarOf (hkdf (zeros 32) (bytes32 sdev) info 40)
def idk (sdev : BitVec 256) : BitVec 256 := deriveKey sdev (ascii "L9 IDK")
def alk (sdev m0 : BitVec 256) (svn : W32) : BitVec 256 :=
  deriveKey sdev (ascii "L9 ALIAS" ++ bytes32 m0 ++ leBytes 4 svn.toNat)
def stk (sdev m1 : BitVec 256) : BitVec 256 := deriveKey sdev (ascii "L9 STW" ++ bytes32 m1)
/-- The key that seals weave w's adapted versions in flash (R401). -/
def kSeal (sdev w : BitVec 256) : List Byte := hkdf (zeros 32) (bytes32 sdev) (ascii "L9 SEAL" ++ bytes32 w) 32
/-- The 64 bytes of a public key, X then Y (R399). -/
def pkBytes (k : BitVec 512) : List Byte := beBytes 64 k.toNat
def pkOf (bs : List Byte) : BitVec 512 := BitVec.ofNat 512 (beNat (bs.take 64))
/-- DEVID (R401). -/
def devId (sdev : BitVec 256) : List Byte := sha256 (pkBytes (publicKey (idk sdev)))

/-- Measurement slot i (R402). -/
def Sec.m (x : Sec) (i : Nat) : BitVec 256 := x.meas.getD i 0
/-- A slot extended with a digest: M := SHA-256(M || d) (R402). -/
def extend (m : BitVec 256) (d : List Byte) : BitVec 256 := sha (bytes32 m ++ d)
def Mach.extendM (m : Mach) (i : Nat) (d : List Byte) : Mach :=
  { m with sec := { m.sec with meas := m.sec.meas.set i (extend (m.sec.m i) d) } }
def Mach.zeroM (m : Mach) (i : Nat) : Mach := { m with sec := { m.sec with meas := m.sec.meas.set i 0 } }

/-- The configuration record of M3 (R402). -/
def Mach.m3Record (m : Mach) : List Byte :=
  leBytes 1 (m.rbits rSecCfg 1 0) ++ zeros 3 ++ leBytes 4 m.sec.svn.toNat ++ leBytes 2 (m.sec.resident.getD 0xFFFF) ++ zeros 22

/-- M3 is extended at boot and at every change of its record (R402). -/
def Mach.extendM3 (m : Mach) : Mach := m.extendM 3 m.m3Record

/-- A defined context. -/
def Mach.ctx (m : Mach) (c : Nat) : Option Ctx := m.sec.ctxs.lookup c
def Mach.setCtx (m : Mach) (c : Nat) (x : Ctx) : Mach :=
  { m with sec := { m.sec with ctxs := (c, x) :: m.sec.ctxs.filter fun p => p.1 != c } }

/-- The key of a bank set: the hash of the owner record, 0 for weaves of no context (R480). -/
def Mach.setKey (m : Mach) (c : Option Nat) : Nat :=
  match c with
  | none => 0
  | some c => match m.ctx c with
    | some x => (sha x.owner).toNat
    | none => 0

/-- The copy of a bank table in force: the valid one with the higher sequence (R480). -/
def BankSet.cur (b : BankSet) : BankCopy := if b.b.ok && (!b.a.ok || decide (b.a.seq < b.b.seq)) then b.b else b.a
def BankCopy.empty : BankCopy := { seq := 0, ok := true, active := none, previous := none, staged := none }
/-- The table of the bank set with a key. -/
def Mach.banksOf (m : Mach) (key : Nat) : BankCopy := ((m.flash.sets.lookup key).map BankSet.cur).getD BankCopy.empty

/-- The digest of a context's ACTIVE weave, 0 when none is loaded in its bank (R407). -/
def Mach.activeDigest (m : Mach) (c : Option Nat) : BitVec 256 :=
  match (m.banksOf (m.setKey c)).active with
  | some b => b.digest
  | none => 0

/-! ### Boot (R400-R403, R421, R446) -/

/-- The controller images that verify are started and extend M2, in order; one that fails is not started (R402, R403). -/
def Mach.bootControllers (m : Mach) (cs : List (Bool × BitVec 256)) : Mach :=
  let m := cs.foldl (fun m c => if c.1 then m.extendM 2 (bytes32 c.2) else m.raiseSec 6) m
  { m with sec := { m.sec with ctrl := cs.map fun c => c.1 } }

/-- Steps 4 to 6 of R403 with a firmware copy that verified. -/
def Mach.bootWith (m : Mach) (f : FwCopy) : Mach :=
  let m := { m with sec := { m.sec with svn := f.svn, romOnly := false } }
  let m := m.extendM 0 (bytes32 f.rot)
  let m := if f.stwOk then { m.extendM 1 (bytes32 f.stw) with sec := { (m.extendM 1 (bytes32 f.stw)).sec with steward := true } }
    else m.raiseSec 6
  let m := m.bootControllers f.ctrl
  let m := m.extendM3
  let (kh, m) := m.draw
  let (kf, m) := m.draw
  let m := { m with
    sec := { m.sec with hostBase := 0, hostSize := 0x100000000, kHost := kh, kFw := kf },
    flash := { m.flash with svnMin := if m.flash.svnMin.toNat < f.svn.toNat then f.svn else m.flash.svnMin },
    pwr := { m.pwr with bootOk := true } }
  match m.flash.journal with
  | none => m
  | some (target, out) =>
    let m := (({ m with flash := { m.flash with journal := none } }).putBit rSecStat 5 true).raiseSec 0
    let nib := fun c => if c < 16 then c else 0xFF
    m.report { m.event 0xF 9 0xFFFF { info := nib target * 256 + nib out } with boot := true }

/-- ROT_BOOT (R403): the identity is rebuilt or PUF is set; firmware copy A is tried, then copy B; when both fail the RoT stays
in ROM. -/
def rotBoot (puf : Bool) (m : Mach) : Mach :=
  if m.pwr.inReset || m.pwr.bootOk then m
  else
    let m := if puf then { m with sec := { m.sec with sdev := some Config.deviceSecret } } else m.raiseSec 5
    let okA := m.flash.fwA.valid && m.flash.fwA.rotOk
    let okB := m.flash.fwB.valid && m.flash.fwB.rotOk
    if okA then m.bootWith m.flash.fwA
    else
      let m := m.raiseSec 6
      if okB then m.bootWith m.flash.fwB else { m with sec := { m.sec with romOnly := true } }

def execRotBoot (puf : Bool) (s : State) : Host.Outcome State Fault Refusal := done s (rotBoot puf s.m)

/-! ### The mailbox (R426, R427) -/

/-- Status codes (R427). -/
inductive MbxSt where
  | ok | busy | range | noctx | exists_ | nospace | lotOpen | sig | bind | expired | policy | state | noid
deriving DecidableEq, Repr

def MbxSt.code : MbxSt → Nat
  | .ok => 0 | .busy => 1 | .range => 2 | .noctx => 3 | .exists_ => 4 | .nospace => 5 | .lotOpen => 6 | .sig => 7 | .bind => 8
  | .expired => 9 | .policy => 0xA | .state => 0xB | .noid => 0xC

/-- The 256 argument bytes in SEC_MBX_IN (R426). -/
def Mach.mbxIn (m : Mach) : List Byte := (List.range 64).flatMap fun i => leBytes 4 (m.reg (rSecMbxIn i)).toNat

/-- Output bytes into SEC_MBX_OUT; bytes at or beyond OUTLEN read 0 (R426). -/
def Mach.mbxOut (m : Mach) (out : List Byte) : Mach :=
  (List.range 256).foldl (fun m i => m.setReg (rSecMbxOut i) (BitVec.ofNat 32 (fieldAt out (4 * i) 4))) m

/-- The result of a command at the level that issued it: STATUS, OUTLEN, the output, DONE and its vector, or the answer to the
Dexzon client (R426). -/
def Mach.mbxResult (m : Mach) (host : Bool) (st : MbxSt) (out : List Byte) : Mach :=
  if host then
    let m := m.mbxOut out
    let m := (m.setReg rSecMbxStat (BitVec.ofNat 32 (st.code * 2 ^ 16 + min 1024 out.length))).putBit rSecMbxStat 30 true
    if m.bit rSecMbxCtl 19 then m.signal (m.rbits rSecMbxCtl 30 20) else m
  else { m with sec := { m.sec with dexOut := out, dexStatus := st.code } }

/-- The module takes the command: from the host when SEC_MBX_CTL names it with GO = 1 and the mailbox is not BUSY, from the
steward while a Dexzon client is connected and its level may issue it (R426). Unused argument bytes must be 0. -/
def Mach.mbx (m : Mach) (via : MbxVia) (op : Nat) (dexzon : Bool) (used : List (Nat × Nat)) (alive : Bool)
    (k : Bool → List Byte → Mach → Mach) : Mach :=
  match via with
  | .host ctl =>
    if !alive || m.hif.d3 || !bitAt ctl 31 || bits ctl 7 0 ≠ op then m
    else
      let m := m.setReg rSecMbxCtl (ctl &&& 0x7FF800FF#32)
      if m.bit rSecMbxStat 31 then m
      else if (List.range 256).all fun i => used.any (fun r => r.1 ≤ i && i < r.1 + r.2) || m.mbxIn.getD i 0 == 0 then k true m.mbxIn m
      else m.mbxResult true .range []
  | .dexzon args =>
    if !alive || !m.sec.dexUp || !dexzon then m
    else
      let a := padTo 256 args
      if (List.range 256).all fun i => used.any (fun r => r.1 ≤ i && i < r.1 + r.2) || a.getD i 0 == 0 then k false a m
      else m.mbxResult false .range []

/-- The mailbox accepts commands (R403 step 6). -/
def Mach.rotUp (m : Mach) : Bool := !m.pwr.inReset && m.pwr.bootOk

/-- GET_ID (R426). -/
def mbxGetId (via : MbxVia) (m : Mach) : Mach :=
  m.mbx via 1 true [] m.rotUp fun h _ m =>
    match m.sec.sdev with
    | none => m.mbxResult h .noid []
    | some sd => m.mbxResult h .ok (pkBytes (publicKey (idk sd))
        ++ pkBytes (publicKey (alk sd (m.sec.m 0) m.sec.svn)) ++ leBytes 4 m.sec.svn.toNat ++ devId sd)

def execMbxGetId (via : MbxVia) (s : State) : Host.Outcome State Fault Refusal := done s (mbxGetId via s.m)

/-- The certificate chain (R401). -/
def Mach.certChain (m : Mach) (sd : BitVec 256) : List Byte :=
  Config.deviceCerts ++ Config.issueCert (idk sd) (publicKey (alk sd (m.sec.m 0) m.sec.svn))
    ++ Config.issueCert (idk sd) (publicKey (stk sd (m.sec.m 1)))

/-- GET_CERTS writes the chain into the host region; a range outside the region or too small for the chain ends with RANGE
(R426, log 13). -/
def mbxGetCerts (via : MbxVia) (m : Mach) : Mach :=
  m.mbx via 2 true [(0, 12)] m.rotUp fun h a m =>
    match m.sec.sdev with
    | none => m.mbxResult h .noid []
    | some sd =>
      let c := m.certChain sd
      let off := fieldAt a 0 8
      let space := fieldAt a 8 4
      if !m.inHost off space || decide (space < c.length) then m.mbxResult h .range []
      else (m.setHostBytes off c).mbxResult h .ok (leBytes 4 c.length)

def execMbxGetCerts (via : MbxVia) (s : State) : Host.Outcome State Fault Refusal := done s (mbxGetCerts via s.m)

/-! ### Quotes (R407, R408) -/

/-- Bytes 0 to 575 of a quote (R407). -/
def Mach.quoteBody (m : Mach) (sd : BitVec 256) (kind ctx : Nat) (nonce : List Byte) (epub : List Byte) : List Byte :=
  let c := if ctx = 0xFFFF then none else m.ctx ctx
  let conf := match c with
    | some x => x.conf
    | none => false
  let resident := m.sec.resident == some ctx && m.sec.switching.isNone
  ascii "LQ9A" ++ [1#8] ++ leBytes 1 kind ++ leBytes 2 640 ++ leBytes 8 m.tb1 ++ padTo 32 nonce ++ devId sd
    ++ pkBytes (publicKey (alk sd (m.sec.m 0) m.sec.svn)) ++ (List.range 8).flatMap (fun i => bytes32 (m.sec.m i))
    ++ leBytes 2 ctx ++ leBytes 1 (b2n conf + 2 * b2n (m.rbits rSecCfg 1 0 != 0) + 4 * b2n resident) ++ [0#8]
    ++ leBytes 4 m.sec.svn.toNat
    ++ (match c with
        | some x => sha256 x.owner
        | none => zeros 32)
    ++ (match c with
        | some _ => bytes32 (m.activeDigest (some ctx))
        | none => zeros 32)
    ++ (match c with
        | some x => padTo 32 x.pkgSha
        | none => zeros 32)
    ++ padTo 64 epub ++ zeros 8

/-- An ECDSA signature of bytes under a scalar, with a per-message number from the DRBG (R399). -/
def Mach.sign (m : Mach) (d : BitVec 256) (bs : List Byte) : List Byte × Mach :=
  let (k, m) := m.draw
  (beBytes 64 (ecdsaSign d (scalarOf (leBytes 40 k.toNat)) (sha256 bs)).toNat, m)

/-- QUOTE (R407, R408): a fresh ephemeral pair for KIND 3 and 4 replaces the pair of the same context and kind. Dexzon may ask for
KIND 1 and 2 only (R426). -/
def mbxQuote (via : MbxVia) (m : Mach) : Mach :=
  m.mbx via 3 true [(0, 1), (2, 2), (8, 32)] m.rotUp fun h a m =>
    let kind := fieldAt a 0 1
    let ctx := fieldAt a 2 2
    let nonce := slice a 8 32
    match m.sec.sdev with
    | none => m.mbxResult h .noid []
    | some sd =>
      if kind = 0 ∨ 4 < kind ∨ (h = false ∧ 2 < kind) ∨ (15 < ctx ∧ ctx ≠ 0xFFFF) then m.mbxResult h .range []
      else if ctx ≠ 0xFFFF ∧ (m.ctx ctx).isNone then m.mbxResult h .noctx []
      else
        let (r, m) := m.draw
        let priv := scalarOf (leBytes 40 r.toNat)
        let body := m.quoteBody sd kind ctx nonce (if 3 ≤ kind then pkBytes (publicKey priv) else [])
        let (sig, m) := m.sign (alk sd (m.sec.m 0) m.sec.svn) body
        let q := body ++ sig
        let e : Ephem := { ctx := ctx, kind := kind, nonce := nonce, priv := priv, quote := sha q, t := m.tb1 }
        let m := if 3 ≤ kind then
            { m with sec := { m.sec with ephems := e :: m.sec.ephems.filter fun x => !(x.ctx == ctx && x.kind == kind) } }
          else m
        m.mbxResult h .ok q

def execMbxQuote (via : MbxVia) (s : State) : Host.Outcome State Fault Refusal := done s (mbxQuote via s.m)

/-- A pair outlives its quote by 60 s of TB1 (R408). -/
def Ephem.alive (e : Ephem) (now : Nat) : Bool := decide (now < e.t + 60000000000)

/-- EPHEMERAL_EXPIRY: pairs whose 60 s have passed are destroyed (R408). -/
def ephemeralExpiry (m : Mach) : Mach :=
  { m with sec := { m.sec with ephems := m.sec.ephems.filter fun e => e.alive m.tb1 } }

def execEphemeralExpiry (s : State) : Host.Outcome State Fault Refusal := done s (ephemeralExpiry s.m)

/-- The living pair of a context, kind and nonce. -/
def Mach.pairOf (m : Mach) (ctx kind : Nat) (nonce : List Byte) : Option Ephem :=
  m.sec.ephems.find? fun e => e.ctx == ctx && e.kind == kind && e.nonce == nonce && e.alive m.tb1
/-- A pair is destroyed when it is used (R408). -/
def Mach.dropPair (m : Mach) (ctx kind : Nat) : Mach :=
  { m with sec := { m.sec with ephems := m.sec.ephems.filter fun x => !(x.ctx == ctx && x.kind == kind) } }

/-! ### Regions and contexts (R404, R415) -/

/-- DDR4 capacity in bytes (R7). -/
def Mach.ddrSize (m : Mach) : Nat := m.variant.ddr * 2 ^ 30
/-- The firmware area: the top 64 MiB (R105). -/
def Mach.fwBase (m : Mach) : Nat := m.ddrSize - 2 ^ 26
/-- The ranges in use: the host region, the contexts' regions and the firmware area (R404). -/
def Mach.usedRanges (m : Mach) : List (Nat × Nat) :=
  (m.sec.hostBase, m.sec.hostSize) :: (m.fwBase, 2 ^ 26) :: m.sec.ctxs.flatMap fun c => [(c.2.pbase, c.2.psize), (c.2.tbase, c.2.tsize)]
/-- A range meets none of the ranges in use and lies in DDR4. -/
def Mach.rangeFree (m : Mach) (used : List (Nat × Nat)) (a n : Nat) : Bool :=
  decide (a + n ≤ m.ddrSize) && used.all fun r => decide (a + n ≤ r.1) || decide (r.1 + r.2 ≤ a) || n == 0 || r.2 == 0
/-- A place for a region: the RoT's choice, when it is a place (R404, log 14). -/
def Mach.placeFor (m : Mach) (used : List (Nat × Nat)) (n : Nat) : Option Nat :=
  match Config.placeRegion used n with
  | none => none
  | some a => if m.rangeFree used a n then some a else none

/-- HOST_REGION (R404, R426). -/
def mbxHostRegion (via : MbxVia) (m : Mach) : Mach :=
  m.mbx via 4 false [(0, 16)] m.rotUp fun h a m =>
    let base := fieldAt a 0 8
    let size := fieldAt a 8 8
    if !m.sec.ctxs.isEmpty then m.mbxResult h .exists_ []
    else if base % 2 ^ 30 ≠ 0 ∨ size % 2 ^ 30 ≠ 0 ∨ size = 0 ∨ m.fwBase < base + size then m.mbxResult h .range []
    else ({ m with sec := { m.sec with hostBase := base, hostSize := size } }).mbxResult h .ok []

def execMbxHostRegion (via : MbxVia) (s : State) : Host.Outcome State Fault Refusal := done s (mbxHostRegion via s.m)

/-- The bytes of DDR4 in a range are forgotten. -/
def Mach.dropDdr (m : Mach) (a n : Nat) : Mach :=
  { m with mem := { m.mem with
      ddr := FMap.clear m.mem.ddr fun k => decide (a ≤ k) && decide (k < a + n),
      eccDdr := FMap.clear m.mem.eccDdr (wholeBeat a n),
      rekeys := m.mem.rekeys.filter fun r => !(r.1 == a && r.2.1 == n) } }

/-- A range of DDR4 is zero-filled under a key that is drawn for this and destroyed (R415, R418). -/
def Mach.zeroDdr (m : Mach) (a n : Nat) : Mach :=
  let (k, m) := m.draw
  let m := m.dropDdr a n
  { m with mem := { m.mem with fills := (a, n, k) :: m.mem.fills.filter fun r => !(decide (a ≤ r.1) && decide (r.1 + r.2.1 ≤ a + n)) } }

/-- A range of DDR4 has a new key: what it holds is deciphered with that (R405). -/
def Mach.rekey (m : Mach) (a n : Nat) (k : BitVec 512) : Mach :=
  let m := m.dropDdr a n
  { m with mem := { m.mem with rekeys := (a, n, k) :: m.mem.rekeys } }

/-- CTX_CREATE (R415, R422, R426): the context is defined with fresh regions and a fresh K_P. -/
def mbxCtxCreate (via : MbxVia) (m : Mach) : Mach :=
  m.mbx via 5 false [(0, 3), (4, 8), (64, 128)] m.rotUp fun h a m =>
    let c := fieldAt a 0 2
    let flags := fieldAt a 2 1
    let psize := fieldAt a 4 4 * 2 ^ 26
    let tsize := fieldAt a 8 4 * 2 ^ 26
    if m.sec.switching.isSome then m.mbxResult h .busy []
    else if m.sec.sdev.isNone then m.mbxResult h .noid []
    else if 15 < c ∨ 1 < flags then m.mbxResult h .range []
    else if (m.ctx c).isSome then m.mbxResult h .exists_ []
    else
      match m.placeFor m.usedRanges psize with
      | none => m.mbxResult h .nospace []
      | some pb =>
        match m.placeFor ((pb, psize) :: m.usedRanges) tsize with
        | none => m.mbxResult h .nospace []
        | some tb =>
          let (k, m) := m.draw
          let x : Ctx :=
            { owner := slice a 64 128, conf := flags == 1, psize := psize, tsize := tsize, pbase := pb, tbase := tb, kp := k,
              kt := none, kw := none, kos := none, pkg := none, pkgSha := [] }
          ((m.setCtx c x).rekey pb psize k).mbxResult h .ok (leBytes 8 pb ++ leBytes 8 tb)

def execMbxCtxCreate (via : MbxVia) (s : State) : Host.Outcome State Fault Refusal := done s (mbxCtxCreate via s.m)

/-- CTX_DELETE (R415, R422): the keys are destroyed, both regions zero-filled before they are freed, and with them goes what adaptation
kept for the context (R269). -/
def mbxCtxDelete (via : MbxVia) (m : Mach) : Mach :=
  m.mbx via 6 false [(0, 2)] m.rotUp fun h a m =>
    let c := fieldAt a 0 2
    if m.sec.switching.isSome then m.mbxResult h .busy []
    else match m.ctx c with
      | none => m.mbxResult h .noctx []
      | some x =>
        if m.sec.resident = some c then m.mbxResult h .state []
        else
          let m := (m.zeroDdr x.pbase x.psize).zeroDdr x.tbase x.tsize
          let m : Mach := { m with
            parked := m.parked.filter fun p => p.1 != c + 1,
            adapt := if m.adapt.owner = c + 1 then { Adapt.empty with owner := c + 1 } else m.adapt }
          ({ m with sec := { m.sec with ctxs := m.sec.ctxs.filter (fun p => p.1 != c),
                                        ephems := m.sec.ephems.filter (fun e => e.ctx != c) } }).mbxResult h .ok []

def execMbxCtxDelete (via : MbxVia) (s : State) : Host.Outcome State Fault Refusal := done s (mbxCtxDelete via s.m)

/-! ### Ring sessions (R413, R414) -/

/-- A participant's RINGREQ quote verifies for a session: chain, alias, signature, kind, context, M0 to M2, and for a context
session OWNER and WEAVE (R413). -/
def Mach.verifyPeer (m : Mach) (ctx : Nat) (chain quote : List Byte) : Bool :=
  (match Config.chainKey Config.deviceCa chain with
   | none => false
   | some k => k == pkOf (slice quote 80 64) &&
      ecdsaVerify k (sha256 (quote.take 576)) (pkOf (slice quote 576 64)))
    && (pointOf (pkOf (slice quote 504 64))).isSome
    && fieldAt quote 5 1 == 4 && slice quote 0 5 == ascii "LQ9A" ++ [1#8] && fieldAt quote 400 2 == ctx
    && slice quote 144 96 == bytes32 (m.sec.m 0) ++ bytes32 (m.sec.m 1) ++ bytes32 (m.sec.m 2)
    && (ctx == 0xFFFF ||
      (match m.ctx ctx with
       | none => false
       | some x => slice quote 408 32 == sha256 x.owner && slice quote 440 32 == bytes32 (m.activeDigest (some ctx))))

/-- A shared secret as bytes: the X coordinate, big-endian (R399). -/
def secretBytes (z : BitVec 256) : List Byte := beBytes 32 z.toNat

/-- The info string of a blob's key (R409). -/
def kekInfo (kind ctx : Nat) (bind : List Byte) : List Byte := ascii "L9 KEK" ++ leBytes 1 kind ++ leBytes 2 ctx ++ bind

/-- A blob (R409) with a fresh ephemeral key and IV: bytes 0 to 207, then the signature of the given scalar. -/
def Mach.makeBlob (m : Mach) (kind : Nat) (nonce bind : List Byte) (peer : BitVec 512) (key : List Byte) (session ctx : Nat)
    (signer : BitVec 256) : List Byte × Mach :=
  let (p, m) := m.draw
  let (v, m) := m.draw
  let spriv := scalarOf (leBytes 40 p.toNat)
  let iv := leBytes 12 v.toNat
  let head := ascii "LB9A" ++ [1#8] ++ leBytes 1 kind ++ leBytes 2 272 ++ padTo 32 nonce ++ padTo 32 bind
    ++ pkBytes (publicKey spriv)
  let kek := hkdf nonce (secretBytes ((ecdh spriv peer).getD 0)) (kekInfo kind ctx bind) 32
  let w := gcmSeal (BitVec.ofNat 256 (leNat kek)) iv head key
  let body := head ++ padTo 12 iv ++ padTo 16 w.2 ++ padTo 32 w.1 ++ leBytes 4 session ++ leBytes 2 ctx ++ zeros 6
  let (sig, m) := m.sign signer body
  (body ++ sig, m)

/-- The key that a blob wraps, opened with the receiver's scalar, or nothing when its tag fails (R409). -/
def openBlob (blob : List Byte) (priv : BitVec 256) : Option (List Byte) :=
  let kind := fieldAt blob 5 1
  let nonce := slice blob 8 32
  match ecdh priv (pkOf (slice blob 72 64)) with
  | none => none
  | some z =>
    let kek := hkdf nonce (secretBytes z) (kekInfo kind (fieldAt blob 200 2) (slice blob 40 32)) 32
    gcmOpen (BitVec.ofNat 256 (leNat kek)) (slice blob 136 12) (slice blob 0 136) (slice blob 164 32) (slice blob 148 16)

/-- The blob's format is exact and its signature verifies under a key (R409). -/
def blobOk (blob : List Byte) (kind : Nat) (signer : BitVec 512) : Bool :=
  slice blob 0 5 == ascii "LB9A" ++ [1#8] && fieldAt blob 5 1 == kind && fieldAt blob 6 2 == 272
    && (slice blob 202 6).all (· == 0)
    && ecdsaVerify signer (sha256 (blob.take 208)) (pkOf (slice blob 208 64))

/-- A session installed in place of the old one of its kind: the tool session, or the session of a context (R412, R413). -/
def Mach.installSession (m : Mach) (x : Session) : Mach :=
  { m with sec := { m.sec with
      sessions := x :: m.sec.sessions.filter fun y => (y.ctx == 0xFFFF) != (x.ctx == 0xFFFF) } }

/-- The blobs of RING_KEYGEN, one for each peer record, in order (R413). -/
def Mach.ringBlobs (m : Mach) (signer : BitVec 256) (key bind : List Byte) (session ctx : Nat) :
    List (List Byte) → List Byte × Mach
  | [] => ([], m)
  | r :: rs =>
    let quote := slice r 64 640
    let (b, m2) := m.makeBlob 3 (slice quote 16 32) bind (pkOf (slice quote 504 64)) key session ctx signer
    let (rest, m3) := m2.ringBlobs signer key bind session ctx rs
    (b ++ rest, m3)

/-- RING_KEYGEN (R413): every peer verifies or nothing is written; the key is drawn, a blob written for each participant, and the
session installed here. -/
def mbxRingKeygen (via : MbxVia) (m : Mach) : Mach :=
  m.mbx via 0xA false [(0, 2), (4, 5), (16, 16)] m.rotUp fun h a m =>
    let ctx := fieldAt a 0 2
    let session := fieldAt a 4 4
    let n := fieldAt a 8 1
    let inOff := fieldAt a 16 8
    let outOff := fieldAt a 24 8
    if m.sec.switching.isSome then m.mbxResult h .busy []
    else match m.sec.sdev with
    | none => m.mbxResult h .noid []
    | some sd =>
      let recs := (List.range n).map fun i => m.hostBytes (inOff + 704 * i) 704
      if n = 0 ∨ 31 < n ∨ !m.inHost inOff (704 * n) ∨ !m.inHost outOff (272 * n)
          ∨ (recs.any fun r => !m.inHost (fieldAt r 8 8) (fieldAt r 16 4)) then m.mbxResult h .range []
      else if ctx ≠ 0xFFFF ∧ (m.ctx ctx).isNone then m.mbxResult h .noctx []
      else match m.sec.ephems.find? fun e => e.ctx == ctx && e.kind == 4 && e.alive m.tb1 with
        | none => (m.raiseSec 4).mbxResult h .expired []
        | some own =>
          let m := recs.foldl (fun (m : Mach) r => m.readHost (fieldAt r 8 8) (fieldAt r 16 4)) (m.readHost inOff (704 * n))
          if !(recs.all fun r => m.verifyPeer ctx (m.hostBytes (fieldAt r 8 8) (fieldAt r 16 4)) (slice r 64 640)) then
            m.mbxResult h .policy []
          else
            let (k, m) := m.draw
            let key := leBytes 32 k.toNat
            let (blobs, m) := m.ringBlobs (alk sd (m.sec.m 0) m.sec.svn) key (bytes32 own.quote) session ctx recs
            let m := (m.setHostBytes outOff blobs).dropPair ctx 4
            (m.installSession { ctx := ctx, num := BitVec.ofNat 32 session, key := BitVec.ofNat 256 (leNat key) }).mbxResult h .ok
              (leBytes 4 n)

def execMbxRingKeygen (via : MbxVia) (s : State) : Host.Outcome State Fault Refusal := done s (mbxRingKeygen via s.m)

/-- RING_INSTALL (R413): the leader verifies as step 3 verifies peers, the blob answers this module's quote and binds the
leader's, and the session is installed. -/
def mbxRingInstall (via : MbxVia) (m : Mach) : Mach :=
  m.mbx via 0xB false [(0, 2), (8, 16)] m.rotUp fun h a m =>
    let ctx := fieldAt a 0 2
    let bOff := fieldAt a 8 8
    let rOff := fieldAt a 16 8
    let blob := m.hostBytes bOff 272
    let r := m.hostBytes rOff 704
    let quote := slice r 64 640
    if m.sec.switching.isSome then m.mbxResult h .busy []
    else if m.sec.sdev.isNone then m.mbxResult h .noid []
    else if !m.inHost bOff 272 ∨ !m.inHost rOff 704 ∨ !m.inHost (fieldAt r 8 8) (fieldAt r 16 4) then m.mbxResult h .range []
    else if ctx ≠ 0xFFFF ∧ (m.ctx ctx).isNone then m.mbxResult h .noctx []
    else
    let m := ((m.readHost bOff 272).readHost rOff 704).readHost (fieldAt r 8 8) (fieldAt r 16 4)
    if !m.verifyPeer ctx (m.hostBytes (fieldAt r 8 8) (fieldAt r 16 4)) quote then m.mbxResult h .policy []
    else if !blobOk blob 3 (pkOf (slice quote 80 64)) || fieldAt blob 200 2 ≠ ctx then (m.raiseSec 3).mbxResult h .sig []
    else match m.pairOf ctx 4 (slice blob 8 32) with
      | none => (m.raiseSec 4).mbxResult h .expired []
      | some e =>
        if slice blob 40 32 ≠ sha256 quote then (m.raiseSec 3).mbxResult h .bind []
        else match openBlob blob e.priv with
          | none => (m.raiseSec 3).mbxResult h .sig []
          | some key =>
            ((m.dropPair ctx 4).installSession
              { ctx := ctx, num := BitVec.ofNat 32 (fieldAt blob 196 4), key := BitVec.ofNat 256 (leNat key) }).mbxResult h .ok []

def execMbxRingInstall (via : MbxVia) (s : State) : Host.Outcome State Fault Refusal := done s (mbxRingInstall via s.m)

/-! ### Management CA, firmware, Dexzon, debug configuration (R402, R423-R426) -/

/-- MGMT_CA (R425): the first CA is taken; a later one is signed by the installed CA, or written by the host while CA_LOCK is 0.
LOCK = 1 sets CA_LOCK, and only a CA-signed command clears it. -/
def mbxMgmtCa (via : MbxVia) (m : Mach) : Mach :=
  m.mbx via 0xC true [(0, 1), (8, 16)] m.rotUp fun h a m =>
    let lock := fieldAt a 0 1
    let off := fieldAt a 8 8
    let len := fieldAt a 16 4
    let sOff := fieldAt a 20 4
    let cert := m.hostBytes off len
    if 1 < lock ∨ len = 0 ∨ !m.inHost off len ∨ (sOff ≠ 0 ∧ !m.inHost sOff 64) then m.mbxResult h .range []
    else
      let m := (m.readHost off len).readHost sOff (if sOff = 0 then 0 else 64)
      let signed := match m.flash.ca with
        | none => false
        | some old => sOff != 0 && Config.caSigns old cert (m.hostBytes sOff 64)
      let allowed := (m.flash.ca.isNone && h) || signed || (h && !m.flash.caLock)
      if !allowed then m.mbxResult h .sig []
      else
        let locked := if signed then lock == 1 else m.flash.caLock || lock == 1
        ({ m with flash := { m.flash with ca := some cert, caLock := locked } }).mbxResult h .ok []

def execMbxMgmtCa (via : MbxVia) (s : State) : Host.Outcome State Fault Refusal := done s (mbxMgmtCa via s.m)

/-- FW_UPDATE (R403, R426): the image verifies, its SVN is not below the one recorded in flash, and it is written to the copy
that is not in use, which is tried first from the next reset (log 15). It is the one command that a RoT that stayed in ROM
answers. -/
def mbxFwUpdate (via : MbxVia) (m : Mach) : Mach :=
  m.mbx via 0xD true [(8, 12)] (m.rotUp || (!m.pwr.inReset && m.sec.romOnly)) fun h a m =>
    let off := fieldAt a 8 8
    let len := fieldAt a 16 4
    let img := m.hostBytes off len
    if !m.inHost off len then m.mbxResult h .range []
    else
      let m := m.readHost off len
      let (ok, svn) := Config.fwCheck img
      if !ok then m.mbxResult h .sig []
      else if svn.toNat < m.flash.svnMin.toNat then m.mbxResult h .policy []
      else
        let ds := Config.fwDigests img
        let f : FwCopy :=
          { valid := true, svn := svn, rotOk := true, rot := ds.getD 0 0, stwOk := true, stw := ds.getD 1 0,
            ctrl := ((ds.drop 2).take 4).map fun d => (true, d) }
        let old := if m.flash.fwA.valid && m.flash.fwA.rotOk then m.flash.fwA else m.flash.fwB
        ({ m with flash := { m.flash with fwA := f, fwB := old } }).mbxResult h .ok (leBytes 4 svn.toNat)

def execMbxFwUpdate (via : MbxVia) (s : State) : Host.Outcome State Fault Refusal := done s (mbxFwUpdate via s.m)

/-- The steward and a client agree on TLS: version 1.3, a cipher suite of R424, the group secp256r1, the signature scheme
ecdsa_secp256r1_sha256, in a full handshake; what a client offers besides does not count. -/
def helloAgrees (h : TlsHello) : Bool :=
  h.tls13 && (h.suites.contains .aes256GcmSha384 || h.suites.contains .aes128GcmSha256) && h.groups.contains .secp256r1
    && h.schemes.contains .ecdsaSecp256r1Sha256 && h.fullHandshake

/-- DEXZON_CONNECT (R424, R425): accepted when the handshake keeps to R424, the client's certificate chains to the installed management CA
and the client asks for API version major 1; refused without a CA. -/
def dexzonConnect (hello : DexzonHello) (chain : List Byte) (m : Mach) : Mach :=
  if m.pwr.inReset || !m.sec.steward || !m.pos.ptp.mgmtUp then m
  else
    let ok := match m.flash.ca with
      | none => false
      | some ca => helloAgrees hello.tls && (Config.chainKey ca chain).isSome && hello.major == 1
    { m with sec := { m.sec with dexUp := ok } }

def execDexzonConnect (hello : DexzonHello) (chain : List Byte) (s : State) : Host.Outcome State Fault Refusal :=
  done s (dexzonConnect hello chain s.m)

/-- SEC_CFG_WRITE (R402, R423): outside confidential mode JTAG_EN and TRACE_EN take the bits written, and a change extends M3. -/
def secCfgWrite (v : W32) (m : Mach) : Mach :=
  if !m.hostUp then m
  else
    let m' := m.writeReg rSecCfg v
    if m'.reg rSecCfg = m.reg rSecCfg then m' else m'.extendM3

def execSecCfgWrite (v : W32) (s : State) : Host.Outcome State Fault Refusal := done s (secCfgWrite v s.m)

end Sys2Proof.Machine
end

