-- ==== Sys2Proof/Machine/Sluice.lean ====
section
/-! DEFINITION. The sluice engines (R106, R123-R128). -/
namespace Sys2Proof.Machine

/-- The SLUICE queue that feeds an engine (R379). -/
def Mach.engineQueue (m : Mach) (e : Nat) : Option Nat :=
  (List.range 8192).find? fun q => m.qEn q && m.qType q == 4 && m.rbits (rQLink q) 20 16 == e

/-- MEM_SLU_CTL.MODE of an engine. -/
def Mach.engineMode (m : Mach) (e : Nat) : SluMode :=
  if (m.engine e).mode = .plan then .plan else if (m.engineQueue e).isSome then .queue else .free

/-! ### Descriptors (R124) -/

/-- The fields of a descriptor. -/
def sluDesc (bs : List Byte) : SluDesc :=
  let w := fieldAt bs 0 4
  let f := fieldAt bs 16 4
  let w24 := fieldAt bs 24 4
  let op := nbits w 3 0
  let toSlot := op == 1 || op == 4
  { op := op, ovr := w.testBit 4, last := w.testBit 5, gate := w.testBit 6, csig := w.testBit 7, crec := w.testBit 8,
    len := nbits w 29 16 + 1, daddr := (nbits (fieldAt bs 4 5) 36 0 : Nat), sstack := nbits (fieldAt bs 4 5) 30 28,
    sgran := (nbits (fieldAt bs 4 5) 27 6 : Nat), dstride := sext 32 (fieldAt bs 12 4),
    ftile := if toSlot then nbits f 9 0 else nbits f 2 0,
    fslot := if toSlot then (nbits f 22 10 : Nat) else (nbits f 24 3 : Nat),
    fstride := sext 32 (fieldAt bs 20 4), wtile := nbits w24 9 0, win := nbits w24 12 10, gen := nbits w24 24 13,
    glatch := nbits (fieldAt bs 28 4) 13 0, gcnt := nbits (fieldAt bs 28 4) 21 14, clatch := nbits (fieldAt bs 32 4) 13 0,
    ccnt := nbits (fieldAt bs 32 4) 21 14, ctile := nbits (fieldAt bs 36 4) 9 0, cslot := nbits (fieldAt bs 36 4) 22 10 }

/-- Bits of a descriptor that must be 0: reserved bits, TM for a destination other than a scratchpad (R124). -/
def sluReserved (bs : List Byte) : Bool :=
  let w := fieldAt bs 0 4
  let op := nbits w 3 0
  let toSlot := op == 1 || op == 4
  nbits w 15 9 != 0 || nbits w 31 30 != 0 || decide (4 < op) || (!toSlot && w.testBit 4) || (op != 0 && nbits (fieldAt bs 4 5) 5 0 != 0)
    || nbits (fieldAt bs 4 5) 39 37 != 0 || (op == 4 && nbits (fieldAt bs 4 5) 36 31 != 0) || (slice bs 9 3).any (· != 0)
    || (if toSlot then nbits (fieldAt bs 16 4) 31 23 != 0 else nbits (fieldAt bs 16 4) 31 25 != 0)
    || nbits (fieldAt bs 24 4) 31 25 != 0 || nbits (fieldAt bs 28 4) 31 22 != 0 || nbits (fieldAt bs 32 4) 31 22 != 0
    || nbits (fieldAt bs 36 4) 31 23 != 0 || (slice bs 40 24).any (· != 0)

/-- The fabric ranges of a transfer stay in their memories (R124, R127). -/
def SluDesc.inRange (d : SluDesc) : Bool :=
  let fits := fun (lim : Int) (a : Int) => decide (0 ≤ a) && decide (a + d.len ≤ lim)
  match d.op with
  | 1 => fits 8192 d.fslot
  | 2 => fits (2 ^ 22) d.fslot
  | 3 => fits (2 ^ 22) d.fslot
  | 4 => fits 8192 d.fslot && fits (2 ^ 22) d.sgran
  | _ => true

/-- Field ranges of a descriptor: only those of fields in use are checked (R124). -/
def SluDesc.fieldsOk (d : SluDesc) : Bool :=
  (!d.gate || decide (1 ≤ d.gcnt)) && (!d.csig || decide (1 ≤ d.ccnt)) && (!d.crec || decide (d.ctile < 576))
    && (!(d.op == 1 || d.op == 4) || decide (d.ftile < 576)) && (!(d.op == 2 || d.op == 3) || decide (d.ftile < 6))
    && (d.op == 0 || d.op == 3 || decide (d.wtile < 576)) && (d.op != 4 || decide (d.sstack < 6))

/-- A descriptor at the next pass (R127). -/
def SluDesc.advance (d : SluDesc) : SluDesc := { d with daddr := d.daddr + 64 * d.dstride, sgran := d.sgran + d.dstride, fslot := d.fslot + d.fstride }

/-! ### DDR4 (R105, R106, R136) -/

/-- A 64-byte access lies in a region of the context that occupies the fabric (R106). -/
def Mach.ddrAllowed (m : Mach) (a : Int) : Bool :=
  match m.sec.resident with
  | none => false
  | some c => match m.sec.ctxs.lookup c with
    | none => false
    | some x =>
      let inside := fun (b n : Nat) => decide ((b : Int) ≤ a) && decide (a + 64 ≤ b + n)
      decide (0 ≤ a) && decide (a + 64 ≤ m.fwBase) && (inside x.pbase x.psize || inside x.tbase x.tsize)

/-! ### Starting a descriptor (R125, R127) -/

/-- The generation a transfer carries: the one required, or the window's when it starts, 0 while it is closed (R125). -/
def sampledGen (w : Window) : Nat := if w.isOpen then w.gen else 0

/-- Granule k of a transfer is refused (R106): dropped, logged with REASON 0b101, and paired with its reader. -/
def Mach.refuseGranule (m : Mach) (e : Nat) (r : SluRun) (k : Nat) : Mach :=
  let d := r.desc
  let target : WTarget := if d.op = 1 then .slot d.ftile (d.fslot.toNat + k) else .gran d.ftile (d.fslot.toNat + k)
  let m := (m.logDrop (BitVec.ofNat 16 (0x4000 + e)) target 5).modRun e r.index r.pass fun x =>
    { x with left := x.left - 1, drops := x.drops + 1, ddrRange := true }
  m.pairDrop d.ovr target

/-- Granule k of a transfer sets out: DDR4 data is read and its write is in flight; a stack read is at its channel. -/
def Mach.startGranule (m : Mach) (e : Nat) (r : SluRun) (k : Nat) : Mach :=
  let d := r.desc
  let id := 0x4000 + e
  let a : Int := d.daddr + 64 * k
  let readAt := fun (m : Mach) (st g : Nat) =>
    { m with chanQ := m.chanQ ++ [{ stack := st, gran := g, requester := id, sched := false, due := m.cyc,
                                    read := some (.sluice e r.index r.pass k), write := none }] }
  if d.op = 4 then readAt m d.sstack (d.sgran.toNat + k)
  else if !m.ddrAllowed a then m.refuseGranule e r k
  else if d.op = 3 then readAt m d.ftile (d.fslot.toNat + k)
  else
    let n := a.toNat
    let ecc := m.ddrEcc n
    let m := m.ddrRead n id
    let x : EvX := { akind := 4, addr := n, info := r.index }
    let m := if ecc = .ue then m.raiseSlu e 1 x else if ecc = .ce then m.raiseSlu e 0 x else m
    let m := m.modRun e r.index r.pass fun x => { x with ue := x.ue || ecc == .ue, ce := x.ce || ecc == .ce }
    { m with flights := m.flights ++
        [{ writer := BitVec.ofNat 16 id, target := if d.op = 1 then .slot d.ftile (d.fslot.toNat + k) else .gran d.ftile (d.fslot.toNat + k),
           data := some (bytesSlot (m.ddrBytes n 64)), ovr := d.ovr, gen := some r.gen, issue := m.cyc, due := m.cyc, blocked := false,
           owner := .sluice e r.index r.pass }] }

/-- A descriptor in flight: its generations are fixed and its granules set out in ascending order, or, out of range, it moves
nothing and counts all of them as dropped (R125, R127). -/
def Mach.launch (m : Mach) (e : Nat) (d : SluDesc) (index pass : Nat) : Mach :=
  let x := m.engine e
  let bad := !d.inRange
  let cwin := (m.cover (.slot d.ctile d.cslot)).map fun p => p.2
  let r : SluRun :=
    { desc := d, index := index, pass := pass, gen := if d.gen = 0 then sampledGen (m.win d.wtile d.win) else d.gen,
      cgen := (cwin.map sampledGen).getD 0, left := if bad ∨ d.op = 0 then 0 else d.len, drops := if bad then d.len else 0, ue := false,
      ce := false, windrop := false, ddrRange := false, range := bad }
  let m := m.setEngine e { x with inflight := x.inflight ++ [r], st := .move }
  if bad then m.raiseSlu e 6
  else if d.op = 0 then m
  else
    let m := (List.range d.len).foldl (fun m k => m.startGranule e r k) m
    if (m.engine e).inflight.any fun x => x.index == index && x.pass == pass && x.ddrRange then m.raiseSlu e 5 else m

/-- The next descriptor and its number and pass, if the engine may start one (R125, R127). -/
def Mach.nextDesc (m : Mach) (e : Nat) : Option (SluDesc × Nat × Nat) :=
  let x := m.engine e
  if x.st = .fault ∨ x.st = .revoked ∨ 4 ≤ x.inflight.length then none
  else match m.engineMode e with
    | .plan =>
      if x.aborted ∨ m.runFailed ∨ (x.passes ≠ 0 ∧ x.passes ≤ x.pass) then none else (x.plan[x.next]?).map fun d => (d, x.next, x.pass)
    | .queue => x.queued.head?.map fun p => (p.2, p.1, 0)
    | .free => none

/-- The engine has taken the descriptor. A pass ends with the first LAST or the last descriptor: the pass counter and every address
advance (R127). -/
def Engine.took (x : Engine) (d : SluDesc) (plan : Bool) : Engine :=
  if !plan then { x with queued := x.queued.drop 1 }
  else if d.last ∨ x.plan.length ≤ x.next + 1 then
    { x with next := 0, pass := x.pass + 1, plan := x.plan.map SluDesc.advance }
  else { x with next := x.next + 1 }

/-- SLUICE_DESCRIPTOR_START (R125), from the weave's common start on (R127): the gate is asked for, or has been granted and the descriptor starts. A gate at a REVOKED latch
sets GATE_REV (R131). -/
def sluiceStart (e : Nat) (m : Mach) : Mach :=
  let m := if m.engineMode e = .plan then m.advanceTo (m.engine e).start else m
  match m.nextDesc e with
  | none => m
  | some (d, index, pass) =>
    let (m, ok) := if d.gate then m.gate (.engine e) d.glatch d.gcnt else (m, true)
    if !ok then
      let x := m.engine e
      let m := m.setEngine e { x with st := if x.inflight.isEmpty then .gate else .move }
      if (m.latch d.glatch).st = .revoked then m.raiseSlu e 3 else m
    else
      let plan := m.engineMode e == .plan
      let m := m.setEngine e ((m.engine e).took d plan)
      m.launch e d index pass

def execSluiceDescriptorStart (e : Fin 32) (s : State) : Host.Outcome State Fault Refusal := done s (sluiceStart e s.m)

/-! ### Completion (R125, R126, R380) -/

/-- The status bits of R126. -/
def SluRun.status (r : SluRun) : Nat :=
  1 + 2 * b2n r.ue + 4 * b2n r.windrop + 8 * b2n r.ce + 16 * b2n r.ddrRange + 32 * b2n r.range
/-- The completion record (R126). -/
def SluRun.record (r : SluRun) : List Byte :=
  padTo 64 (leBytes 2 r.index ++ leBytes 2 0 ++ leBytes 4 r.pass ++ leBytes 2 r.status ++ leBytes 2 (min r.drops 0xFFFF))

/-- The engine's state once its oldest descriptor is gone. -/
def Mach.engineAfter (m : Mach) (e : Nat) : SluState :=
  let x := m.engine e
  if x.st = .fault ∨ x.st = .revoked then x.st
  else if !x.inflight.isEmpty then .move
  else if m.engineMode e = .plan then (if x.passes ≠ 0 ∧ x.passes ≤ x.pass then .done else .gate)
  else .idle

/-- SLUICE_COMPLETE: the oldest descriptor in flight, when nothing of it is outstanding: record, then latch, then the queue's
completion (R125, R126, R380). -/
def sluiceComplete (e : Nat) (m : Mach) : Mach :=
  let x := m.engine e
  match x.inflight with
  | [] => m
  | r :: rest =>
    if r.left ≠ 0 ∨ x.st = .fault ∨ x.st = .revoked then m
    else
      let d := r.desc
      let id : BitVec 16 := BitVec.ofNat 16 (0x4000 + e)
      let queue := m.engineMode e == .queue
      let m := m.setEngine e { x with inflight := rest }
      let m := m.setEngine e { m.engine e with st := m.engineAfter e }
      let m :=
        if d.crec then
          { m with flights := m.flights ++
              [{ writer := id, target := .slot d.ctile d.cslot, data := some (bytesSlot r.record), ovr := false, gen := some r.cgen,
                 issue := m.cyc, due := m.cyc, blocked := false, owner := .crec e }] }
        else m
      let m := if d.csig then m.sendSignal d.clatch d.ccnt id else m
      match m.engineQueue e with
      | some q =>
        if queue then m.qReply q (padTo 16 (leBytes 4 r.index ++ leBytes 2 r.status ++ leBytes 2 (min r.drops 0xFFFF))) else m
      | none => m

def execSluiceComplete (e : Fin 32) (s : State) : Host.Outcome State Fault Refusal := done s (sluiceComplete e s.m)

/-- SLUICE_QUEUE_DESCRIPTOR: an engine in QUEUE mode takes an entry of its queue. A descriptor that R124 refuses sets DESC and is not
run; another one follows those taken before. -/
def sluiceQueueDescriptor (e : Nat) (entry : Slot) (m : Mach) : Mach :=
  match m.engineQueue e with
  | none => m
  | some q =>
    let x := m.engine e
    if m.engineMode e ≠ .queue ∨ !m.qReady q 4 ∨ x.st = .fault ∨ x.st = .revoked then m
    else
      let idx := (m.queue q).ci.toNat
      let m := m.qTake q
      let bs := slotBytes entry
      let d := sluDesc bs
      if sluReserved bs || !d.fieldsOk || !d.inRange then m.raiseSlu e 6
      else sluiceStart e (m.setEngine e { m.engine e with queued := (m.engine e).queued ++ [(idx, d)] })

def execSluiceQueueDescriptor (e : Fin 32) (entry : Slot) (s : State) : Host.Outcome State Fault Refusal :=
  done s (sluiceQueueDescriptor e entry s.m)

/-! ### Abort and fault -/

/-- What an engine has under way is gone: descriptors in flight, writes and reads on their way, its wait. -/
def Mach.dropInflight (m : Mach) (e : Nat) : Mach :=
  let mine := fun (o : WOwner) => match o with
    | .sluice k _ _ => k == e
    | _ => false
  { m with
    flights := m.flights.filter fun f => !mine f.owner,
    chanQ := m.chanQ.filter fun q => !((match q.read with
        | some (.sluice k _ _ _) => k == e
        | _ => false) || q.write.any fun (f : Flight) => mine f.owner),
    waits := m.waits.filter fun (w : Wait) => w.who != Waiter.engine e }.setEngine e { m.engine e with inflight := [] }

/-- SLUICE_ABORT: 1 written to MEM_SLU_CTL.ABORT. In PLAN mode the engine stays IDLE until the weave stops. -/
def sluiceAbort (e : Nat) (m : Mach) : Mach :=
  if !m.hostWrites (rMemSluCtl e) || !m.variant.hasEngine e then m
  else
    let x := m.engine e
    if x.st = .fault ∨ x.st = .revoked then m
    else
      let m := m.dropInflight e
      m.setEngine e { m.engine e with st := .idle, aborted := x.mode == .plan }

def execSluiceAbort (e : Fin 32) (s : State) : Host.Outcome State Fault Refusal := done s (sluiceAbort e s.m)

/-- SLUICE_FAULT: an internal error; the engine enters FAULT (R128). -/
def sluiceFault (e : Nat) (m : Mach) : Mach :=
  if !m.variant.hasEngine e then m else (m.setEngine e { m.engine e with st := .fault }).raiseSlu e 4

def execSluiceFault (e : Fin 32) (s : State) : Host.Outcome State Fault Refusal := done s (sluiceFault e s.m)

end Sys2Proof.Machine
end

