-- ==== Sys2Proof/Machine/Resp.lean ====
section
/-! DEFINITION. Armed responses and the state dump's area (R440-R442, R447, R452): an action starts, is done, and reports its
status. -/
namespace Sys2Proof.Machine

/-- RESPONSE (R442): the first response called for starts its action; an entry with AUTO = 0 clears its ARMED bit, and an entry
that is no longer armed does nothing. -/
def response (m : Mach) : Mach :=
  match m.flt.rsps with
  | [] => m
  | r :: rest =>
    let act := m.reg (rRspAct r.entry)
    let m := { m with flt := { m.flt with rsps := rest } }
    if !bitAt act 31 then m
    else
      let started := { r with action := bits act 27 24, arg := bits act 15 0 }
      let m := { m with flt := { m.flt with started := m.flt.started ++ [started] } }
      if bitAt act 30 then m else m.putBit (rRspAct r.entry) 31 false

def execResponse (s : State) : Host.Outcome State Fault Refusal := done s (response s.m)

/-- The started response of an entry with an action. -/
def Flt.startedOf (f : Flt) (r action : Nat) : Option Rsp := f.started.find? fun p => p.entry == r && p.action == action
def Flt.dropStarted (f : Flt) (p : Rsp) : Flt := { f with started := f.started.erase p }

/-- An action ends: FIRED advances, LAST takes its status, and a DEV RESPONSE event is logged (R442). -/
def Mach.endAction (m : Mach) (r action status : Nat) : Mach :=
  ((m.incFld (rRspStat r) 31 16).setFld (rRspStat r) 7 0 status).dev 0xB r { info := action * 256 + status }

/-- An action that a started response calls for: k performs it and gives its status (R441). -/
def Mach.act (m : Mach) (r action : Nat) (k : Rsp → Mach → Mach × Nat) : Mach :=
  match m.flt.startedOf r action with
  | none => m
  | some p =>
    let res := k p { m with flt := m.flt.dropStarted p }
    res.1.endAction r action res.2

/-- NONE (R441). -/
def actNone (r : Nat) (m : Mach) : Mach := m.act r 0 fun _ m => (m, 0)

def execActNone (r : Fin 32) (s : State) : Host.Outcome State Fault Refusal := done s (actNone r s.m)

/-- A dump is held, or being written (R447). -/
def Mach.dumpTaken (m : Mach) : Bool := m.bit rFltDumpStat 31 || m.bit rFltDumpStat 30

/-- DUMP: DONE, or REFUSED when a dump is held (R441). -/
def actDump (r : Nat) (m : Mach) : Mach :=
  m.act r 7 fun p m => (m.triggerDump (some p.ev) true, if m.dumpTaken then 3 else 0)

def execActDump (r : Fin 32) (s : State) : Host.Outcome State Fault Refusal := done s (actDump r s.m)

/-- DUMP_REQ: a write of FLT_DUMP_CTL.REQ (R447). -/
def dumpReq (m : Mach) : Mach := if m.hostUp then m.triggerDump none true else m

def execDumpReq (s : State) : Host.Outcome State Fault Refusal := done s (dumpReq s.m)

/-- DUMP_COPY (R452): the held dump goes to the host region at FLT_DUMP_DST, or COPY_ERR is set. -/
def dumpCopy (m : Mach) : Mach :=
  if !m.hostUp then m
  else match m.flt.dump with
    | none => m.putBit rFltDumpStat 25 true
    | some d =>
      let dst := (m.reg64 rFltDumpDstLo).toNat
      if m.bit rFltDumpStat 31 && !m.bit rFltDumpStat 30 && m.inHost dst d.bytes.length then m.setHostBytes dst d.bytes
      else m.putBit rFltDumpStat 25 true

def execDumpCopy (s : State) : Host.Outcome State Fault Refusal := done s (dumpCopy s.m)

/-- DUMP_RELEASE: 1 written to VALID releases the area and clears MISSED (R447). -/
def dumpRelease (m : Mach) : Mach :=
  if m.hostUp && m.bit rFltDumpStat 31 then
    ({ m with flt := { m.flt with dump := none } }.putBit rFltDumpStat 31 false).setFld rFltDumpStat 15 0 0
  else m

def execDumpRelease (s : State) : Host.Outcome State Fault Refusal := done s (dumpRelease s.m)

end Sys2Proof.Machine
end

