-- ==== Sys2Proof/Machine/Lease.lean ====
section
/-! DEFINITION. Leases and their revocation (R132-R135, R443), the errors that patrol scrubbing finds (R136, R137), and the counter
registers of MEM and FAB. -/
namespace Sys2Proof.Machine

/-! ### Revocation (R135) -/

/-- The ID of a holder: a writer ID or a queue number (R133). -/
def holderId : Holder → Nat
  | .tile t => t
  | .engine e => 0x4000 + e
  | .queue q => q

/-- Zeros over a range of a memory. -/
def zeroCells (m : List Host.Cell) (lo hi : Nat) : List Host.Cell := FMap.clear m fun a => decide (lo ≤ a) && decide (a < hi)

/-- A window closed by revocation: its generation advances and its slots or granules are zero; slot tags empty and skews 0. -/
def Mach.revokeWindow (m : Mach) (t w : Nat) : Mach :=
  let x := m.win t w
  let m := m.setWin t w { x.opened with isOpen := false, revoked := true }
  if x.kind then
    { m with mem := { m.mem with
        stack := zeroCells m.mem.stack (granAddr x.stack x.base) (granAddr x.stack x.limit + 64),
        eccStack := FMap.clear m.mem.eccStack fun k =>
          decide (x.stack * 2 ^ 22 + x.base ≤ k / 4) && decide (k / 4 ≤ x.stack * 2 ^ 22 + x.limit) } }
  else
    let inside := fun (k : Nat) => decide (t * 8192 + x.base ≤ k) && decide (k ≤ t * 8192 + x.limit)
    { m with mem := { m.mem with
        spad := zeroCells m.mem.spad (spadAddr t x.base) (spadAddr t x.limit + 64),
        tags := FMap.clear m.mem.tags inside, skews := FMap.clear m.mem.skews inside, eccSpad := FMap.clear m.mem.eccSpad fun k => inside (k / 8),
        crecUe := FMap.clear m.mem.crecUe inside } }

/-- The latches that a writer owns become REVOKED with count 0, and a gate that waits on one of them says so (R131); the answer counts
them. -/
def Mach.revokeLatches (m : Mach) (owner : BitVec 16) : Mach × Nat :=
  let mine := m.latches.filter fun p => p.2.owner == owner && p.2.st == .held
  let m := mine.foldl (fun (m : Mach) p => m.setLatch p.1 { p.2 with count := 0, st := .revoked }) m
  ((m.waits.filter fun w => w.granted.isNone && mine.any fun p => p.1 == w.latch).foldl (fun (m : Mach) w => m.gateRevoked w.who) m,
   mine.length)

/-- An engine's lease: what it has in flight is aborted without records, its plan is cleared, and it is REVOKED. -/
def Mach.revokeEngine (m : Mach) (e : Nat) : Mach :=
  (m.dropInflight e).setEngine e { (m.dropInflight e).engine e with plan := [], queued := [], feeds := false, st := .revoked }

/-- Every lease of a holder revoked, once (R135, R443): latches, windows and the tile's inbound buffer, or the engine. The answer is
the number of leases. -/
def Mach.revokeLeases (m : Mach) (h : Holder) : Mach × Nat :=
  if m.revoked.contains h then (m, 0)
  else
    let m := { m with revoked := m.revoked ++ [h] }
    match h with
    | .tile t =>
      let (m, n) := m.revokeLatches (BitVec.ofNat 16 t)
      let ws := (List.range 8).filter fun w => (m.win t w).used
      let m := ws.foldl (fun (m : Mach) w => m.revokeWindow t w) m
      let m := { m with inbox := m.inbox.filter fun e => e.tile != t }
      (if n + ws.length = 0 then m else m.raiseFab t 8, n + ws.length)
    | .engine e =>
      let (m, n) := m.revokeLatches (BitVec.ofNat 16 (0x4000 + e))
      if (m.engine e).mode = .plan then (m.revokeEngine e, n + 1) else (m, n)
    | .queue q =>
      match m.engines.find? fun p => p.2.feeds && p.2.queue == q.val with
      | some p => (m.revokeEngine p.1, 1)
      | none => (m, 0)

/-- A revocation begins: REVOKING stands until REVOCATION_COMPLETE. -/
def Mach.revoke (m : Mach) (h : Holder) (byHost : Bool) : Mach × Nat :=
  let (m, n) := m.revokeLeases h
  ({ m with revoking := m.revoking ++ [(h, n, byHost)] }, n)

/-- REVOCATION_COMPLETE: every zero-fill is done: REVOKED, a DEV LEASE_REV event for each holder, and SEC_ERR.REVOKE for a REVOKE. -/
def revocationComplete (m : Mach) : Mach :=
  if m.revoking.isEmpty then m
  else
    let l := m.revoking
    let m := { m with revoking := [] }.putBit rMemLeaseStat 1 true
    l.foldl (fun (m : Mach) p =>
      let m := m.dev 2 (holderId p.1) { info := min p.2.1 0xFFFF }
      if p.2.2 then m.raiseSec 2 else m) m

def execRevocationComplete (s : State) : Host.Outcome State Fault Refusal := done s (revocationComplete s.m)

/-- The holder's leases are due to expire: it has not been live for TERM µs, and they have not expired yet (R133). -/
def Mach.leaseDue (m : Mach) (h : Holder) : Bool :=
  !m.live h && m.hasLeases h
    && m.notLive.any fun p => p.1 == h && !p.2.2 && decide (p.2.1 + 1000 * m.rbits rMemLease 15 0 ≤ m.tb1)

/-- LEASE_EXPIRY: the holder's leases expire, and are revoked when MEM_LEASE.ARM is 1 (R133, R134). -/
def leaseExpiry (h : Holder) (m : Mach) : Mach :=
  if !m.leaseDue h then m
  else
    let m : Mach := { m with notLive := m.notLive.map fun p => if p.1 = h then (h, p.2.1, true) else p }
    let m := (m.putBit rMemLeaseStat 0 true).dev 1 (holderId h)
    if m.bit rMemLease 16 then (m.revoke h false).1 else m

def execLeaseExpiry (h : Holder) (s : State) : Host.Outcome State Fault Refusal := done s (leaseExpiry h s.m)

/-- A scrub is under way (R417, R443). -/
def Mach.scrubbing (m : Mach) : Bool := m.sec.switching.any fun w => decide (w.phase ≤ 2)

/-- REVOKE of the mailbox (R426): bytes 0-1 the holder, byte 2 whether it is a queue. -/
def mbxRevoke (via : MbxVia) (m : Mach) : Mach :=
  m.mbx via 9 false [(0, 3)] m.rotUp fun h a m =>
    let n := fieldAt a 0 2
    let k := fieldAt a 2 1
    let holder : Option Holder :=
      if k = 1 then (if n < 8192 then some (.queue (Fin.ofNat 8192 n)) else none)
      else if k ≠ 0 then none
      else if n < 576 then some (.tile (Fin.ofNat 576 n))
      else if 0x4000 ≤ n ∧ n < 0x4020 then some (.engine (Fin.ofNat 32 (n - 0x4000)))
      else none
    if m.scrubbing then m.mbxResult h .state []
    else match holder with
      | none => m.mbxResult h .range []
      | some x =>
        let (m, c) := m.revoke x true
        m.mbxResult h .ok (leBytes 4 c)

def execMbxRevoke (via : MbxVia) (s : State) : Host.Outcome State Fault Refusal := done s (mbxRevoke via s.m)

/-- The holder that an event's SOURCE names (R430, R441): a tile, an engine, or the queue of a HIF event. -/
def sourceHolder (e : Event) : Option Holder :=
  let writer : Option Holder :=
    if e.source < 576 then some (.tile (Fin.ofNat 576 e.source))
    else if 0x4000 ≤ e.source ∧ e.source < 0x4020 then some (.engine (Fin.ofNat 32 (e.source - 0x4000)))
    else none
  if e.block = 1 ∨ e.block = 2 then writer
  else if e.block = 0xC ∧ e.source < 8192 then some (.queue (Fin.ofNat 8192 e.source))
  else if e.block = 0xF ∧ e.bit ≤ 5 then writer
  else none

/-- REVOKE_ACTION: DONE, NOSRC, or REFUSED during a scrub (R441, R443). -/
def actRevoke (r : Nat) (m : Mach) : Mach :=
  m.act r 6 fun p m =>
    if m.scrubbing then (m, 3)
    else match sourceHolder p.ev with
      | none => (m, 2)
      | some h => ((m.revoke h false).1, 0)

def execActRevoke (r : Fin 32) (s : State) : Host.Outcome State Fault Refusal := done s (actRevoke r s.m)

/-! ### Patrol scrubbing and program memory (R136, R137) -/

/-- The words of a set whose errors can be corrected are corrected. -/
def scrubbed (l : List (Nat × Ecc)) (p : Nat → Bool) : List (Nat × Ecc) := l.filter fun e => !(p e.1 && e.2 == .ce)

/-- PATROL_SCRUB: an error that the scrub finds is corrected and counted, or reported. -/
def patrolScrub (u : ScrubUnit) (m : Mach) : Mach :=
  match u with
  | .stack st g =>
    let m' := m.stackRead st g.toNat 0xFFFF none
    { m' with mem := { m'.mem with eccStack := scrubbed m'.mem.eccStack fun w => w / 4 == st.val * 2 ^ 22 + g.toNat } }
  | .ddr g =>
    let m' := m.ddrRead (64 * g.toNat) 0xFFFF
    { m' with mem := { m'.mem with eccDdr := scrubbed m'.mem.eccDdr fun w => w / 8 == g.toNat } }

def execPatrolScrub (u : ScrubUnit) (s : State) : Host.Outcome State Fault Refusal := done s (patrolScrub u s.m)

/-- PMEM_UE: an uncorrectable program memory error; the tile enters FAULT and issues nothing further (R136, R439). -/
def pmemUe (t : TileIdx) (m : Mach) : Mach := if (m.tile t).mode != .run then m else m.pmemFault t

def execPmemUe (t : TileIdx) (s : State) : Host.Outcome State Fault Refusal := done s (pmemUe t s.m)

/-! ### Counters -/

/-- MEM_CE_CLR: 1 written to CLR sets the counts of corrected errors to 0. -/
def memCeClr (m : Mach) : Mach :=
  if !m.hostWrites rMemCeClr then m
  else
    let m := (List.range 6).foldl (fun (m : Mach) k => m.setReg (rMemStkCe k) 0) m
    (List.range 8).foldl (fun (m : Mach) k => m.setReg (rMemDdrCe k) 0) m

def execMemCeClr (s : State) : Host.Outcome State Fault Refusal := done s (memCeClr s.m)

/-- TILE_CNT_CLR: 1 written to CLR sets every counter of the tile to 0. -/
def tileCntClr (t : TileIdx) (m : Mach) : Mach :=
  if !m.hostWrites (rTileCntCtl t) then m
  else m.setTile t { m.tile t with cntIssue := 0, cntHtag := 0, cntHlat := 0, cntHbank := 0, cntHque := 0, cntPred := 0 }

def execTileCntClr (t : TileIdx) (s : State) : Host.Outcome State Fault Refusal := done s (tileCntClr t s.m)

end Sys2Proof.Machine
end

