-- ==== Sys2Proof/Machine/Stem.lean ====
section
/-! DEFINITION. The stem engines (R179-R185, R228) and the ROI samplers (R186-R194). -/
namespace Sys2Proof.Machine

/-! ### The stem's grid and convolution (R180, R181) -/

/-- Pixels per line of a camera port (R201). -/
def Mach.portWidth (m : Mach) (p : Nat) : Nat := m.rbits (rPortGeom (p / 6) (p % 6)) 13 0 + 1
/-- Lines per frame of a camera port. -/
def Mach.portLines (m : Mach) (p : Nat) : Nat := m.rbits (rPortGeom (p / 6) (p % 6)) 31 16 + 1

/-- s2d columns of a port (R180). -/
def StemCfg.wo (c : StemCfg) (width : Nat) : Nat := (width + c.b - 1) / c.b
/-- Pixel groups of a row and its granules (R182). -/
def StemCfg.gx (c : StemCfg) (width : Nat) : Nat := (c.wo width + 3) / 4
def StemCfg.nk (c : StemCfg) : Nat := (c.co + 15) / 16
def StemCfg.rsl (c : StemCfg) (width : Nat) : Nat := c.gx width * c.nk

/-- The pixel of a grid position and channel, less the zero point; PADP outside the grid and for a line that was not received. -/
def StemPort.xs (x : StemPort) (width : Nat) (rr xx : Int) (ch : Nat) : Int :=
  let c := x.cfg
  let pad : Int := c.padp
  let v : Int :=
    if rr < 0 ∨ xx < 0 ∨ (c.wo width : Int) ≤ xx then pad
    else
      let line := rr.toNat * c.b + ch / c.b
      let col := xx.toNat * c.b + ch % c.b
      match x.store.find? fun l => l.r.l == line with
      | none => pad
      | some l => if col < width then (l.pix.getD col c.padp : Nat) else pad
  v - c.zpin

/-- Output element (r, X, o): the wrapping sum in the order of R181, requantised, clamped at the zero point with RELU. -/
def StemPort.out (x : StemPort) (width r col o : Nat) : Int :=
  let c := x.cfg
  let cs := c.b * c.b
  let taps := (List.range c.kh).flatMap fun ky => (List.range c.kw).flatMap fun kx => (List.range cs).map fun ch => (ky, kx, ch)
  let acc := taps.foldl (fun (acc : Int) (k : Nat × Nat × Nat) =>
    let (ky, kx, ch) := k
    acc + c.w.getD (((ky * c.kw + kx) * cs + ch) * c.co + o) 0
      * x.xs width ((r : Int) + ky - ((c.kh - 1) / 2 : Nat)) ((col : Int) + kx - ((c.kw - 1) / 2 : Nat)) ch) (c.bias.getD o 0)
  let md := if c.uint8 then 1 else 0
  let zp := c.zp.getD o 0
  let q := clampInt (qntLo md) (qntHi md) (rneDiv (sext 32 (wrap 32 acc) * c.mul.getD o 0) (c.sh.getD o 0) + zp)
  if c.relu then max q zp else q

/-- Unit u of a row in the chunked layout (R174, R175): pixels and channels beyond the tensor are 0. -/
def StemPort.unit (x : StemPort) (width r u : Nat) : Slot :=
  let c := x.cfg
  let g := u / c.nk
  let k := u % c.nk
  bytesSlot ((List.range 64).map fun i =>
    let col := 4 * g + i / 16
    let o := 16 * k + i % 16
    if col < c.wo width ∧ o < c.co then BitVec.ofInt 8 (x.out width r col o) else 0)

/-! ### Lines in, rows out (R182, R183, R228) -/

/-- The oldest s2d row that the next output row uses. -/
def StemPort.oldest (x : StemPort) : Nat := x.nextRow - (x.cfg.kh - 1) / 2

/-- STEM_LINE_TAKE: the engine takes the port's next line once the line store, of KH + 1 s2d rows, has its place free. -/
def stemLineTake (p : Nat) (m : Mach) : Mach :=
  let x := m.stem p
  let q := m.port p
  match q.vbuf with
  | [] => m
  | l :: rest =>
    if !x.cfg.en ∨ x.oldest + x.cfg.kh + 1 ≤ l.r.l / x.cfg.b then m
    else (m.setPort p { q with vbuf := rest }).setStem p { x with store := x.store ++ [l], taken := l.r.l + 1 }

def execStemLineTake (die : Fin 2) (port : Fin 6) (s : State) : Host.Outcome State Fault Refusal :=
  done s (stemLineTake (6 * die + port) s.m)

/-- The last input line of an output row has arrived, or the acquisition has ended and the row has a line (R182). -/
def StemPort.due (x : StemPort) (drained : Bool) : Bool :=
  decide ((x.nextRow + (x.cfg.kh - 1) / 2 + 1) * x.cfg.b ≤ x.taken)
    || (x.ended && drained && decide (x.nextRow * x.cfg.b < x.taken))

/-- When the last input line of a port's next row arrived: the newest line that the row uses. -/
def StemPort.dueSince (x : StemPort) : Nat :=
  ((x.store.filter fun l => decide (l.r.l < (x.nextRow + (x.cfg.kh - 1) / 2 + 1) * x.cfg.b)).map fun l => l.r.tb1).foldl max 0

/-- A port has a row to serve. -/
def Mach.stemDue (m : Mach) (p : Nat) : Bool := (m.stem p).cfg.en && (m.stem p).due (m.port p).vbuf.isEmpty

/-- A port's due row is the one that its engine serves next: rows in the order in which their last input lines arrived, ports with
simultaneous rows in ascending order (R184). -/
def Mach.stemTurn (m : Mach) (p : Nat) : Bool :=
  m.stemDue p && (List.range 6).all fun i =>
    let q := p / 6 * 6 + i
    q == p || !m.stemDue q || decide ((m.stem p).dueSince < (m.stem q).dueSince) || ((m.stem p).dueSince == (m.stem q).dueSince && decide (p < q))

/-- The rows from the next one to the last of its frame (R183). -/
def Mach.restOfFrame (m : Mach) (p : Nat) (x : StemPort) : Nat :=
  let fl := m.portLines p
  let last := (x.nextRow * x.cfg.b / fl + 1) * fl - 1
  last / x.cfg.b + 1 - x.nextRow

/-- The frame of an output row is the one that is open at the port: the first line of the row is one of its lines (R211). -/
def Mach.rowsFrameOpen (m : Mach) (p row : Nat) : Bool :=
  match (m.port p).frame with
  | some f => (m.stem p).cfg.b * row / m.portLines p == f.l0 / m.portLines p
  | none => false

/-- A row whose ring place is held: it and the rest of its frame are dropped, OVR is set, and the port overflows (R183, R228): the open
frame takes no further line when it is the row's; of a frame that has closed no line is left to discard, and its overflow is reported
at once (DESIGN CHOICE, log 119). Sample preparation hears of the rows as rows with dropped granules, DEDUCED (log 22). -/
def Mach.stemOverrun (m : Mach) (p : Nat) : Mach :=
  let x := m.stem p
  let n := m.restOfFrame p x
  let reps := (List.range n).map fun i => ({ die := p / 6, port := p % 6, row := x.nextRow + i, dropped := true, ue := false, t := m.tb1 } : RowRep)
  let q := m.port p
  let isOpen := m.rowsFrameOpen p x.nextRow
  let m := m.setStem p { x with nextRow := x.nextRow + n }
  let m := { m with prep := { m.prep with rows := m.prep.rows ++ reps } }
  let m := match q.frame, isOpen with
    | some f, true => m.setPort p { q with drop := true, frame := some { f with ovf := true } }
    | _, _ => m.raisePort p 10
  m.raiseStem (p / 6) 2

/-- A due row is computed and its granules set out to the stem ring (R182). -/
def Mach.writeRow (m : Mach) (p : Nat) : Mach :=
  let x := m.stem p
  let c := x.cfg
  let w := m.portWidth p
  let r := x.nextRow
  let n := c.rsl w
  let fl := (List.range n).map fun u =>
    ({ writer := BitVec.ofNat 16 (0xC000 + p / 6), target := .gran c.stack (c.base + (r % c.ringRows) * n + u), data := some (x.unit w r u),
       ovr := false, gen := none, issue := m.cyc, due := m.cyc, blocked := false, owner := .stem p r } : Flight)
  let keep := (r + 1 - (c.kh - 1) / 2) * c.b
  let m := { m with flights := m.flights ++ fl }.setStem p
    { x with nextRow := r + 1, store := x.store.filter (fun l => decide (keep ≤ l.r.l)),
             checking := x.checking ++ [(r, n, false, x.wecc == Ecc.ue)] }
  let e : EvX := { akind := 6, addr := r, info := p % 6 }
  match x.wecc with
  | .ok => m
  | .ce => m.raiseStem (p / 6) 0 e
  | .ue => m.raiseStem (p / 6) 1 e

/-- STEM_ROW_DONE: every granule of the oldest row has been checked; STEM_ROWS counts it outside confidential mode (R182, R194). -/
def stemRowDone (p : Nat) (m : Mach) : Mach :=
  let x := m.stem p
  match x.checking with
  | (r, 0, dropped, ue) :: rest =>
    let m := m.setStem p { x with checking := rest }
    let a := rStemRows (p / 6) (p % 6)
    let m := if m.sec.conf then m else m.setReg a (m.reg a + 1)
    { m with prep := { m.prep with
        rows := m.prep.rows ++ [{ die := p / 6, port := p % 6, row := r, dropped := dropped, ue := ue, t := m.tb1 }] } }
  | _ => m

def execStemRowDone (die : Fin 2) (port : Fin 6) (s : State) : Host.Outcome State Fault Refusal :=
  done s (stemRowDone (6 * die + port) s.m)

/-! ### The sampling rule (R190, R191) -/

/-- A box: x0, y0, x1, y1 in units of 1/256 pixel. -/
structure RoiBox where
  x0 : Int
  y0 : Int
  x1 : Int
  y1 : Int
deriving DecidableEq, Repr

def RoiBox.valid (b : RoiBox) : Bool := decide (b.x0 < b.x1) && decide (b.y0 < b.y1)

/-- A sample coordinate in 1/256 pixel: output place j of n between two edges, sample k of s. -/
def samplePoint (s n j k : Nat) (e0 e1 : Int) : Int :=
  (2 * s * n * e0 + (2 * s * j + 2 * k + 1 : Nat) * (e1 - e0) - 256 * s * n) / (2 * s * n : Nat)

/-- Elements per chunk of the map's format, and their width in bytes. -/
def RoiJob.kf (j : RoiJob) : Nat := if j.fmt = 3 then 8 else 16
def RoiJob.esz (j : RoiJob) : Nat := if j.fmt = 3 then 2 else 1

/-- The granule of a map pixel and chunk. DESIGN CHOICE (log 118): a granule that strides have carried below 0 counts as 0, and one past the
stack's end lies in the stack after it. -/
def RoiJob.granOf (j : RoiJob) (y x k : Nat) : Nat := (j.fgran + ((y * ((j.fw + 3) / 4) * j.nk + (x / 4) * j.nk + k : Nat) : Int)).toNat

/-- The weighted neighbours of output pixel (i, col) of a box, over all samples: weight, row, column. -/
def RoiJob.taps (j : RoiJob) (b : RoiBox) (i col : Nat) : List (Nat × Int × Int) :=
  let s := j.sr
  (List.range s).flatMap fun sy => (List.range s).flatMap fun sx =>
    let xq := samplePoint s j.ow col sx b.x0 b.x1
    let yq := samplePoint s j.oh i sy b.y0 b.y1
    let ix := xq / 256
    let iy := yq / 256
    let fx := (xq % 256).toNat
    let fy := (yq % 256).toNat
    [((256 - fy) * (256 - fx), iy, ix), ((256 - fy) * fx, iy, ix + 1), (fy * (256 - fx), iy + 1, ix), (fy * fx, iy + 1, ix + 1)].filter
      fun t => t.1 != 0

/-- A neighbour lies in the map. -/
def RoiJob.inMap (j : RoiJob) (t : Nat × Int × Int) : Bool :=
  decide (0 ≤ t.2.1) && decide (t.2.1 < j.fh) && decide (0 ≤ t.2.2) && decide (t.2.2 < j.fw)

/-- The code of an element: chunk k, element e of a neighbour, or PADV outside the map. -/
def Mach.roiCode (m : Mach) (j : RoiJob) (k e : Nat) (t : Nat × Int × Int) : Nat :=
  if j.inMap t then
    let a := granAddr j.fstack (j.granOf t.2.1.toNat t.2.2.toNat k) + 16 * (t.2.2.toNat % 4) + e * j.esz
    leNat (readBytes m.mem.stack a j.esz)
  else j.padv % 2 ^ (8 * j.esz)

/-- The value of an output element by format (R191). -/
def RoiJob.blend (j : RoiJob) (l : List (Nat × Nat)) : Nat :=
  let sh := 16 + 2 * (j.sr / 2)
  if j.fmt ≤ 1 then
    let t : Int := l.foldl (fun acc p => acc + p.1 * (if j.fmt = 0 then sext 8 p.2 else ((p.2 % 256 : Nat) : Int))) 0
    wrap 8 (clampInt (if j.fmt = 0 then -128 else 0) (if j.fmt = 0 then 127 else 255) (rneDiv t sh))
  else
    let f := l.foldl (fun (acc : MacSum) (p : Nat × Nat) =>
      match (if j.fmt = 2 then decE4m3 p.2 else decBf16 p.2) with
      | .fin n mag e => acc.add (.fin n (mag * p.1) e)
      | x => acc.add x) MacSum.zero
    let fin := fun (F : FpFmt) (sat : Bool) =>
      if f.fin.n = 0 then 0 else F.round sat (decide (f.fin.n < 0)) f.fin.n.natAbs (f.fin.e - sh)
    if j.fmt = 2 then (if f.nan then 0x7F else fin e4m3 true)
    else if f.nan ∨ (f.pinf ∧ f.ninf) then 0x7FC0
    else if f.pinf then 0x7F80 else if f.ninf then 0xFF80
    else fin bf16 false

/-- A slot of a crop: row i, group g, chunk k. An invalid box and pixels beyond OW give PADV (R188). -/
def Mach.cropSlot (m : Mach) (j : RoiJob) (b : Option RoiBox) (i g k : Nat) : Slot :=
  bytesSlot ((List.range 4).flatMap fun v => (List.range j.kf).flatMap fun e =>
    let code := match b with
      | none => j.padv
      | some bx =>
        if 4 * g + v < j.ow then j.blend ((j.taps bx i (4 * g + v)).map fun t => (t.1, m.roiCode j k e t)) else j.padv
    leBytes j.esz code)

/-! ### Jobs (R186-R189) -/

/-- Granules of the box list (R187). -/
def RoiJob.listLen (j : RoiJob) : Nat := (j.maxb + 3) / 4 + 1

/-- The box list of a job (R187): sample index, count, boxes. A list that strides have carried below granule 0 is read at 0, and one that
runs past the stack's end goes on in the stack after it, DESIGN CHOICE (log 118). -/
def Mach.boxList (m : Mach) (j : RoiJob) : Nat × Nat × List RoiBox :=
  let bs := readBytes m.mem.stack (granAddr j.bstack j.bgran.toNat) (64 * j.listLen)
  let box := fun i =>
    let o := 64 + 16 * i
    ({ x0 := sext 32 (fieldAt bs o 4), y0 := sext 32 (fieldAt bs (o + 4) 4), x1 := sext 32 (fieldAt bs (o + 8) 4),
       y1 := sext 32 (fieldAt bs (o + 12) 4) } : RoiBox)
  (fieldAt bs 0 6, fieldAt bs 8 2, (List.range j.maxb).map box)

/-- The boxes that a job samples: the valid ones among the first N (R187). -/
def Mach.usedBoxes (m : Mach) (j : RoiJob) : List (Option RoiBox) :=
  let (_, n, boxes) := m.boxList j
  boxes.mapIdx fun i b => if i < n ∧ b.valid then some b else none

/-- The granules of the map that a job reads, each once. -/
def RoiJob.reads (j : RoiJob) (boxes : List (Option RoiBox)) : List Nat :=
  (boxes.flatMap fun
    | none => []
    | some b => (List.range j.oh).flatMap fun i => (List.range j.ow).flatMap fun col =>
        ((j.taps b i col).filter j.inMap).flatMap fun t => (List.range j.nk).map fun k => j.granOf t.2.1.toNat t.2.2.toNat k).eraseDups

/-- The stacks as a reader has them that has read these granules. -/
def Mach.seenGrans (m : Mach) (got : List (Nat × Slot)) : Mach :=
  got.foldl (fun m e => m.setGran (e.1 / 2 ^ 22) (e.1 % 2 ^ 22) e.2) (m.setStack [])

/-- A sampler asks for granules of a stack: asynchronous requests at their channels (R103, R192). -/
def Mach.roiAsk (m : Mach) (d st : Nat) (l : List Nat) : Mach :=
  { m with chanQ := m.chanQ ++ l.map fun g =>
      { stack := st, gran := g, requester := 0xC003 + d, sched := false, due := m.cyc, read := some (.roi d), write := none } }

/-- Every read of a job has returned: its crops set out into the output ring (R188 step 3). DESIGN CHOICE (log 120): jobs that name
different output rings keep one write position, counted from each job's own OSLOT and reduced by its own ring length. -/
def Mach.roiCrops (m : Mach) (d : Nat) (j : RoiJob) : Mach :=
  let x := m.roi d
  let seen := m.seenGrans x.got
  let used := seen.usedBoxes j
  let g4 := (j.ow + 3) / 4
  let slots := used.flatMap fun b => (List.range j.oh).flatMap fun i => (List.range g4).flatMap fun g =>
    (List.range j.nk).map fun k => seen.cropSlot j b i g k
  let fl := slots.mapIdx fun i v =>
    ({ writer := BitVec.ofNat 16 (0xC003 + d), target := .slot j.otile (j.oslot + (x.opos + i) % j.orl), data := some v, ovr := false,
       gen := none, issue := m.cyc, due := m.cyc, blocked := false, owner := .roi d } : Flight)
  { m with flights := m.flights ++ fl }.setRoi d
    { x with st := .write, left := fl.length, got := [], opos := (x.opos + fl.length) % j.orl,
             boxes := if m.sec.conf then x.boxes else (x.boxes + (used.filter Option.isSome).length) % 2 ^ 64 }

/-- The box list has been read: the sampler asks for the granules of the map that its boxes need (R187, R188). -/
def Mach.roiListed (m : Mach) (d : Nat) (j : RoiJob) : Mach :=
  let x := m.roi d
  let seen := m.seenGrans x.got
  let (smp, n, _) := seen.boxList j
  let used := seen.usedBoxes j
  let mask := (used.mapIdx fun i b => if b.isSome then 2 ^ i else 0).foldl (· + ·) 0
  let l := j.reads used
  let m := m.setRoi d { x with smp := BitVec.ofNat 48 smp, mask := mask, clamp := decide (j.maxb < n), listed := true, left := l.length }
  let m := if j.maxb < n then m.raiseRoi d 4 else m
  if l.isEmpty then m.roiCrops d j else m.roiAsk d j.fstack l

/-- A granule that a sampler read arrives: its errors are noted (R193), and the job goes on with the last one. -/
def Mach.roiGot (m : Mach) (d st g : Nat) : Mach :=
  let l := m.granErrors st g
  let x := m.roi d
  match x.jobs[x.job]? with
  | none => m
  | some j =>
    let ev : EvX := { akind := 3, addr := st * 2 ^ 22 + g, info := x.job }
    let ue := l.contains .ue
    let ce := ceCount l != 0
    let m := m.setRoi d { x with got := x.got ++ [(st * 2 ^ 22 + g, m.gran st g)], left := x.left - 1, ue := x.ue || ue, ce := x.ce || ce }
    let m := if ce then m.raiseRoi d 0 ev else m
    let m := if ue then m.raiseRoi d 1 ev else m
    if x.left ≠ 1 then m else if x.listed then m.roiCrops d j else m.roiListed d j

/-- A job starts: it asks for its box list (R188 step 2). DESIGN CHOICE (log 23): a job makes all its reads before its first write. -/
def Mach.runJob (m : Mach) (d : Nat) (j : RoiJob) : Mach :=
  (m.roiAsk d j.bstack ((List.range j.listLen).map fun k => j.bgran.toNat + k)).setRoi d
    { m.roi d with st := .read, left := j.listLen, got := [], listed := false, smp := 0, mask := 0, drops := 0, ue := false, ce := false, clamp := false }

/-- ROI_JOB_START: the gate is asked for, or has been granted and the job starts; job 0 of pass 0 no earlier than the weave's common
start (R186). A gate at a REVOKED latch sets GATE_REV (R193). -/
def roiJobStart (d : Nat) (m : Mach) : Mach :=
  let x := m.roi d
  match x.jobs[x.job]? with
  | none => m
  | some j =>
    if !x.planMode ∨ x.aborted ∨ (x.st ≠ .idle ∧ x.st ≠ .gate) then m
    else
      let m := m.advanceTo x.start
      let (m, ok) := if j.gate then m.gate (.roi d) j.glatch j.gcnt else (m, true)
      if ok then m.runJob d j
      else
        let m := m.setRoi d { m.roi d with st := .gate }
        if (m.latch j.glatch).st = .revoked then m.raiseRoi d 3 else m

def execRoiJobStart (die : Fin 2) (s : State) : Host.Outcome State Fault Refusal := done s (roiJobStart die s.m)

/-- The status slot (R189). -/
def Roi.status (x : Roi) : List Byte :=
  let n := ((List.range 64).filter fun i => x.mask.testBit i).length
  padTo 64 (leBytes 6 x.smp.toNat ++ zeros 2 ++ leBytes 1 n ++ zeros 1
    ++ leBytes 2 (1 + 2 * b2n x.ue + 4 * b2n (x.drops != 0) + 8 * b2n x.ce + 16 * b2n x.clamp) ++ leBytes 4 (min x.drops 0xFFFFFFFF)
    ++ leBytes 8 x.mask)

/-- The sampler after its job: the next one, or job 0 of the next pass with the addresses advanced (R186). -/
def Roi.next (x : Roi) (j : RoiJob) : Roi :=
  if j.last ∨ x.jobs.length ≤ x.job + 1 then
    { x with st := .idle, job := 0, pass := x.pass + 1,
             jobs := x.jobs.map fun k => { k with bgran := k.bgran + k.bstride, fgran := k.fgran + k.fstride } }
  else { x with st := .idle, job := x.job + 1 }

/-- ROI_JOB_COMPLETE: every crop write has been checked; the status slot is written and the completion latch signalled (R188). -/
def roiJobComplete (d : Nat) (m : Mach) : Mach :=
  let x := m.roi d
  match x.jobs[x.job]? with
  | none => m
  | some j =>
    if x.st ≠ .write ∨ x.left ≠ 0 then m
    else
      let id : BitVec 16 := BitVec.ofNat 16 (0xC003 + d)
      let m : Mach := { m with flights := m.flights ++
          [{ writer := id, target := .slot j.ctile j.cslot, data := some (bytesSlot x.status), ovr := false, gen := none, issue := m.cyc,
             due := m.cyc, blocked := false, owner := .rstat d }] }
      let m := if j.csig then m.sendSignal j.clatch j.ccnt id else m
      m.setRoi d (x.next j)

def execRoiJobComplete (die : Fin 2) (s : State) : Host.Outcome State Fault Refusal := done s (roiJobComplete die s.m)

/-- What a sampler's job has under way is gone: reads, writes not yet at their tile, and its wait. -/
def Mach.dropRoi (m : Mach) (d : Nat) : Mach :=
  { m with
    flights := m.flights.filter fun f => f.owner != WOwner.roi d,
    chanQ := m.chanQ.filter fun q => q.read != some (ReadFor.roi d),
    waits := m.waits.filter fun (w : Wait) => w.who != Waiter.roi d }

/-- ROI_ABORT: 1 written to ROI_CTL.ABORT; the sampler stays IDLE until the weave stops. -/
def roiAbort (d : Nat) (m : Mach) : Mach :=
  if !m.hostWrites (rRoiCtl d) || !m.variant.hasDie d then m
  else
    let x := m.roi d
    if x.st = .fault then m else (m.dropRoi d).setRoi d { x with st := .idle, aborted := true, left := 0, got := [] }

def execRoiAbort (die : Fin 2) (s : State) : Host.Outcome State Fault Refusal := done s (roiAbort die s.m)

/-- ROI_FAULT: the sampler writes nothing further until the weave stops (R193). -/
def roiFault (d : Nat) (m : Mach) : Mach :=
  if !m.variant.hasDie d then m else ((m.dropRoi d).setRoi d { m.roi d with st := .fault, left := 0, got := [] }).raiseRoi d 5

def execRoiFault (die : Fin 2) (s : State) : Host.Outcome State Fault Refusal := done s (roiFault die s.m)

end Sys2Proof.Machine
end

