-- ==== Sys2Proof/Machine/Image.lean ====
section
/-! DEFINITION. The weave image (R475-R479): its header and sections, the descriptors they hold, and the checks of stages A to C of a
load (R484). -/
namespace Sys2Proof.Machine

/-- Why a load is refused: RESULT, STAGE, DETAIL and DETAIL2 of the load result (R484, R485). -/
structure LoadErr where
  result : Nat
  stage : Nat
  detail : Nat
  detail2 : Nat
deriving DecidableEq, Repr

/-- The first that fails. -/
def firstErr : List (Option LoadErr) → Option LoadErr
  | [] => none
  | none :: l => firstErr l
  | some e :: _ => some e

/-- A check of a stage with a RESULT. -/
def mustBe (stage result detail detail2 : Nat) (ok : Bool) : Option LoadErr :=
  if ok then none else some { result := result, stage := stage, detail := detail, detail2 := detail2 }

/-! ### Header and sections (R475, R476) -/

/-- The header fields (R475). -/
def weaveHdr (b : List Byte) : WeaveHdr :=
  let fl := fieldAt b 56 1
  { nstk := fieldAt b 32 1, iodies := fieldAt b 33 1, ports := fieldAt b 34 2, ringp := fieldAt b 36 1, rw := fieldAt b 37 1,
    nb := fieldAt b 38 2, w := fieldAt b 40 4, ib := fieldAt b 44 4, tagg := fieldAt b 48 4, ctx := fl.testBit 0,
    ringplan := fl.testBit 1, adapt := fl.testBit 2, sstk := fieldAt b 57 1, latch0 := fieldAt b 58 2, nlatch := fieldAt b 60 2,
    engines := fieldAt b 64 4, roi := fieldAt b 68 1, tiles := BitVec.ofNat 576 (fieldAt b 72 72),
    routers := BitVec.ofNat 576 (fieldAt b 144 72), stemdig := BitVec.ofNat 256 (fieldAt b 216 32) }

/-- SIGOFF. -/
def sigOff (b : List Byte) : Nat := fieldAt b 8 4
/-- The weave digest (R479). -/
def weaveDigest (b : List Byte) : BitVec 256 := sha (b.take (sigOff b))

/-- Sections with the headers of R387, one after the other: their types and bodies, or the number of the first that is malformed.
Nothing may follow the last. -/
def sections : Nat → Nat → List Byte → Except Nat (List (Nat × List Byte))
  | 0, i, bs => if bs.isEmpty then .ok [] else .error i
  | n + 1, i, bs =>
    let len := fieldAt bs 4 4
    let whole := (len + 7) / 8 * 8
    if bs.length < 8 + whole ∨ fieldAt bs 2 2 ≠ 0 ∨ (slice bs (8 + len) (whole - len)).any (· != 0) then .error i
    else
      match sections n (i + 1) (bs.drop (8 + whole)) with
      | .ok l => .ok ((fieldAt bs 0 2, slice bs 8 len) :: l)
      | .error e => .error e

/-- The sections of a weave image. -/
def weaveSections (b : List Byte) : Except Nat (List (Nat × List Byte)) :=
  sections (fieldAt b 6 2) 0 ((b.take (sigOff b)).drop 256)

/-- A weave as its image spells it. -/
structure Weave where
  hdr : WeaveHdr
  secs : List (Nat × List Byte)
deriving DecidableEq, Repr

/-- The weave of an image; sections that are malformed are none. -/
def weaveOfImage (b : List Byte) : Weave :=
  { hdr := weaveHdr b, secs := match weaveSections b with
    | .ok l => l
    | .error _ => [] }

/-- The bodies of the sections of a type, in order. -/
def Weave.bodies (w : Weave) (ty : Nat) : List (List Byte) := (w.secs.filter fun s => s.1 == ty).map fun s => s.2

/-- A latch that the weave owns (R475). -/
def WeaveHdr.owns (h : WeaveHdr) (l : Nat) : Bool := decide (h.latch0 ≤ l) && decide (l < h.latch0 + h.nlatch)

/-- A defined writer ID (R119). -/
def writerDefined (w : Nat) : Bool :=
  let n := w % 2 ^ 14
  match w / 2 ^ 14 with
  | 0 => decide (n < 576)
  | 1 => decide (n < 32)
  | 2 => decide (n < 32)
  | _ => decide (n ≤ 6)

/-! ### TILEPROG (R477) -/

def progTile (b : List Byte) : Nat := fieldAt b 0 2
def progNb (b : List Byte) : Nat := fieldAt b 6 2
/-- The bundles of a program (R40). -/
def progBundles (b : List Byte) : List (BitVec 128) :=
  (List.range (progNb b)).map fun i => BitVec.ofNat 128 (fieldAt b (864 + 16 * i) 16)

/-- A window descriptor (R116); `none` for an unused one (R477). -/
def windowOf (d : List Byte) : Option Window :=
  let f := fieldAt d 0 4
  if f = 0xFFFFFFFF then none
  else some
    { used := true, kind := f.testBit 0, openAtStart := f.testBit 1, weaveTiles := f.testBit 2, stack := nbits f 6 4,
      base := fieldAt d 4 4 % 2 ^ 22, limit := fieldAt d 8 4 % 2 ^ 22,
      writers := ((List.range 4).map fun i => BitVec.ofNat 16 (fieldAt d (12 + 2 * i) 2)).filter fun w => w != 0xFFFF,
      isOpen := false, gen := 0, revoked := false }

/-- Window descriptor w of a TILEPROG body. -/
def progWin (b : List Byte) (w : Nat) : List Byte := slice b (344 + 32 * w) 32
/-- Tally descriptor i of a TILEPROG body. -/
def progTally (b : List Byte) (i : Nat) : List Byte := slice b (600 + 32 * i) 32

/-- A tally descriptor (R454). -/
def tallyOf (d : List Byte) : TallyDesc :=
  { layer := fieldAt d 0 2, segn := fieldAt d 2 1, seglen := fieldAt d 3 1, l := fieldAt d 4 4, base := fieldAt d 8 4,
    p1 := fieldAt d 12 4, s1 := fieldAt d 16 4, s2 := fieldAt d 20 4, sstride := fieldAt d 24 4 }

/-- The entries of a register table that are not what an unlisted one holds. -/
def tableOf {α : Type} [DecidableEq α] (d : α) (n : Nat) (f : Nat → α) : List (Nat × α) :=
  ((List.range n).map fun i => (i, f i)).filter fun e => e.2 != d

def aregOf (b : List Byte) (i : Nat) : AReg :=
  let o := 56 + 8 * i
  let idx := BitVec.ofNat 13 (fieldAt b o 2)
  { idx := idx, idx0 := idx, stride := sext 16 (fieldAt b (o + 2) 2), rb := fieldAt b (o + 4) 2, rl := fieldAt b (o + 6) 2 + 1 }
def gregOf (b : List Byte) (i : Nat) : GReg :=
  let o := 184 + 8 * i
  let st := BitVec.ofNat 3 (nbits (fieldAt b o 4) 31 29)
  let g := BitVec.ofNat 22 (fieldAt b o 4)
  { stack := st, gran := g, stack0 := st, gran0 := g, stride := sext 32 (fieldAt b (o + 4) 4) }
def dregOf (b : List Byte) (i : Nat) : DReg :=
  let o := 248 + 8 * i
  let s := BitVec.ofNat 13 (fieldAt b o 4)
  { tile := BitVec.ofNat 10 (nbits (fieldAt b o 4) 31 22), base := s, base0 := s, stride := sext 32 (fieldAt b (o + 4) 4) }
def progTrip (b : List Byte) (i : Nat) : Nat := fieldAt b (24 + 2 * i) 2
def progLatch (b : List Byte) (i : Nat) : Nat := fieldAt b (312 + 2 * i) 2
def progTarget (b : List Byte) (i : Nat) : Nat := nbits (fieldAt b (248 + 8 * i) 4) 31 22

/-- The layout of a TILEPROG body (R477). More than 2 048 bundles break the layout before R68 is reached, DESIGN CHOICE (log 29). -/
def tileprogOk (h : WeaveHdr) (b : List Byte) : Bool :=
  decide (864 ≤ b.length) && decide (1 ≤ progNb b) && decide (progNb b ≤ 2048) && b.length == 864 + 16 * progNb b
    && decide (progTile b < 576) && h.tiles.getLsbD (progTile b) && decide (fieldAt b 20 1 ≤ 1)
    && (slice b 21 3 ++ slice b 856 8).all (· == 0)

/-- The ranges of a stage descriptor (R37); DESIGN CHOICE (log 29): a value outside its range is refused with PROGRAM. A BUDGET of 0 is
check 4 of R170. -/
def descriptorOk (b : List Byte) : Bool :=
  decide (fieldAt b 2 2 ≤ 4095) && decide (fieldAt b 4 2 ≤ 2047)
    && (List.range 16).all (fun i => progTrip b i != 0 && decide (fieldAt b (56 + 8 * i) 2 ≤ 8191)
      && decide (-4096 ≤ (aregOf b i).stride) && decide ((aregOf b i).stride ≤ 4095) && decide ((aregOf b i).rb ≤ 8191)
      && decide ((aregOf b i).rl ≤ 8192))
    && (List.range 8).all fun i => nbits (fieldAt b (184 + 8 * i) 4) 28 22 == 0

/-- What the checks of R68 need to know of a stage. -/
def progEnv (h : WeaveHdr) (b : List Byte) : ProgEnv :=
  { tile := Fin.ofNat 576 (progTile b), adapt := fieldAt b 20 1 == 1, latches := (List.range 16).map (progLatch b),
    targets := (List.range 8).map (progTarget b),
    targetOk := fun i => nbits (fieldAt b (248 + 8 * i) 4) 21 13 == 0, owned := h.owns, inWeave := fun t => h.tiles.getLsbD t }

/-- R68 for one stage: DETAIL the tile, DETAIL2 the bundle. -/
def progErr (h : WeaveHdr) (b : List Byte) : Option LoadErr :=
  if !descriptorOk b then some ⟨6, 0xC, progTile b, 0⟩
  else match progBad (progEnv h b) (progBundles b) with
    | some i => some ⟨6, 0xC, progTile b, i⟩
    | none => none

/-! ### Windows (R116, R117) -/

/-- The checks of one descriptor that need no other (R117). -/
def winFieldsOk (v : Variant) (d : List Byte) : Bool :=
  match windowOf d with
  | none => true
  | some w =>
    let f := fieldAt d 0 4
    let top := if w.kind then 22 else 13
    nbits f 3 3 == 0 && nbits f 31 7 == 0 && (w.kind || w.stack == 0)
      && decide (fieldAt d 4 4 < 2 ^ top) && decide (fieldAt d 8 4 < 2 ^ top) && decide (w.base ≤ w.limit)
      && (slice d 20 12).all (· == 0) && (!w.kind || v.hasStack w.stack)
      && (List.range 4).all fun i => fieldAt d (12 + 2 * i) 2 == 0xFFFF || writerDefined (fieldAt d (12 + 2 * i) 2)

/-- Two windows cover an address in common. -/
def Window.meets (a b : Window) : Bool := decide (a.base ≤ b.limit) && decide (b.base ≤ a.limit)

/-- The windows of TILEPROG bodies with tile and descriptor number. -/
def windowsOf (progs : List (List Byte)) : List (Nat × Nat × Window) :=
  progs.flatMap fun b => (List.range 8).filterMap fun i => (windowOf (progWin b i)).map fun w => (progTile b, i, w)

/-- The window meets an earlier one: a scratchpad window of the same tile, a stack window of the same stack (R117). -/
def winClash (earlier : List (Nat × Nat × Window)) (x : Nat × Nat × Window) : Bool :=
  earlier.any fun e => e.2.2.kind == x.2.2.kind && (if x.2.2.kind then e.2.2.stack == x.2.2.stack else e.1 == x.1) && e.2.2.meets x.2.2

/-- The first window that meets one before it. -/
def firstClash : List (Nat × Nat × Window) → List (Nat × Nat × Window) → Option (Nat × Nat)
  | _, [] => none
  | seen, x :: rest => if winClash seen x then some (x.1, x.2.1) else firstClash (seen ++ [x]) rest

/-- R117 over the stages of a weave. -/
def windowErr (v : Variant) (progs : List (List Byte)) : Option LoadErr :=
  firstErr ((progs.flatMap fun b => (List.range 8).map fun i => mustBe 0xC 7 (progTile b) i (winFieldsOk v (progWin b i))) ++
    [match firstClash [] (windowsOf progs) with
     | some (t, i) => some ⟨7, 0xC, t, i⟩
     | none => none])

/-! ### Tallies (R454) -/

/-- A tally descriptor breaks no rule of its own. -/
def tallyOk (d : List Byte) : Bool :=
  let x := tallyOf d
  (slice d 28 4).all (· == 0) &&
    (x.layer == 0xFFFF || (decide (x.layer ≤ 0xFFFC) && (x.segn == 1 || x.segn == 2 || x.segn == 4) && decide (1 ≤ x.seglen)
      && decide (x.seglen ≤ 64 / x.segn) && x.p1 != 0))

/-- Every used stream of the stages, with its tile. -/
def streamsOf (progs : List (List Byte)) : List (Nat × TallyDesc) :=
  (progs.flatMap fun b => (List.range 8).map fun i => (progTile b, tallyOf (progTally b i))).filter fun e => e.2.layer != 0xFFFF

def tallyErr (progs : List (List Byte)) : Option LoadErr :=
  let ss := streamsOf progs
  firstErr ((progs.map fun b => mustBe 0xC 8 (progTile b) 0 ((List.range 8).all fun i => tallyOk (progTally b i))) ++
    ss.map fun e => mustBe 0xC 8 e.1 0 (ss.all fun f => f.2.layer != e.2.layer || f.2.l == e.2.l))

/-! ### STEM (R478) -/

/-- The weights of a port record in bytes, and all that follows the weights (R476). -/
def stemWeights (r : List Byte) : Nat :=
  let b := 2 ^ fieldAt r 1 1
  b * b * (2 * fieldAt r 2 1 + 1) * (2 * fieldAt r 3 1 + 1) * (fieldAt r 4 1 + 1)
def stemSize (r : List Byte) : Nat := if fieldAt r 0 1 = 1 then (stemWeights r + 3) / 4 * 4 + 12 * (fieldAt r 4 1 + 1) else 0

/-- The port record of a STEM section. -/
def stemRec (b : List Byte) (p : Nat) : List Byte := slice b (8 + 20 * p) 20
/-- Where the weights of a port start. -/
def stemOff (b : List Byte) (p : Nat) : Nat := 128 + ((List.range p).map fun q => stemSize (stemRec b q)).foldl (· + ·) 0

/-- The layout of a STEM body (R476, R478). -/
def stemOk (b : List Byte) : Bool :=
  decide (128 ≤ b.length) && decide (fieldAt b 0 1 ≤ 1) && (slice b 1 7).all (· == 0)
    && (List.range 6).all (fun p =>
      let r := stemRec b p
      decide (fieldAt r 0 1 ≤ 1) && decide (fieldAt r 1 1 ≤ 3) && decide (fieldAt r 2 1 ≤ 3) && decide (fieldAt r 3 1 ≤ 3)
        && decide (fieldAt r 4 1 ≤ 63) && decide (fieldAt r 5 1 ≤ 3) && fieldAt r 7 1 == 0 && fieldAt r 18 2 == 0
        && (fieldAt r 0 1 == 0 || (decide (2 ≤ fieldAt r 16 2) && decide (fieldAt r 16 2 ≤ 4096) && decide (fieldAt r 12 4 < 2 ^ 22)
          && decide (fieldAt r 6 1 < 6))))
    && b.length == stemOff b 6

/-- The stem configuration of a port (R179). -/
def stemCfg (b : List Byte) (p : Nat) : StemCfg :=
  let r := stemRec b p
  if fieldAt r 0 1 ≠ 1 then StemCfg.off
  else
    let o := stemOff b p
    let n := stemWeights r
    let co := fieldAt r 4 1 + 1
    let q := o + (n + 3) / 4 * 4
    let word := fun i k => fieldAt b (q + 12 * i + 4 * k) 4
    { en := true, b := 2 ^ fieldAt r 1 1, kh := 2 * fieldAt r 2 1 + 1, kw := 2 * fieldAt r 3 1 + 1, co := co,
      zpin := fieldAt r 8 2, padp := fieldAt r 10 2, w := (slice b o n).map fun x => sext 8 x.toNat,
      bias := (List.range co).map fun i => sext 32 (word i 0), mul := (List.range co).map fun i => sext 24 (word i 1 / 256),
      sh := (List.range co).map fun i => word i 1 % 64, zp := (List.range co).map fun i => sext 32 (word i 2),
      uint8 := (fieldAt r 5 1).testBit 0, relu := (fieldAt r 5 1).testBit 1, stack := fieldAt r 6 1, base := fieldAt r 12 4,
      ringRows := fieldAt r 16 2 }

/-- The stem configuration of port p, 0-11. -/
def Weave.stem (w : Weave) (p : Nat) : StemCfg :=
  match (w.bodies 6).find? fun b => fieldAt b 0 1 == p / 6 with
  | some b => stemCfg b (p % 6)
  | none => StemCfg.off

/-- The INT8 weights of a port in units of 64 bytes (R184). -/
def StemCfg.units (c : StemCfg) : Nat := if c.en then (c.b * c.b * c.kh * c.kw * c.co + 63) / 64 else 0

/-- The place of the number with which the sum of a list from the left passes a bound. -/
def passedAt : Nat → List Nat → Option Nat
  | _, [] => none
  | bound, n :: rest => if bound < n then some 0 else (passedAt (bound - n) rest).map (· + 1)

/-- R184 check 1, for each intake block; DESIGN CHOICE (log 29): DETAIL is the port with which the sum passes the bound. -/
def stemErr (w : Weave) : Option LoadErr :=
  firstErr ((List.range 2).map fun d => (passedAt 1024 ((List.range 6).map fun p => (w.stem (6 * d + p)).units)).map fun p => ⟨9, 0xC, 6 * d + p, 0⟩)

/-! ### Plans (R124, R186, R356) -/

/-- The descriptors of a plan: 64 bytes each from byte 8 on. -/
def planDescs (b : List Byte) : List (List Byte) := (List.range ((b.length - 8) / 64)).map fun i => slice b (8 + 64 * i) 64
/-- PASSES. -/
def planPasses (b : List Byte) : Nat := fieldAt b 4 4
/-- The layout of a plan of 1 to n descriptors. -/
def planOk (b : List Byte) (n : Nat) : Bool :=
  decide (72 ≤ b.length) && (b.length - 8) % 64 == 0 && decide ((b.length - 8) / 64 ≤ n) && (slice b 1 3).all (· == 0)
    && decide (planPasses b ≤ 65535)

/-- A sluice descriptor that the loader accepts (R124). -/
def sluDescOk (d : List Byte) : Bool := !sluReserved d && (sluDesc d).fieldsOk && (sluDesc d).inRange

/-- A ring descriptor (R356): read as one of operation 4 whose bytes 16 to 19 name the destination. -/
def ringDesc (d : List Byte) : RingDesc :=
  let x := sluDesc (setNth d 40 0)
  let f := fieldAt d 16 4
  let toSlot := x.op == 8
  { d := { x with
      ftile := if toSlot then nbits f 9 0 else nbits f 2 0, fslot := if toSlot then (nbits f 22 10 : Nat) else (nbits f 24 3 : Nat) },
    dmod := fieldAt d 40 1 }

/-- A ring descriptor that the loader accepts: NOP, 8 or 9, the rest as for operation 4. -/
def ringDescOk (d : List Byte) : Bool :=
  let x := (ringDesc d).d
  let a := setNth d 40 0
  let like := if x.op = 0 then a else setNth a 0 (BitVec.ofNat 8 (fieldAt a 0 1 / 16 * 16 + 4))
  let like := if x.op = 9 then setNth (setNth like 18 0) 19 0 else like
  (x.op == 0 || x.op == 8 || x.op == 9) && !sluReserved like && decide ((ringDesc d).dmod < 32)
    && (x.op != 9 || nbits (fieldAt d 16 4) 31 25 == 0)
    && (!x.gate || decide (1 ≤ x.gcnt)) && (!x.csig || decide (1 ≤ x.ccnt)) && (!x.crec || decide (x.ctile < 576))
    && (x.op == 0 || (decide (x.sstack < 6) && decide (0 ≤ x.sgran) && decide (x.sgran + x.len ≤ 2 ^ 22)
      && (if x.op = 8 then decide (x.ftile < 576) && decide (x.fslot + x.len ≤ 8192)
          else decide (x.ftile < 6) && decide (x.fslot + x.len ≤ 2 ^ 22) && !x.ovr)))

/-- An ROI job (R186). -/
def roiJob (b : List Byte) : RoiJob :=
  let w := fieldAt b 0 4
  let g := fieldAt b 4 4
  let f := fieldAt b 8 4
  let o := fieldAt b 20 4
  let gl := fieldAt b 28 4
  let cl := fieldAt b 32 4
  let c := fieldAt b 36 4
  { gate := w.testBit 0, csig := w.testBit 1, last := w.testBit 2, sr := nbits w 4 3 + 1, fmt := nbits w 7 5, oh := nbits w 13 8 + 1,
    ow := nbits w 19 14 + 1, maxb := nbits w 25 20 + 1, bstack := nbits g 2 0, bgran := (nbits g 24 3 : Nat), fstack := nbits f 2 0,
    fgran := (nbits f 24 3 : Nat), fw := fieldAt b 12 2 + 1, fh := fieldAt b 14 2 + 1, nk := fieldAt b 16 2, padv := fieldAt b 18 2,
    otile := nbits o 9 0, oslot := nbits o 22 10, orl := fieldAt b 24 2 + 1, glatch := nbits gl 13 0, gcnt := nbits gl 21 14,
    clatch := nbits cl 13 0, ccnt := nbits cl 21 14, ctile := nbits c 9 0, cslot := nbits c 22 10,
    bstride := sext 32 (fieldAt b 40 4), fstride := sext 32 (fieldAt b 44 4) }

/-- An ROI job that the loader accepts (R186). -/
def roiJobOk (v : Variant) (b : List Byte) : Bool :=
  let j := roiJob b
  let w := fieldAt b 0 4
  nbits w 31 26 == 0 && decide (nbits w 4 3 ≤ 1) && decide (j.fmt ≤ 3) && nbits (fieldAt b 4 4) 31 25 == 0 && nbits (fieldAt b 8 4) 31 25 == 0
    && v.hasStack j.bstack && v.hasStack j.fstack && decide (j.fw ≤ 4096) && decide (j.fh ≤ 4096) && decide (1 ≤ j.nk) && decide (j.nk ≤ 64)
    && decide (j.otile < 576) && nbits (fieldAt b 20 4) 31 23 == 0 && decide (j.orl ≤ 8192) && fieldAt b 26 2 == 0
    && nbits (fieldAt b 28 4) 31 22 == 0 && nbits (fieldAt b 32 4) 31 22 == 0 && nbits (fieldAt b 36 4) 31 23 == 0 && decide (j.ctile < 576)
    && (!j.gate || decide (1 ≤ j.gcnt)) && (!j.csig || decide (1 ≤ j.ccnt)) && (slice b 48 16).all (· == 0)

/-! ### Section bodies (R476) -/

/-- The part of a section that is malformed: nothing, or the descriptor concerned (DETAIL2; 0 for the section as a whole). -/
def bodyBad (v : Variant) (h : WeaveHdr) (ty : Nat) (b : List Byte) : Option Nat :=
  let whole := fun ok => if ok then none else some 0
  match ty with
  | 1 => whole (tileprogOk h b)
  | 2 => whole (b.length % 1028 == 0 && (List.range (b.length / 1028)).all fun i =>
      fieldAt b (1028 * i + 2) 2 == 0 && decide (fieldAt b (1028 * i) 2 < 576) && h.tiles.getLsbD (fieldAt b (1028 * i) 2))
  | 3 => whole (b.length == 8 * h.nlatch && (List.range h.nlatch).all fun i =>
      fieldAt b (8 * i + 2) 2 == 0 && writerDefined (fieldAt b (8 * i) 2))
  | 4 =>
    if !planOk b 1024 || !h.engines.testBit (fieldAt b 0 1) then some 0
    else (planDescs b).findIdx? fun d => !sluDescOk d
  | 5 =>
    if !planOk b 64 || decide (1 < fieldAt b 0 1) then some 0
    else (planDescs b).findIdx? fun d => !ringDescOk d
  | 6 => whole (stemOk b)
  | 7 =>
    if b.length < 72 ∨ b.length ≠ 8 + 64 * fieldAt b 1 1 ∨ 16 < fieldAt b 1 1 ∨ fieldAt b 2 6 ≠ 0 ∨ !h.roi.testBit (fieldAt b 0 1) then some 0
    else (planDescs b).findIdx? fun d => !roiJobOk v d
  | 8 => whole (decide (12 ≤ b.length) && (slice b 1 3).all (· == 0) && b.length == 12 + 64 * fieldAt b 8 4
      && decide (fieldAt b 4 4 + fieldAt b 8 4 ≤ 2 ^ 22) && decide (fieldAt b 0 1 < 6))
  | 9 => whole (Config.adaptSection b).isSome
  | 10 => whole (b.length == 12 && (slice b 1 3).all (· == 0) && decide (fieldAt b 0 1 < 6)
      && decide (fieldAt b 4 4 * 64 + fieldAt b 8 4 ≤ 2 ^ 28))
  | _ => some 0

/-- Numbers of which none occurs twice. -/
def distinct (l : List Nat) : Bool := decide l.Nodup
/-- Bits set in a mask. -/
def popCount (n w : Nat) : Nat := ((List.range w).filter n.testBit).length

/-- Sections come as often as R476 says, and cover what the header names. -/
def countsOk (h : WeaveHdr) (secs : List (Nat × List Byte)) : Bool :=
  let w : Weave := { hdr := h, secs := secs }
  let n := fun ty => (w.bodies ty).length
  let first := fun ty k => (w.bodies ty).map fun b => fieldAt b 0 k
  n 1 == popCount h.tiles.toNat 576 && distinct (first 1 2) && decide (n 2 ≤ 1) && n 3 == 1 && n 4 == popCount h.engines 32
    && distinct (first 4 1) && decide (n 5 ≤ 2) && distinct (first 5 1) && (n 5 != 0) == h.ringplan && decide (n 6 ≤ 2) && distinct (first 6 1)
    && n 7 == popCount h.roi 2 && distinct (first 7 1) && n 9 == b2n h.adapt && decide (n 10 ≤ 1)

/-- STEMDIG: the SHA-256 of the STEM bodies, 0 without any (R475). -/
def stemDigest (secs : List (Nat × List Byte)) : BitVec 256 :=
  let l := (secs.filter fun s => s.1 == 6).map fun s => s.2
  if l.isEmpty then 0 else sha l.flatten

/-! ### Stage A: format and version (R475-R479) -/

/-- The header's reserved bits are 0 and its fields agree with each other. -/
def hdrOk (b : List Byte) : Bool :=
  let h := weaveHdr b
  (slice b 52 4 ++ slice b 62 2 ++ slice b 69 3 ++ slice b 248 8).all (· == 0) && (h.iodies == 1 || h.iodies == 2)
    && decide (h.nstk < 64) && decide (h.ports < 4096) && decide (h.ringp < 16) && decide (fieldAt b 56 1 < 8) && decide (h.sstk < 64)
    && decide (h.roi < 4) && decide (h.latch0 + h.nlatch ≤ 16384) && h.tiles &&& ~~~h.routers == 0

/-- The signature block (R479): CL bytes of certificates and the signature, up to the image's end. -/
def sigLen (b : List Byte) : Nat := fieldAt b (sigOff b) 4
def sigCerts (b : List Byte) : List Byte := slice b (sigOff b + 4) (sigLen b)
def sigBytes (b : List Byte) : List Byte := slice b (sigOff b + 4 + sigLen b) 64

/-- The sections one by one: the first that is malformed. -/
def sectionErr (v : Variant) (h : WeaveHdr) : Nat → List (Nat × List Byte) → Option LoadErr
  | _, [] => none
  | i, s :: rest =>
    match bodyBad v h s.1 s.2 with
    | some d => some ⟨1, 0xA, i, d⟩
    | none => sectionErr v h (i + 1) rest

/-- Stage A. -/
def stageA (v : Variant) (b : List Byte) : Option LoadErr :=
  let bad : Option LoadErr := some ⟨1, 0xA, 0, 0⟩
  if b.length < 256 ∨ b.take 4 ≠ ascii "LW9A" ∨ fieldAt b 12 4 ≠ b.length ∨ 536870912 < b.length then bad
  else if fieldAt b 4 1 ≠ 1 ∨ 0 < fieldAt b 5 1 then some ⟨2, 0xA, 0, 0⟩
  else if !hdrOk b ∨ sigOff b < 256 ∨ b.length < sigOff b + 68 ∨ sigOff b + 68 + sigLen b ≠ b.length then bad
  else match weaveSections b with
    | .error i => some ⟨1, 0xA, i, 0⟩
    | .ok secs =>
      match sectionErr v (weaveHdr b) 0 secs with
      | some e => some e
      | none => if countsOk (weaveHdr b) secs && stemDigest secs == (weaveHdr b).stemdig then none else bad

/-! ### Stage B: signature and owner (R416, R479) -/

/-- The ECDSA check of an image's signature under a key. -/
def sigOk (b : List Byte) (k : BitVec 512) : Bool := ecdsaVerify k (bytes32 (weaveDigest b)) (BitVec.ofNat 512 (beNat (sigBytes b)))

/-- OSIG of a context (R415). -/
def Ctx.osig (c : Ctx) : BitVec 512 := pkOf (slice c.owner 0 64)

/-- Stage B: for the context whose weaves may be loaded now, or for none. -/
def Mach.stageB (m : Mach) (b : List Byte) : Option LoadErr :=
  let owner : Option LoadErr := some ⟨4, 0xB, 0, 0⟩
  let sig : Option LoadErr := some ⟨3, 0xB, 0, 0⟩
  let h := weaveHdr b
  match m.sec.resident with
  | some c => match m.ctx c with
    | none => owner
    | some x => if !h.ctx then owner else if sigLen b = 0 ∧ sigOk b x.osig then none else sig
  | none =>
    if h.ctx then owner
    else match m.flash.ca with
      | none => sig
      | some ca => match Config.chainKey ca (sigCerts b) with
        | none => sig
        | some k => if sigOk b k then none else sig

/-! ### Stage C: the weave's own checks (R11, R68, R117, R184, R252, R454) -/

/-- R11: the part carries what the weave needs; units of IO1 are there on I2 parts only. -/
def variantErr (v : Variant) (w : Weave) : Option LoadErr :=
  let h := w.hdr
  let onIo1 := decide (64 ≤ h.ports) || decide (4 ≤ h.ringp) || decide (2 ^ 16 ≤ h.engines) || decide (2 ≤ h.roi)
    || (w.bodies 6 ++ w.bodies 5).any fun b => fieldAt b 0 1 == 1
  let nstk := (w.bodies 8 ++ w.bodies 10).map (fun b => fieldAt b 0 1)
    ++ ((List.range 12).filter fun p => (w.stem p).en).map fun p => (w.stem p).stack
  mustBe 0xC 5 0 0 (decide (h.nstk < 2 ^ v.nstk) && decide (h.sstk < 2 ^ v.nstk) && nstk.all v.hasStack
    && (v.io1 || (!onIo1 && h.iodies == 1)))

/-- The adaptation section of a weave. -/
def Weave.adaptSec (w : Weave) : Option AdaptSec := (w.bodies 9).head?.bind Config.adaptSection

/-- A range of granules of a stack. -/
structure GranRange where
  stack : Nat
  lo : Nat
  hi : Nat
deriving DecidableEq, Repr
def GranRange.meets (a b : GranRange) : Bool := a.stack == b.stack && decide (a.lo < b.hi) && decide (b.lo < a.hi)

/-- Where the inference copies lie. -/
def tensorRange (t : HeadTensor) : GranRange := { stack := t.stack, lo := t.gran, hi := t.gran + t.grans }
/-- The stack windows of TILEPROG bodies. -/
def stackRanges (progs : List (List Byte)) : List GranRange :=
  (windowsOf progs).filterMap fun x => if x.2.2.kind then some { stack := x.2.2.stack, lo := x.2.2.base, hi := x.2.2.limit + 1 } else none

/-- The part of a range outside others stays out of a list of ranges: what two ranges have in common lies inside one of the allowed. -/
def sharedOk (allowed : List GranRange) (a b : GranRange) : Bool :=
  !a.meets b || allowed.any fun t => t.stack == a.stack && decide (t.lo ≤ max a.lo b.lo) && decide (min a.hi b.hi ≤ t.hi)

/-- The header under which the programs of an adaptation section are checked and loaded: its own tiles, latches and engines. -/
def adaptHdr (a : AdaptSec) (h : WeaveHdr) : WeaveHdr :=
  let own : Weave := { hdr := h, secs := a.secs }
  let bit := fun (n k : Nat) => if n.testBit k then n else n + 2 ^ k
  { h with
    tiles := BitVec.ofNat 576 ((own.bodies 1).foldl (fun n b => bit n (progTile b)) 0), latch0 := a.latch0,
    nlatch := ((own.bodies 3).headD []).length / 8, engines := (own.bodies 4).foldl (fun n b => bit n (fieldAt b 0 1)) 0 }
def adaptWeave (a : AdaptSec) (h : WeaveHdr) : Weave := { hdr := adaptHdr a h, secs := a.secs }

/-- Where the stack data lies that an inference weave uses: its windows, the rings of its stems, its STACKINIT data and its parameter
window (R252). -/
def Weave.stackUse (w : Weave) (width : Nat → Nat) : List GranRange :=
  stackRanges (w.bodies 1)
    ++ (((List.range 12).filter fun p => (w.stem p).en).map fun p =>
      let c := w.stem p
      { stack := c.stack, lo := c.base, hi := c.base + c.ringRows * ((((width p + c.b - 1) / c.b + 3) / 4) * ((c.co + 15) / 16)) })
    ++ ((w.bodies 8).map fun b => { stack := fieldAt b 0 1, lo := fieldAt b 4 4, hi := fieldAt b 4 4 + fieldAt b 8 4 })
    ++ ((w.bodies 10).map fun b => { stack := fieldAt b 0 1, lo := fieldAt b 4 4, hi := fieldAt b 4 4 + (fieldAt b 8 4 + 63) / 64 })

/-- The stages that read granules of a range: one with a program whose stack address registers begin in it, or a program of a tile to which
the weave's plan moves granules out of it. -/
def Weave.readers (w : Weave) (r : GranRange) : List Nat :=
  let fed := fun (t : Nat) => (w.bodies 4).any fun b => (planDescs b).any fun d =>
    let x := sluDesc d
    x.op == 4 && x.ftile == t && GranRange.meets r { stack := x.sstack, lo := x.sgran.toNat, hi := x.sgran.toNat + x.len }
  ((w.bodies 1).filter fun b => fed (progTile b) || (List.range 8).any fun i =>
      let g := gregOf b i
      g.stack.toNat == r.stack && decide (r.lo ≤ g.gran.toNat) && decide (g.gran.toNat < r.hi)).map fun b => fieldAt b 2 2

/-- R252, and R58, R68, R117 and R157 for the adaptation programs. -/
def adaptErr (v : Variant) (width : Nat → Nat) (w : Weave) : Option LoadErr :=
  match (w.bodies 9).head? with
  | none => none
  | some b => match Config.adaptSection b with
    | none => none
    | some a =>
      let own := adaptWeave a w.hdr
      let copies := a.tensors.map tensorRange
      firstErr ((own.bodies 1).map (progErr own.hdr) ++ [windowErr v (own.bodies 1),
        mustBe 0xC 0xA 0 0 ((sectionErr v own.hdr 0 a.secs).isNone && decide ((a.tensors.map (·.count)).foldl (· + ·) 0 ≤ 16777216)
        && (own.bodies 1).all (fun b => (fieldAt b 20 1).testBit 0 && fieldAt b 16 4 % 2 ^ 24 != 0)
        && a.tensors.all (fun t => decide (t.fmt ≤ 9) && v.hasStack t.stack && decide (t.gran + t.grans ≤ 2 ^ 22))
        && decide (1 ≤ a.nf) && decide (a.nf ≤ 2 ^ 20) && decide (2 ≤ a.fsz) && decide (a.fsz ≤ 1024) && decide (1 ≤ a.nmax)
        && decide (a.nmax ≤ 65536) && decide (1 ≤ a.ncls) && decide (a.ncls ≤ 255)
        && copies.all (fun r => (w.readers r).all (Config.downstream (w.bodies 1) a.cut))
        && (stackRanges (own.bodies 1)).all fun r => (w.stackUse width).all fun s => sharedOk copies r s)])

/-- Stage C, in the order in which R484 names the checks. -/
def stageC (v : Variant) (width : Nat → Nat) (w : Weave) : Option LoadErr :=
  firstErr ([variantErr v w] ++ (w.bodies 1).map (progErr w.hdr) ++ [windowErr v (w.bodies 1), adaptErr v width w, tallyErr (w.bodies 1), stemErr w])

/-- Stages A to C of an image (R484). -/
def Mach.checkImage (m : Mach) (b : List Byte) : Option LoadErr :=
  match stageA m.variant b with
  | some e => some e
  | none => match m.stageB b with
    | some e => some e
    | none => stageC m.variant m.portWidth (weaveOfImage b)

end Sys2Proof.Machine
end

