-- ==== Sys2Proof/Machine/JpegLs.lean ====
section
/-! DEFINITION. Lossless JPEG-LS (R225, R240): one component, NEAR = 0, default coding parameters. The procedures are those of ISO/IEC
14495-1, to which the spec points, PRESUMED (log 10). -/
namespace Sys2Proof.Machine

/-! ### Coding parameters -/

/-- A number moved into a range, or its lower end when it lies outside. -/
def jlsClamp (i lo hi : Nat) : Nat := if hi < i ∨ i < lo then lo else i

/-- The parameters of a precision: largest sample, gradient thresholds, and the length limit of a code word. -/
structure JlsPar where
  p : Nat
  maxval : Nat
  t1 : Nat
  t2 : Nat
  t3 : Nat
  limit : Nat
deriving DecidableEq, Repr

def jlsPar (p : Nat) : JlsPar :=
  let mv := 2 ^ p - 1
  let (a, b, c) :=
    if 128 ≤ mv then
      let f := (min mv 4095 + 128) / 256
      (f + 2, 4 * f + 3, 17 * f + 4)
    else
      let f := 256 / (mv + 1)
      (max 2 (3 / f), max 3 (7 / f), max 4 (21 / f))
  let t1 := jlsClamp a 1 mv
  let t2 := jlsClamp b t1 mv
  { p := p, maxval := mv, t1 := t1, t2 := t2, t3 := jlsClamp c t2 mv, limit := 2 * (max 2 p + max 8 p) }

/-- A context of the regular mode. -/
structure JlsCtx where
  a : Nat
  b : Int
  c : Int
  n : Nat
deriving DecidableEq, Repr

/-- A context of run interruption. -/
structure JlsRun where
  a : Nat
  n : Nat
  nn : Nat
deriving DecidableEq, Repr

/-- The variables of a scan: contexts, the two run contexts, and the run index. -/
structure Jls where
  par : JlsPar
  ctx : List JlsCtx
  run : List JlsRun
  idx : Nat
deriving DecidableEq, Repr

def Jls.start (p : Nat) : Jls :=
  let a := max 2 ((2 ^ p + 32) / 64)
  { par := jlsPar p, ctx := List.replicate 365 { a := a, b := 0, c := 0, n := 1 },
    run := List.replicate 2 { a := a, n := 1, nn := 0 }, idx := 0 }

def Jls.at (z : Jls) (q : Nat) : JlsCtx := z.ctx.getD q { a := 1, b := 0, c := 0, n := 1 }
def Jls.runAt (z : Jls) (t : Nat) : JlsRun := z.run.getD t { a := 1, n := 1, nn := 0 }

/-- The run length order of an index: 0 to 15 in growing numbers of steps. -/
def jlsJ (i : Nat) : Nat := if i < 16 then i / 4 else if i < 24 then 4 + (i - 16) / 2 else i - 16

/-! ### Neighbours, gradients, prediction -/

/-- The neighbours of a sample: left, above, above left, above right. -/
structure JlsNbr where
  ra : Nat
  rb : Nat
  rc : Nat
  rd : Nat
deriving DecidableEq, Repr

/-- The neighbours of column i: at a line's start the left one is that above, at its end the one above right is that above. `corner` is the
sample above left of the first column. -/
def jlsNbr (prev : List Nat) (corner i : Nat) (left : Option Nat) : JlsNbr :=
  let rb := prev.getD i 0
  { ra := left.getD rb, rb := rb, rc := if i = 0 then corner else prev.getD (i - 1) 0, rd := prev.getD (i + 1) rb }

/-- A gradient's region. -/
def JlsPar.region (k : JlsPar) (d : Int) : Int :=
  let m := d.natAbs
  let r : Int := if m = 0 then 0 else if m < k.t1 then 1 else if m < k.t2 then 2 else if m < k.t3 then 3 else 4
  if d < 0 then -r else r

/-- The context number of a sample and whether its sign is turned; `none` in the run mode. -/
def JlsPar.context (k : JlsPar) (x : JlsNbr) : Option (Nat × Bool) :=
  let q := k.region ((x.rd : Int) - x.rb) * 81 + k.region ((x.rb : Int) - x.rc) * 9 + k.region ((x.rc : Int) - x.ra)
  if (x.rd : Int) - x.rb = 0 ∧ (x.rb : Int) - x.rc = 0 ∧ (x.rc : Int) - x.ra = 0 then none else some (q.natAbs, decide (q < 0))

/-- The prediction of a sample, corrected by its context. -/
def Jls.predict (z : Jls) (x : JlsNbr) (q : Nat) (neg : Bool) : Int :=
  let p : Int :=
    if max x.ra x.rb ≤ x.rc then (min x.ra x.rb : Nat)
    else if x.rc ≤ min x.ra x.rb then (max x.ra x.rb : Nat)
    else (x.ra : Int) + x.rb - x.rc
  let c := (z.at q).c
  max 0 (min (z.par.maxval : Int) (if neg then p - c else p + c))

/-- A prediction error reduced to the range of the samples. -/
def JlsPar.reduce (k : JlsPar) (e : Int) : Int :=
  let r : Int := (k.maxval : Int) + 1
  let e := if e < 0 then e + r else e
  if (r + 1) / 2 ≤ e then e - r else e

/-- The least k at which n × 2^k reaches a. -/
def jlsK (n a : Nat) : Nat → Nat
  | 0 => 0
  | f + 1 => if a ≤ n then 0 else jlsK (2 * n) a f + 1

/-- Whether the mapping of errors is turned. -/
def JlsCtx.turned (c : JlsCtx) (k : Nat) : Bool := k == 0 && decide (2 * c.b ≤ -(c.n : Int))

/-- The context after an error. -/
def JlsCtx.update (c : JlsCtx) (e : Int) : JlsCtx :=
  let b := c.b + e
  let a := c.a + e.natAbs
  let (a, b, n) := if c.n = 64 then (a / 2, b / 2, 32) else (a, b, c.n)
  let n := n + 1
  if b ≤ -(n : Int) then { a := a, b := max (b + n) (-(n : Int) + 1), c := max (c.c - 1) (-128), n := n }
  else if 0 < b then { a := a, b := min (b - n) 0, c := min (c.c + 1) 127, n := n }
  else { a := a, b := b, c := c.c, n := n }

def Jls.learn (z : Jls) (q : Nat) (e : Int) : Jls := { z with ctx := z.ctx.set q ((z.at q).update e) }

/-- What an interrupted run's sample is coded with: type, prediction, turned sign, k and the limit. -/
structure JlsBreak where
  t : Nat
  px : Nat
  neg : Bool
  k : Nat
  limit : Nat
deriving DecidableEq, Repr

def Jls.break (z : Jls) (x : JlsNbr) : JlsBreak :=
  let t := if x.ra = x.rb then 1 else 0
  let r := z.runAt t
  { t := t, px := if t = 1 then x.ra else x.rb, neg := t == 0 && decide (x.rb < x.ra), k := jlsK r.n (r.a + if t = 1 then r.n / 2 else 0) 40,
    limit := z.par.limit - jlsJ z.idx - 1 }

/-- The scan after an interrupted run's sample with an error and its code. -/
def Jls.learnBreak (z : Jls) (t : Nat) (e : Int) (code : Nat) : Jls :=
  let r := z.runAt t
  let nn := r.nn + if e < 0 then 1 else 0
  let a := r.a + (code + 1 - t) / 2
  let r := if r.n = 64 then { a := a / 2, n := 33, nn := nn / 2 } else { a := a, n := r.n + 1, nn := nn : JlsRun }
  { z with run := z.run.set t r, idx := z.idx - 1 }

/-! ### Coding -/

/-- The low n bits of a number, most significant first. -/
def bitsOf (n v : Nat) : List Bool := (List.range n).reverse.map v.testBit

/-- The limited-length Golomb code of a number. -/
def golomb (p k limit v : Nat) : List Bool :=
  let top := limit - p - 1
  if v / 2 ^ k < top then List.replicate (v / 2 ^ k) false ++ [true] ++ bitsOf k v
  else List.replicate top false ++ [true] ++ bitsOf p (v - 1)

/-- A run of n equal samples up to its end or interruption: its code and the run index after it. -/
def runCode (idx n : Nat) (eol : Bool) : Nat → List Bool × Nat
  | 0 => ([], idx)
  | f + 1 =>
    if 2 ^ jlsJ idx ≤ n then
      let (l, i) := runCode (min 31 (idx + 1)) (n - 2 ^ jlsJ idx) eol f
      (true :: l, i)
    else if eol then (if n = 0 then [] else [true], idx)
    else (false :: bitsOf (jlsJ idx) n, idx)

/-- A sample in the regular mode. -/
def Jls.codeSample (z : Jls) (nb : JlsNbr) (q : Nat) (neg : Bool) (x : Nat) : List Bool × Jls :=
  let c := z.at q
  let d := (x : Int) - z.predict nb q neg
  let e := z.par.reduce (if neg then -d else d)
  let k := jlsK c.n c.a 40
  let m : Int := if c.turned k then (if 0 ≤ e then 2 * e + 1 else -2 * (e + 1)) else if 0 ≤ e then 2 * e else -2 * e - 1
  (golomb z.par.p k z.par.limit m.toNat, z.learn q e)

/-- The sample that interrupts a run. -/
def Jls.codeBreak (z : Jls) (nb : JlsNbr) (x : Nat) : List Bool × Jls :=
  let w := z.break nb
  let r := z.runAt w.t
  let d := (x : Int) - w.px
  let e := z.par.reduce (if w.neg then -d else d)
  let few := w.k == 0 && decide (2 * r.nn < r.n)
  let map := if few then decide (0 < e) else decide (e < 0)
  let code := 2 * e.natAbs - w.t - b2n map
  (golomb z.par.p w.k w.limit code, z.learnBreak w.t e code)

/-- A line: `left` is the sample before it, `run` the length of the run in progress. -/
def Jls.codeLine (z : Jls) (prev : List Nat) (corner i : Nat) (left : Option Nat) (run : Option Nat) : List Nat → List Bool × Jls
  | [] =>
    match run with
    | none => ([], z)
    | some n =>
      let (l, idx) := runCode z.idx n true (n + 1)
      (l, { z with idx := idx })
  | x :: rest =>
    let nb := jlsNbr prev corner i left
    match run, z.par.context nb with
    | none, some (q, neg) =>
      let (l, z) := z.codeSample nb q neg x
      let (l', z) := z.codeLine prev corner (i + 1) (some x) none rest
      (l ++ l', z)
    | run, _ =>
      let n := run.getD 0
      if x = nb.ra then z.codeLine prev corner (i + 1) (some x) (some (n + 1)) rest
      else
        let (l, idx) := runCode z.idx n false (n + 1)
        let (b, z) := { z with idx := idx }.codeBreak nb x
        let (l', z) := z.codeLine prev corner (i + 1) (some x) none rest
        (l ++ b ++ l', z)

/-- The lines of an image, each w samples: the code of all. -/
def Jls.codeLines (z : Jls) (w : Nat) (prev : List Nat) (corner : Nat) : List Nat → Nat → List Bool
  | _, 0 => []
  | px, n + 1 =>
    let line := px.take w
    let (l, z) := z.codeLine prev corner 0 none none line
    l ++ z.codeLines w line (prev.getD 0 0) (px.drop w) n

/-- Bits into bytes: after a byte of ones a zero bit is stuffed; the last byte is filled with zeros, and one of ones is followed by a zero
byte. `free` bits of the present byte are still open. -/
def stuff (v free : Nat) (out : List Byte) : List Bool → List Byte
  | [] =>
    let out := if free = 8 ∨ (free = 7 ∧ v = 0 ∧ out.head? == some 0xFF) then out else BitVec.ofNat 8 (v * 2 ^ free) :: out
    (if out.head? == some 0xFF then 0 :: out else out).reverse
  | b :: rest =>
    let v := 2 * v + b2n b
    if free = 1 then stuff 0 (if v = 255 then 7 else 8) (BitVec.ofNat 8 v :: out) rest else stuff v (free - 1) out rest

/-- The JPEG-LS stream of an image at a precision: SOI, SOF55 and SOS with one component numbered 1, the coded data, EOI (R225). -/
def jpegLs (p w : Nat) (px : List Nat) : List Byte :=
  let h := if w = 0 then 0 else px.length / w
  let word := fun n => beBytes 2 n
  word 0xFFD8 ++ word 0xFFF7 ++ word 11 ++ leBytes 1 p ++ word h ++ word w ++ [1, 1, 0x11, 0]
    ++ word 0xFFDA ++ word 8 ++ [1, 1, 0, 0, 0, 0] ++ stuff 0 8 [] ((Jls.start p).codeLines w [] 0 px h) ++ word 0xFFD9

/-! ### Decoding (R240) -/

/-- A number from n bits, most significant first, and the rest. -/
def takeBits : Nat → Nat → List Bool → Option (Nat × List Bool)
  | 0, v, l => some (v, l)
  | _ + 1, _, [] => none
  | n + 1, v, b :: l => takeBits n (2 * v + b2n b) l

/-- The zeros before the next one, at most n. -/
def takeZeros : Nat → List Bool → Option (Nat × List Bool)
  | _, [] => none
  | _, true :: l => some (0, l)
  | 0, false :: _ => none
  | n + 1, false :: l => (takeZeros n l).map fun r => (r.1 + 1, r.2)

/-- A number out of its limited-length Golomb code. -/
def ungolomb (p k limit : Nat) (l : List Bool) : Option (Nat × List Bool) :=
  let top := limit - p - 1
  match takeZeros top l with
  | none => none
  | some (z, l) =>
    if z < top then takeBits k z l else (takeBits p 0 l).map fun r => (r.1 + 1, r.2)

/-- A sample from its prediction and error. -/
def JlsPar.rebuild (k : JlsPar) (px e : Int) : Nat := ((px + e) % ((k.maxval : Int) + 1)).toNat

def Jls.decodeSample (z : Jls) (nb : JlsNbr) (q : Nat) (neg : Bool) (l : List Bool) : Option (Nat × Jls × List Bool) :=
  let c := z.at q
  let k := jlsK c.n c.a 40
  (ungolomb z.par.p k z.par.limit l).map fun (m, l) =>
    let e : Int := if c.turned k then (if m % 2 = 1 then (m / 2 : Nat) else -((m / 2 : Nat) : Int) - 1)
      else if m % 2 = 0 then (m / 2 : Nat) else -((m / 2 : Nat) : Int) - 1
    (z.par.rebuild (z.predict nb q neg) (if neg then -e else e), z.learn q e, l)

def Jls.decodeBreak (z : Jls) (nb : JlsNbr) (l : List Bool) : Option (Nat × Jls × List Bool) :=
  let w := z.break nb
  let r := z.runAt w.t
  (ungolomb z.par.p w.k w.limit l).map fun (code, l) =>
    let t := code + w.t
    let n : Int := ((t + 1) / 2 : Nat)
    let few := w.k == 0 && decide (2 * r.nn < r.n)
    let e := if few == (t % 2 == 1) then n else -n
    (z.par.rebuild w.px (if w.neg then -e else e), z.learnBreak w.t e code, l)

/-- The length of a run of at most `room` samples, whether it was interrupted, the run index and the rest. -/
def takeRun (idx room : Nat) : Nat → List Bool → Option (Nat × Bool × Nat × List Bool)
  | 0, _ => none
  | _ + 1, [] => none
  | f + 1, true :: l =>
    let n := 2 ^ jlsJ idx
    if room < n then some (room, false, idx, l)
    else if room = n then some (room, false, min 31 (idx + 1), l)
    else (takeRun (min 31 (idx + 1)) (room - n) f l).map fun r => (n + r.1, r.2)
  | _ + 1, false :: l =>
    match takeBits (jlsJ idx) 0 l with
    | some (n, l) => if n < room then some (n, true, idx, l) else none
    | none => none

/-- A line of w samples from column i on; `got` holds those before, the last first. -/
def Jls.decodeLine (z : Jls) (prev : List Nat) (corner w : Nat) (got : List Nat) (l : List Bool) : Nat → Option (List Nat × Jls × List Bool)
  | 0 => none
  | f + 1 =>
    let i := got.length
    if w ≤ i then some (got.reverse, z, l)
    else
      let nb := jlsNbr prev corner i got.head?
      match z.par.context nb with
      | some (q, neg) => match z.decodeSample nb q neg l with
        | none => none
        | some (x, z, l) => z.decodeLine prev corner w (x :: got) l f
      | none => match takeRun z.idx (w - i) (w + 1) l with
        | none => none
        | some (n, broken, idx, l) =>
          let z := { z with idx := idx }
          let got := List.replicate n nb.ra ++ got
          if !broken then z.decodeLine prev corner w got l f
          else match z.decodeBreak (jlsNbr prev corner (i + n) (some nb.ra)) l with
            | none => none
            | some (x, z, l) => z.decodeLine prev corner w (x :: got) l f

def Jls.decodeLines (z : Jls) (w : Nat) (prev : List Nat) (corner : Nat) (l : List Bool) : Nat → Option (List Nat × List Bool)
  | 0 => some ([], l)
  | n + 1 => match z.decodeLine prev corner w [] l (w + 1) with
    | none => none
    | some (line, z, l) => (z.decodeLines w line (prev.getD 0 0) l n).map fun r => (line ++ r.1, r.2)

/-- The bits of coded data up to the next marker, and the bytes from it on. -/
def unstuff (afterFF : Bool) : List Byte → List Bool × List Byte
  | [] => ([], [])
  | b :: rest =>
    if b = 0xFF ∧ rest.head?.any fun c => decide (128 ≤ c.toNat) then ([], b :: rest)
    else
      let (l, r) := unstuff (decide (b = 0xFF)) rest
      (bitsOf (if afterFF then 7 else 8) b.toNat ++ l, r)

/-- The image of a stream of R225 with P = 8: height, width and samples. A stream with another marker, a coding error, or more coded data
than its padding after the last sample gives none. -/
def jpegLsDecode (bs : List Byte) : Option (Nat × Nat × List Nat) :=
  let h := beNat (slice bs 7 2)
  let w := beNat (slice bs 9 2)
  let head := (jpegLs 8 0 []).take 25
  let like := slice bs 0 7 ++ zeros 4 ++ slice bs 11 14
  if like ≠ head ∨ h = 0 ∨ w = 0 then none
  else
    let (l, rest) := unstuff false (bs.drop 25)
    match (Jls.start 8).decodeLines w [] 0 l h with
    | some (px, pad) => if rest = [0xFF, 0xD9] ∧ pad.length < 16 ∧ pad.all (!·) then some (h, w, px) else none
    | none => none

end Sys2Proof.Machine
end

