-- ==== Sys2Proof/Machine/Packet.lean ====
section
/-! DEFINITION. The packet layer of a camera port (R197-R201): packets on the block stream, the header and its error code, the payload
checksum, and pixel packing. What CSI-2 defines and the spec takes over by name is PRESUMED (log 121). -/
namespace Sys2Proof.Machine

/-! ### Packets on the block stream (R198) -/

/-- The octets that a terminate block of a type carries. -/
def terminateLen (type : Nat) : Option Nat := [0x87, 0x99, 0xAA, 0xB4, 0xCC, 0xD2, 0xE1, 0xFF].findIdx? (· == type)

/-- The 8 octets of a block; octet 0 of a control block is its type. -/
def blockOctets (b : Block) : List Byte := leBytes 8 b.data.toNat

/-- The longest packet in octets. -/
def maxPacket : Nat := 65543

/-- What a stretch of blocks amounts to: no whole packet, a packet, or a framing error with the octets of the packet that it ends. -/
inductive Framed where
  | partly
  | packet (octets : List Byte)
  | broken (opened : Option (List Byte))
deriving DecidableEq, Repr

/-- The first packet or framing error of a stretch of blocks; `opened` holds the octets of the packet that is open. An idle block inside
a packet is a framing error, DEDUCED (log 122). -/
def deframe (opened : Option (List Byte)) : List Block → Framed
  | [] => .partly
  | b :: rest =>
    let o := blockOctets b
    let type := (o.headD 0).toNat
    match opened with
    | none =>
      if !b.ctl then .broken none
      else if type = 0x1E then deframe none rest
      else if type = 0x78 then deframe (some (o.drop 1)) rest
      else .broken none
    | some p =>
      if !b.ctl then (if maxPacket < p.length + 8 then .broken (some p) else deframe (some (p ++ o)) rest)
      else match terminateLen type with
        | some n => if maxPacket < p.length + n then .broken (some p) else .packet (p ++ slice o 1 n)
        | none => .broken (some p)

/-! ### Header and checksum (R197) -/

/-- The check bits that a header bit enters: bits 0-23 are the Data Identifier and the 16-bit field, 24 and 25 the channel extension. The
code words are those of weight three in ascending order, then those of weight five. -/
def eccColumn (i : Nat) : Nat :=
  let weight := fun (n : Nat) => ((List.range 6).filter n.testBit).length
  (((List.range 64).filter fun n => weight n == 3) ++ (List.range 64).filter fun n => weight n == 5).getD i 0

/-- The check bits of the 26 protected bits. -/
def eccOf (d : Nat) : Nat := (List.range 26).foldl (fun e i => if d.testBit i then e ^^^ eccColumn i else e) 0

/-- What a header is found to be: its protected bits, as sent or corrected, or beyond correction. -/
inductive HdrCheck where
  | good (d : Nat)
  | corrected (d : Nat)
  | bad
deriving DecidableEq, Repr

/-- The check of a header: no error, one error in a protected bit or a check bit, or more. -/
def checkHeader (d ecc : Nat) : HdrCheck :=
  let syn := eccOf d ^^^ ecc
  if syn = 0 then .good d
  else match (List.range 26).find? fun i => eccColumn i == syn with
    | some i => .corrected (d ^^^ 2 ^ i)
    | none => if (List.range 6).any fun i => syn == 2 ^ i then .corrected d else .bad

/-- The 16-bit checksum: x^16 + x^12 + x^5 + 1, seed 0xFFFF, least significant bit first. -/
def crcCsi (bs : List Byte) : Nat :=
  (bs.foldl (fun (r : BitVec 16) b =>
    (List.range 8).foldl (fun (r : BitVec 16) _ => if r.getLsbD 0 then (r >>> 1) ^^^ 0x8408 else r >>> 1) (r ^^^ b.setWidth 16)) 0xFFFF).toNat

/-- A packet: data type, channel, whether its header was corrected, the 16-bit field (the word count of a long packet), the payload octets
received, whether some are missing, and whether the checksum holds. -/
structure Packet where
  dt : BitVec 6
  chan : BitVec 4
  ce : Bool
  field : BitVec 16
  payload : List Byte
  trunc : Bool
  crcOk : Bool
deriving DecidableEq, Repr

/-- The word count of a long packet. -/
def Packet.wc (k : Packet) : Nat := k.field.toNat

/-- The packet of octets whose header can be read. A packet with fewer octets than its word count demands is a truncated one, and octets
beyond its checksum are discarded, DESIGN CHOICE (log 122). -/
def packetOf (o : List Byte) : Option Packet :=
  let e := fieldAt o 3 1
  let of := fun (d : Nat) (ce : Bool) =>
    let wc := nbits d 23 8
    let body := slice o 4 wc
    let trunc := decide (o.length < 6 + wc)
    ({ dt := BitVec.ofNat 6 (nbits d 5 0), chan := BitVec.ofNat 4 (nbits d 25 24 * 4 + nbits d 7 6), ce := ce, field := BitVec.ofNat 16 wc,
       payload := body, trunc := trunc, crcOk := !trunc && crcCsi body == fieldAt o (4 + wc) 2 } : Packet)
  match checkHeader (fieldAt o 0 3 + e / 64 * 2 ^ 24) (e % 64) with
  | .good d => some (of d false)
  | .corrected d => some (of d true)
  | .bad => none

/-- A class of packets (R199): those of the image channel, those of the control channel, and unused types, which belong to neither. -/
inductive PktClass where | image | control | unused
deriving DecidableEq, Repr

/-- The class of a data type (R199, R200). -/
def pktClass (dt : Nat) : PktClass :=
  if dt ≤ 3 ∨ (0x2A ≤ dt ∧ dt ≤ 0x2E) then .image else if 0x30 ≤ dt ∧ dt ≤ 0x37 then .control else .unused

/-! ### Pixel packing (R197, R201) -/

/-- The octets of a group of pixels of b bits, and the pixels of a group. -/
def packOctets (b : Nat) : Nat := if b = 12 then 3 else if b = 8 then 1 else if b = 16 then 2 else b / 2
def packPixels (b : Nat) : Nat := if b = 12 then 2 else if b = 8 ∨ b = 16 then 1 else 4

/-- Pixel i of a group of octets: in RAW10, RAW12 and RAW14 an octet of high bits each, then the low bits of all, first pixel lowest; a
RAW16 pixel has its high octet first. `none` when an octet that it needs is missing. -/
def unpackPixel (b i : Nat) (g : List Byte) : Option Nat :=
  let need := fun (n v : Nat) => if n ≤ g.length then some v else none
  if b = 8 then need 1 (fieldAt g 0 1)
  else if b = 16 then need 2 (fieldAt g 0 1 * 256 + fieldAt g 1 1)
  else
    let n := packPixels b
    let lo := b - 8
    let low := fieldAt g n (packOctets b - n)
    need (n + (lo * i + lo + 7) / 8) (fieldAt g i 1 * 2 ^ lo + nbits low (lo * i + lo - 1) (lo * i))

/-- The pixel codes of a payload: up to the first pixel that is not whole. -/
def unpack (b : Nat) (bs : List Byte) : List Nat :=
  ((List.range ((bs.length + packOctets b - 1) / packOctets b)).flatMap fun k =>
    (List.range (packPixels b)).map fun i => unpackPixel b i (slice bs (packOctets b * k) (packOctets b))).takeWhile Option.isSome |>.filterMap id

end Sys2Proof.Machine
end

