-- ==== Sys2Proof/Machine/Intake.lean ====
section
/-! DEFINITION. The intake blocks (chapter 7): camera packets, version agreement, lines, markers and frames, flat-field correction,
statistics, the display and archive taps, and the buffer of the vision tap. -/
namespace Sys2Proof.Machine

/-! ### Ports -/

/-- PORT_STAT.LSTATE: 0 DISABLED, 1 TRAINING, 2 VERSION, 3 READY, 4 ACQUIRE, 5 VERS_FAIL, 6 LINK_LOST. -/
def Mach.lstate (m : Mach) (p : Nat) : Nat := m.rbits (rPortStat (p / 6) (p % 6)) 2 0
def Mach.setLstate (m : Mach) (p s : Nat) : Mach := m.setFld (rPortStat (p / 6) (p % 6)) 2 0 s
/-- The port's block stream reaches the packet layer: its lanes are up. VERS_FAIL lasts while they are down (R205). -/
def Mach.portHears (m : Mach) (p : Nat) : Bool :=
  decide (2 ≤ m.lstate p) && decide (m.lstate p ≤ 5) && (m.lstate p != 5 || decide ((m.link p).stage = .up)) && m.variant.hasDie (p / 6)
/-- A port enters VERSION: no version is agreed before READY (R205). -/
def Mach.enterVersion (m : Mach) (p : Nat) : Mach :=
  ((m.setFld (rPortStat (p / 6) (p % 6)) 23 16 0).setFld (rPortStat (p / 6) (p % 6)) 15 8 0).setLstate p 2
/-- A discarded packet (R213): the error bit, and PORT_DISC. -/
def Mach.discard (m : Mach) (p bit : Nat) : Mach := (m.raisePort p bit).inc (rPortDisc (p / 6) (p % 6))
/-- Bits per pixel code: 8, 10, 12, 14 or 16 (R201). -/
def Mach.portBits (m : Mach) (p : Nat) : Nat := 8 + 2 * m.rbits (rPortCfg (p / 6) (p % 6)) 14 12
/-- The word count of a pixel packet of a full line (R201). -/
def Mach.portWc (m : Mach) (p : Nat) : Nat := m.portWidth p * m.portBits p / 8
def Mach.trigMode (m : Mach) (p : Nat) : Bool := m.bit (rPortCfg (p / 6) (p % 6)) 3
/-- The position of the port's base at this moment (R206). -/
def Mach.portPos (m : Mach) (p : Nat) : BitVec 32 := m.pos32 (m.bit (rPortCfg (p / 6) (p % 6)) 16)
/-- A stamp in free mode, and of a PMARK: the position plus PORT_POFF (R206, R210). -/
def Mach.stamp (m : Mach) (p : Nat) : BitVec 32 :=
  m.portPos p + BitVec.ofInt 32 (sext 16 (m.rbits (rPortTrig (p / 6) (p % 6)) 31 16))
def Mach.pitch (m : Mach) (p : Nat) : BitVec 32 := BitVec.ofNat 32 (m.rbits (rPortTrig (p / 6) (p % 6)) 15 0)
/-- PORT_CFG.EN of port p, and its lanes. -/
def Mach.portEn (m : Mach) (p : Nat) : Bool := m.variant.hasDie (p / 6) && m.bit (rPortCfg (p / 6) (p % 6)) 0
def Mach.portLanes (m : Mach) (p : Nat) : Nat := 2 ^ m.rbits (rPortCfg (p / 6) (p % 6)) 2 1
/-- The lanes of a link (R195, R351). -/
def Mach.lanesOf (m : Mach) (k : Nat) : List Nat :=
  if k < 12 then (List.range (m.portLanes k)).map fun i => 2 * k + i else (List.range 4).map fun i => 24 + 4 * (k - 12) + i

/-- The physical lane on which a port sends its packets: the one that the head hears on its lane 0 (R348). -/
def Mach.txLane (m : Mach) (p : Nat) : Nat :=
  match (m.lanesOf p).find? fun j => (m.lane j).seen && (m.lane j).laneNo == 0 && (m.lane j).heardValid with
  | some j => 2 * p + (m.lane j).heard.toNat
  | none => 2 * p

/-- A packet sent down to the camera. -/
def Mach.sendDown (m : Mach) (p : Nat) (k : DownPkt) : Mach := m.setPort p { m.port p with sent := (m.port p).sent ++ [(m.txLane p, k)] }

/-- A record to a tap ring of an intake block; a lost one sets the block's error bit (R222). -/
def Mach.tapRing (m : Mach) (d r : Nat) (ent : List Byte) : Mach :=
  let (m, ok) := m.ringPut (rRingBaseLo d r) ent
  if ok then m else m.raiseInt d r

/-! ### Flat-field correction (R216) -/

/-- Where a flat-field entry is kept: port, bank, column. -/
def ffcKey (p : Nat) (bank : Bool) (x : Nat) : Nat := (2 * p + b2n bank) * 16384 + x

/-- The correction of one pixel by an entry and a pedestal (R216). -/
def ffcPixel (entry : W32) (ped : Int) (x : Nat) : Nat :=
  (clampInt 0 65535 (rneDiv (((x : Int) - (bits entry 15 0 : Nat)) * (bits entry 31 16 : Nat)) 14 + ped)).toNat

/-- A line corrected with the bank in use, or as it is with EN = 0. -/
def Mach.correct (m : Mach) (p : Nat) (pix : List Nat) : List Nat :=
  let a := rPortFfc (p / 6) (p % 6)
  if !m.bit a 0 then pix
  else pix.mapIdx fun x v => ffcPixel (FMap.get (fun _ => 0) m.ffc (ffcKey p (m.bit a 2) x)) (sext 16 (m.rbits a 31 16)) v

/-- FFC_TABLE_WRITE (R217): discarded while the table is the one in use. -/
def ffcTableWrite (p : Nat) (bank : Bool) (x : Nat) (v : W32) (m : Mach) : Mach :=
  let a := rPortFfc (p / 6) (p % 6)
  if !m.hostUp ∨ !m.variant.hasDie (p / 6) then m
  else if m.bit a 2 = bank ∧ m.bit (rPortCfg (p / 6) (p % 6)) 0 ∧ m.bit a 0 then m.raiseInt (p / 6) 3
  else { m with ffc := FMap.put (fun _ => 0) m.ffc (ffcKey p bank x) v, ffcEcc := FMap.put (fun _ => Ecc.ok) m.ffcEcc (ffcKey p bank x) .ok }

def execFfcTableWrite (die : Fin 2) (port : Fin 6) (bank : Bool) (x : BitVec 14) (v : W32) (s : State) : Host.Outcome State Fault Refusal :=
  done s (ffcTableWrite (6 * die + port) bank x.toNat v s.m)

/-! ### The taps (R218, R223, R224, R228) -/

/-- The nearest integer to a quotient, ties to even. -/
def rneQuot (a b : Nat) : Nat :=
  let q := a / b
  let r := a % b
  if 2 * r > b ∨ (2 * r = b ∧ q % 2 = 1) then q + 1 else q

/-- The sum of a box of pixels. -/
def boxSum (rows : List (List Nat)) (x0 dx : Nat) : Nat := rows.foldl (fun s r => s + ((r.drop x0).take dx).foldl (· + ·) 0) 0

/-- A line with POS flags and a record that is not OK. -/
def LineRec.bad (r : LineRec) : Bool := r.st != LineState.ok

/-- The display record of a group of DY lines (R223). -/
def dispRecord (port dx dy width : Nat) (ls : List VLine) : List Byte :=
  match ls with
  | [] => []
  | l :: _ =>
    let wd := width / dx
    padTo 64 (leBytes 1 2 ++ leBytes 1 port ++ leBytes 2 wd ++ leBytes 4 l.r.l ++ leBytes 4 l.r.pos.toNat ++ leBytes 1 l.r.fn.toNat
      ++ leBytes 1 (b2n l.r.posv + 2 * b2n (ls.any fun k => k.r.bad)))
    ++ (List.range wd).map fun i => BitVec.ofNat 8 (min 255 (rneQuot (boxSum (ls.map VLine.pix) (i * dx) dx) (dx * dy * 256)))

/-- The display tap takes a line (R223). -/
def Mach.displayLine (m : Mach) (p : Nat) (l : VLine) : Mach :=
  let a := rPortDisp (p / 6) (p % 6)
  let x := m.port p
  if !m.bit a 0 then m.setPort p { x with disp := [] }
  else
    let dx := 2 ^ m.rbits a 2 1
    let dy := 2 ^ m.rbits a 4 3
    let grp := x.disp ++ [l]
    if grp.length < dy then m.setPort p { x with disp := grp }
    else (m.setPort p { x with disp := [] }).tapRing (p / 6) 1 (dispRecord (p % 6) dx dy (m.portWidth p) grp)

/-- History lines of a port, and the bytes of a line slot (R224). -/
def Mach.hlines (m : Mach) (p : Nat) : Nat := m.rbits (rPortHist (p / 6) (p % 6)) 15 0
def lineSlot (width : Nat) : Nat := (2 * width + 63) / 64 * 64
/-- Where the history of a port begins (R224). -/
def Mach.histBase (m : Mach) (p : Nat) : Nat :=
  (m.reg (rRingBaseHi (p / 6) 3)).toNat * 2 ^ 32 + (m.reg (rRingBaseLo (p / 6) 3)).toNat
    + m.rbits (rPortHist (p / 6) (p % 6)) 31 16 * 2 ^ 20
/-- Where line L, a 32-bit index, stands in the history (R210, R224). -/
def Mach.histAddr (m : Mach) (p l : Nat) : Nat := m.histBase p + l % 2 ^ 32 % m.hlines p * lineSlot (m.portWidth p)

/-- The archive tap stores a line, when its ring lies in the host region (R222, R224). -/
def Mach.archiveLine (m : Mach) (p : Nat) (l : VLine) : Mach :=
  let n := m.hlines p
  if n = 0 then m
  else
    let a := m.histAddr p l.r.l
    let x := m.port p
    let m := m.setPort p { x with hist := (l.r :: x.hist).take n }
    if m.sec.hostBase ≤ a ∧ a + lineSlot (m.portWidth p) ≤ m.sec.hostBase + m.sec.hostSize then
      m.setDdrBytes a (padTo (lineSlot (m.portWidth p)) (l.pix.flatMap (leBytes 2)))
    else m

/-- The vision tap buffers a line, when the stem engine serves the port, DEDUCED (log 24). -/
def Mach.visionLine (m : Mach) (p : Nat) (l : VLine) : Mach :=
  if (m.stem p).cfg.en then m.setPort p { m.port p with vbuf := (m.port p).vbuf ++ [l] } else m

/-! ### The coder's queue (R225, R226) -/

/-- A signed 32-bit comparison of line indices: a is before b. -/
def before32 (a b : BitVec 32) : Bool := decide (diff32 a b < 0)

/-- The newest line of a port, as a 32-bit index one beyond it. -/
def Mach.nextL (m : Mach) (p : Nat) : BitVec 32 := BitVec.ofNat 32 (m.port p).lidx

/-- A crop answered RANGE: columns beyond the line, or a size beyond 4 096, DESIGN CHOICE (log 25). -/
def cropOut (width nl x0 nw : Nat) : Bool := decide (width < x0 + nw) || decide (4096 < nl) || decide (4096 < nw)

/-- A crop can be answered: its lines have arrived, or its answer does not depend on them (R226). -/
def Mach.cropReady (m : Mach) (d : Nat) : CodeJob → Bool
  | .overview .. => true
  | .crop _ q l0 nl x0 nw =>
    let p := 6 * d + q
    decide (5 < q) || decide (m.hlines p = 0) || cropOut (m.portWidth p) nl x0 nw || !before32 (m.nextL p) (l0 + BitVec.ofNat 32 nl)

/-- A crop's first line is no longer in the history. -/
def Mach.cropExpired (m : Mach) (p : Nat) (l0 : BitVec 32) : Bool := before32 l0 (m.nextL p - BitVec.ofNat 32 (m.hlines p))

/-- Crop requests at the front whose answer can be made become ready images. -/
def Mach.promote (m : Mach) (d : Nat) : Mach :=
  let c := m.coder d
  let now := c.crops.takeWhile (m.cropReady d)
  m.setCoder d { c with crops := c.crops.drop now.length, ready := c.ready ++ now }

/-! ### Lines leave the assembler (R209-R212) -/

/-- The errors that a line meets: in the intake buffer that held it, and, with the correction on, in the entries of the table in use. -/
def Mach.lineErrors (m : Mach) (p : Nat) : List Ecc :=
  let a := rPortFfc (p / 6) (p % 6)
  [(m.port p).ecc] ++ (if m.bit a 0 then
      (List.range (m.portWidth p)).map fun x => FMap.get (fun _ => Ecc.ok) m.ffcEcc (ffcKey p (m.bit a 2) x)
    else [])

/-- A line leaves the frame assembler: its record, the taps, and what sample preparation needs of R214. A line that met an uncorrectable
error is BAD, and INT_ERR reports both kinds; a FILL line meets neither buffer nor table. -/
def Mach.emitLine (m : Mach) (p : Nat) (pix : List Nat) (pos : BitVec 32) (posv : Bool) (st : LineState) : Mach :=
  let x := m.port p
  match x.frame with
  | none => m
  | some f =>
    let fill := decide (st = .fill)
    let gap := x.ueGap || (!fill && x.gapNext)
    let errs := if fill then [] else m.lineErrors p
    let st := if errs.contains .ue then .bad else st
    let r : LineRec := { l := x.lidx, pos := if posv then pos else 0, posv := posv, tb1 := m.tb1, fn := f.fn, gen := f.gen, st := st, gap := gap }
    let l : VLine := { r := r, pix := if fill then pix else m.correct p pix }
    let m := m.setPort p { x with
      lidx := x.lidx + 1, tLast := m.tb1, ueGap := false, ecc := if fill then x.ecc else .ok, gapNext := x.gapNext && fill, frame := some { f with lines := f.lines ++ [l] } }
    let m := if errs.contains .ce then m.raiseInt (p / 6) 5 else m
    let m := if errs.contains .ue then m.raiseInt (p / 6) 6 else m
    let m := if r.bad then m.inc (rPortBadlines (p / 6) (p % 6)) else m
    let m : Mach := if r.bad || gap then { m with prep := { m.prep with badLines := m.prep.badLines ++ [{ port := p, l := r.l }] } } else m
    (((m.displayLine p l).archiveLine p l).visionLine p l).promote (p / 6)

/-- FILL lines up to FLINES (R212). -/
def Mach.padFrame (m : Mach) (p : Nat) : Nat → Mach
  | 0 => m
  | n + 1 =>
    (m.emitLine p (List.replicate (m.portWidth p) (m.rbits (rPortFill (p / 6) (p % 6)) 15 0)) 0 false .fill).padFrame p n

/-! ### A frame closes (R212, R213, R218, R228) -/

/-- The statistics record of a frame (R218). -/
def statRecord (port frames flags : Nat) (f : Frame) : List Byte :=
  let ok := f.lines.filter fun l => !l.r.bad
  let px := ok.flatMap VLine.pix
  let pos0 := match f.lines with
    | l :: _ => l.r.pos
    | [] => 0
  let hist := (List.range 256).flatMap fun i => leBytes 4 (min 0xFFFFFFFF (px.filter fun v => v / 256 == i).length)
  padTo 64 (leBytes 1 1 ++ leBytes 1 port ++ leBytes 1 f.gen.toNat ++ leBytes 1 f.fn.toNat ++ leBytes 2 flags ++ zeros 2
    ++ leBytes 4 frames ++ leBytes 4 f.l0 ++ leBytes 4 pos0.toNat ++ leBytes 2 (min 0xFFFF ok.length)
    ++ leBytes 2 (min 0xFFFF (f.lines.length - ok.length)) ++ leBytes 8 f.tfs ++ leBytes 8 (px.foldl (· + ·) 0)
    ++ leBytes 2 (px.foldl min 0xFFFF) ++ leBytes 2 (px.foldl max 0) ++ leBytes 4 (px.filter (· == 0xFFFF)).length
    ++ leBytes 8 px.length) ++ hist

/-- Boxes of OVD × OVD pixels of a frame, averaged on 16-bit values; incomplete boxes are dropped (R227). -/
def overviewRows (w ovd : Nat) : List (List Nat) → Nat → List (List Nat)
  | _, 0 => []
  | rows, n + 1 =>
    ((List.range (w / ovd)).map fun i => rneQuot (boxSum (rows.take ovd) (i * ovd) ovd) (ovd * ovd)) :: overviewRows w ovd (rows.drop ovd) n

/-- The overview of a closed frame joins the coder's images (R227). -/
def Mach.addOverview (m : Mach) (p : Nat) (f : Frame) : Mach :=
  let a := rPortArch (p / 6) (p % 6)
  if !m.bit a 0 then m
  else
    let ovd := 2 ^ (m.rbits a 2 1 + 1)
    let pos0 := match f.lines with
      | l :: _ => l.r.pos
      | [] => 0
    let c := m.coder (p / 6)
    m.setCoder (p / 6) { c with
      ready := c.ready ++ [.overview (p % 6) f.l0 pos0 (f.lines.any fun l => l.r.bad || l.r.gap)
        (overviewRows (m.portWidth p) ovd (f.lines.map VLine.pix) (f.lines.length / ovd))] }

/-- What closes a frame: its Frame End or a restarted agreement, a Frame Start, or the loss of block lock. -/
inductive CloseBy where | fe | fs | link
deriving DecidableEq, Repr

/-- The port without its frame. -/
def Mach.dropFrame (m : Mach) (p : Nat) : Mach :=
  (m.setPort p { m.port p with frame := none, ls := none, drop := false, disp := [] }).putBit (rPortStat (p / 6) (p % 6)) 3 false

/-- An open frame is closed: padded, flagged, counted, its statistics written and its overview made. -/
def Mach.closeFrame (m : Mach) (p : Nat) (why : CloseBy) : Mach :=
  match (m.port p).frame with
  | none => m
  | some f =>
    let m := if why = .fs then m.raisePort p 11 else m
    let m := if f.ovf then m.raisePort p 10 else m
    let short := decide (f.lines.length < m.portLines p)
    let m := if short then m.raisePort p 8 else m
    let m := m.padFrame p (m.portLines p - f.lines.length)
    let f := ((m.port p).frame).getD f
    let posv := match f.lines with
      | l :: _ => l.r.posv
      | [] => false
    let flags := b2n short + 2 * b2n f.long + 4 * b2n f.ovf + 8 * b2n (decide (why = .fs)) + 16 * b2n (decide (why = .link))
      + 32 * b2n f.fnSkip + 64 * b2n f.ffcBypassed + 128 * b2n posv
    let m := (m.dropFrame p).inc (rPortFrames (p / 6) (p % 6))
    (m.tapRing (p / 6) 0 (statRecord (p % 6) (m.reg (rPortFrames (p / 6) (p % 6))).toNat flags f)).addOverview p f

/-- Acquisition ends without padding and without a record: a port disable or a scrub (R229). -/
def Mach.endAcquisition (m : Mach) (p : Nat) : Mach :=
  let m := match (m.port p).frame with
    | some _ => (m.dropFrame p).inc (rPortFrames (p / 6) (p % 6))
    | none => m
  let m := if m.lstate p = 4 then m.setLstate p 3 else m
  m.setStem p { m.stem p with ended := true }

/-! ### Packets (R199-R206, R210-R213) -/

/-- The blocks of a packet whose header can be read come in at a port whose lanes are up: a corrected header is reported. A command whose
blocks hold no such packet, or one of a type that is not its own, has no effect (log 6). -/
def Mach.onPacket (m : Mach) (p : Nat) (blks : List Block) (mine : Nat → Bool) (f : Packet → Mach → Mach) : Mach :=
  match deframe none blks with
  | .packet o => match packetOf o with
    | some k => if mine k.dt.toNat && m.portHears p then f k (if k.ce then m.raisePort p 0 else m) else m
    | none => m
  | _ => m

/-- The packet came on the channel of its class; one of an unused type on either (R199). -/
def Mach.rightChannel (m : Mach) (p : Nat) (k : Packet) : Bool :=
  let image := k.chan.toNat == m.rbits (rPortCfg (p / 6) (p % 6)) 7 4
  let control := k.chan.toNat == m.rbits (rPortCfg (p / 6) (p % 6)) 11 8
  match pktClass k.dt.toNat with
  | .image => image
  | .control => control
  | .unused => image || control

/-- A packet other than VER: nothing during a scrub, discarded on a wrong channel and before READY (R199, R205, R213, R229). -/
def Mach.packet (m : Mach) (p : Nat) (blks : List Block) (mine : Nat → Bool) (f : Packet → Mach → Mach) : Mach :=
  m.onPacket p blks mine fun k m =>
    if m.scrubbing then m
    else if !m.rightChannel p k then m.discard p 5
    else if m.lstate p ≠ 3 ∧ m.lstate p ≠ 4 then m.discard p 6
    else f k m

/-- The port enters ACQUIRE (R207, R211); a new acquisition starts the port's stem at row 0. -/
def Mach.enterAcquire (m : Mach) (p : Nat) : Mach :=
  let x := m.port p
  let m := (m.setPort p { x with vbuf := if x.lidx = 0 then [] else x.vbuf, target := m.portPos p + m.pitch p, tagCnt := 0, tags := [], lastTag := none }).setLstate p 4
  if x.lidx = 0 then
    let m : Mach := { m with prep := { m.prep with
      rows := m.prep.rows.filter (fun r => 6 * r.die + r.port != p), badLines := m.prep.badLines.filter (fun l => l.port != p) } }
    m.setStem p { m.stem p with store := [], taken := 0, nextRow := 0, ended := false, released := 0, width := m.portWidth p }
  else m

/-- FRAME_START. -/
def frameStart (p : Nat) (blks : List Block) (m : Mach) : Mach :=
  m.packet p blks (· == 0) fun k m =>
    let data := k.field
    let m := m.closeFrame p .fs
    let m := if m.lstate p = 3 then m.enterAcquire p else m
    let x := m.port p
    let fn := data.setWidth 8
    let gen := (data >>> 8).setWidth 8
    let skip := match x.lastFn with
      | some n => decide (fn ≠ n + 1)
      | none => false
    let m := if skip then m.raisePort p 12 else m
    let a := rPortFfc (p / 6) (p % 6)
    let m := m.putBit a 2 (m.bit a 1)
    let m := (m.setFld (rPortEcho (p / 6) (p % 6)) 15 8 fn.toNat).setFld (rPortEcho (p / 6) (p % 6)) 7 0 gen.toNat
    let f : Frame := { fn := fn, gen := gen, tfs := m.tb1, l0 := x.lidx, lines := [], long := false, ovf := false, fnSkip := skip,
                       ffcBypassed := !m.bit a 0 }
    (m.setPort p { x with frame := some f, lastFn := some fn, ls := none, drop := false, disp := [] }).putBit (rPortStat (p / 6) (p % 6)) 3 true

def execFrameStart (cam : CamPort) (blks : List Block) (s : State) : Host.Outcome State Fault Refusal :=
  done s (frameStart (6 * cam.die + cam.port) blks s.m)

/-- FRAME_END: another FN sets SEQ and closes the frame all the same (R213). -/
def frameEnd (p : Nat) (blks : List Block) (m : Mach) : Mach :=
  m.packet p blks (· == 1) fun k m =>
    match (m.port p).frame with
    | none => m.discard p 6
    | some f => (if k.field.setWidth 8 = f.fn then m else m.raisePort p 6).closeFrame p .fe

def execFrameEnd (cam : CamPort) (blks : List Block) (s : State) : Host.Outcome State Fault Refusal :=
  done s (frameEnd (6 * cam.die + cam.port) blks s.m)

/-- LINE_START: its tag, and the position at its arrival (R206, R208). -/
def lineStart (p : Nat) (blks : List Block) (m : Mach) : Mach :=
  m.packet p blks (· == 2) fun k m =>
    if (m.port p).frame.isNone then m.discard p 6 else m.setPort p { m.port p with ls := some (k.field, m.stamp p) }

def execLineStart (cam : CamPort) (blks : List Block) (s : State) : Host.Outcome State Fault Refusal :=
  done s (lineStart (6 * cam.die + cam.port) blks s.m)

/-- LINE_END: accepted and ignored (R200). -/
def lineEnd (p : Nat) (blks : List Block) (m : Mach) : Mach :=
  m.packet p blks (· == 3) fun _ m => if (m.port p).frame.isNone then m.discard p 6 else m

def execLineEnd (cam : CamPort) (blks : List Block) (s : State) : Host.Outcome State Fault Refusal :=
  done s (lineEnd (6 * cam.die + cam.port) blks s.m)

/-- The stamp of a line in triggered mode and whether it sets GAP (R208); LTAG without a known tag. -/
def Mach.tagStamp (m : Mach) (p : Nat) : Option (BitVec 32) × Bool :=
  let x := m.port p
  match x.ls with
  | none => (none, false)
  | some (tag, _) =>
    (x.tags.reverse.lookup tag, match x.lastTag with
      | some t => decide (tag ≠ t + 1)
      | none => false)

/-- An accepted pixel packet's line (R201, R206, R208, R213). -/
def Mach.acceptLine (m : Mach) (p : Nat) (payload : List Byte) (bad : Bool) : Mach :=
  let x := m.port p
  let b := m.portBits p
  let w := m.portWidth p
  let got := ((unpack b payload).take w).map fun c => c * 2 ^ (16 - b)
  let pix := got ++ List.replicate (w - got.length) (m.rbits (rPortFill (p / 6) (p % 6)) 15 0)
  let st : LineState := if bad then .bad else .ok
  if m.trigMode p then
    let (pos, gap) := m.tagStamp p
    let m := if pos.isNone then m.raisePort p 13 else m
    let m := m.setPort p { x with
      ls := none, gapNext := x.gapNext || gap, lastTag := match x.ls with
        | some (t, _) => some t
        | none => x.lastTag }
    m.emitLine p pix (pos.getD 0) pos.isSome st
  else
    let pos := match x.ls with
      | some (_, q) => q
      | none => m.stamp p
    (m.setPort p { x with ls := none }).emitLine p pix pos true st

/-- A pixel packet of the port's type in a frame (R212, R213, R228). -/
def Mach.pixels (m : Mach) (p : Nat) (k : Packet) : Mach :=
  let x := m.port p
  match x.frame with
  | none => m.discard p 6
  | some f =>
    if m.portLines p ≤ f.lines.length then
      (if f.long then m else m.raisePort p 9).setPort p { x with frame := some { f with long := true }, gapNext := true, ls := none }
    else if x.drop || ((m.stem p).cfg.en && decide (8 ≤ x.vbuf.length)) then
      m.setPort p { x with drop := true, frame := some { f with ovf := true }, ls := none }
    else
      let badWc := k.wc != m.portWc p
      let badCrc := !k.trunc && !k.crcOk
      let m := if badWc then m.raisePort p 3 else m
      let m := if badCrc then m.raisePort p 2 else m
      m.acceptLine p k.payload (k.trunc || badWc || badCrc)

/-- The port's pixel data type (R200). -/
def Mach.portDt (m : Mach) (p : Nat) : Nat := 0x2A + m.rbits (rPortCfg (p / 6) (p % 6)) 14 12

/-- The data types of no other row: pixel packets, and packets that are discarded as ones of an unused type (R200, R203). -/
def pixelRow (dt : Nat) : Bool := decide (4 ≤ dt) && dt != 0x31 && dt != 0x33 && dt != 0x34

/-- PIXEL_PACKET: a pixel packet of the port's format becomes a line, and any other type is discarded. -/
def pixelPacket (p : Nat) (blks : List Block) (m : Mach) : Mach :=
  m.packet p blks pixelRow fun k m =>
    if k.dt.toNat ≠ m.portDt p then m.discard p 4 else (if k.trunc then m.raisePort p 7 else m).pixels p k

def execPixelPacket (die : Fin 2) (port : Fin 6) (start : Block) (rest : List Block) (s : State) : Host.Outcome State Fault Refusal :=
  done s (pixelPacket (6 * die + port) (start :: rest) s.m)

/-- A long packet of Valzardo's with a stated word count (R203): WC, CRC, then FIELD. -/
def Mach.valzardo (m : Mach) (p : Nat) (k : Packet) (wc : Nat) (fieldsOk : Bool) (f : Mach → Mach) : Mach :=
  if k.wc ≠ wc then m.discard p 3 else if !k.crcOk then m.discard p 2 else if !fieldsOk then m.discard p 17 else f m

/-- The payload of a packet as a number. -/
def Packet.body (k : Packet) (w : Nat) : BitVec w := BitVec.ofNat w (leNat k.payload)

/-- The intake's VER. -/
def ourVer : DownPkt := .ver 1 1 0

/-- VER_SEND (R205). -/
def verSend (p : Nat) (m : Mach) : Mach := if m.variant.hasDie (p / 6) ∧ m.lstate p = 2 then m.sendDown p ourVer else m

def execVerSend (die : Fin 2) (port : Fin 6) (s : State) : Host.Outcome State Fault Refusal := done s (verSend (6 * die + port) s.m)

/-- A camera's VER agrees a version, or ends in VERS_FAIL (R205). -/
def Mach.agree (m : Mach) (p : Nat) (pl : BitVec 64) : Mach :=
  let a := rPortStat (p / 6) (p % 6)
  if bits pl 7 0 = 1 ∧ bits pl 23 16 ≤ min 1 (bits pl 15 8) then
    (((m.setFld a 23 16 1).setFld a 15 8 (min 1 (bits pl 15 8))).setLstate p 3).sendDown p ourVer
  else ((m.enterVersion p).setLstate p 5).raisePort p 14

/-- VER: it is taken during a scrub too; one with ROLE = device sets SEQ, and one in READY or ACQUIRE restarts the agreement (R205). -/
def camVer (p : Nat) (blks : List Block) (m : Mach) : Mach :=
  m.onPacket p blks (· == 0x34) fun k m =>
    let pl := k.body 64
    if !m.rightChannel p k then m.discard p 5
    else m.valzardo p k 8 (decide (bits pl 31 24 ≤ 1) && bits pl 63 34 == 0) fun m =>
      if bits pl 31 24 = 0 then m.discard p 6
      else if m.lstate p = 5 then m
      else if m.lstate p = 2 then m.agree p pl
      else (((m.raisePort p 6).closeFrame p .fe).enterVersion p).agree p pl

def execCamVer (cam : CamPort) (blks : List Block) (s : State) : Host.Outcome State Fault Refusal :=
  done s (camVer (6 * cam.die + cam.port) blks s.m)

/-- ECHO: copied into PORT_ECHO (R204). -/
def camEcho (p : Nat) (blks : List Block) (m : Mach) : Mach :=
  m.packet p blks (· == 0x31) fun k m =>
    let pl := k.body 128
    m.valzardo p k 16 (bits pl 31 18 == 0 && bits pl 95 80 == 0) fun m =>
      (m.setFld (rPortEcho (p / 6) (p % 6)) 31 24 (bits pl 23 16)).setFld (rPortEcho (p / 6) (p % 6)) 23 16 (bits pl 7 0)

def execCamEcho (cam : CamPort) (blks : List Block) (s : State) : Host.Outcome State Fault Refusal :=
  done s (camEcho (6 * cam.die + cam.port) blks s.m)

/-- A marker record for a port in ACQUIRE (R210). -/
def Mach.marker (m : Mach) (p : Nat) (pmark trail : Bool) (tag : BitVec 16) (pos : BitVec 32) : Mach :=
  if m.variant.hasDie (p / 6) ∧ m.lstate p = 4 then
    { m with prep := { m.prep with
        markers := m.prep.markers ++ [{ port := p, pmark := pmark, trail := trail, tag := tag, pos := pos, l := (m.port p).lidx,
                                        t := (m.port p).tLast, ovs3 := m.ovs false, ovs4 := m.ovs true }] } }
  else m

/-- PMARK: a packet of a reserved type under version 1.0 (R203, R205, R210). -/
def pmark (p : Nat) (blks : List Block) (m : Mach) : Mach :=
  m.packet p blks (· == 0x33) fun k m =>
    let pl := k.body 64
    if m.rbits (rPortStat (p / 6) (p % 6)) 15 8 = 0 then m.discard p 4
    else m.valzardo p k 8 (decide (bits pl 7 0 ≤ 1) && bits pl 15 8 == 0 && bits pl 63 32 == 0) fun m =>
      m.marker p true (bitAt pl 0) (BitVec.ofNat 16 (bits pl 31 16)) (m.stamp p)

def execPmark (cam : CamPort) (blks : List Block) (s : State) : Host.Outcome State Fault Refusal :=
  done s (pmark (6 * cam.die + cam.port) blks s.m)

/-- A packet whose header is beyond correction is discarded, and with a frame open the next line carries GAP (R213). -/
def Mach.lostPacket (m : Mach) (p : Nat) : Mach :=
  let x := m.port p
  (m.setPort p { x with ueGap := x.ueGap || x.frame.isSome }).discard p 1

/-- HDR_UE: a packet whose header is beyond correction. -/
def hdrUe (p : Nat) (blks : List Block) (m : Mach) : Mach :=
  match deframe none blks with
  | .packet o => if m.portHears p && (packetOf o).isNone then m.lostPacket p else m
  | _ => m

def execHdrUe (cam : CamPort) (blks : List Block) (s : State) : Host.Outcome State Fault Refusal :=
  done s (hdrUe (6 * cam.die + cam.port) blks s.m)

/-- FRAMING_ERROR: an open pixel packet of the port's ends truncated, any other open packet is discarded (R198, R213). -/
def framingError (p : Nat) (blks : List Block) (m : Mach) : Mach :=
  match deframe none blks with
  | .broken opened =>
    if !m.portHears p then m
    else
      let m := m.raisePort p 7
      match opened.map packetOf with
      | none => m
      | some none => m.lostPacket p
      | some (some k) =>
        let m := if k.ce then m.raisePort p 0 else m
        if m.scrubbing then m
        else if k.dt.toNat = m.portDt p ∧ m.rightChannel p k ∧ (m.lstate p = 3 ∨ m.lstate p = 4) then m.pixels p { k with trunc := true }
        else m.inc (rPortDisc (p / 6) (p % 6))
  | _ => m

def execFramingError (die : Fin 2) (port : Fin 6) (blks : List Block) (s : State) : Host.Outcome State Fault Refusal :=
  done s (framingError (6 * die + port) blks s.m)

/-! ### Triggers and exposure (R207, R219) -/

/-- LTRIG: the position has reached T; an LTRIG is sent and recorded in the 64-entry tag table (R207). -/
def ltrig (p : Nat) (m : Mach) : Mach :=
  let x := m.port p
  if m.variant.hasDie (p / 6) ∧ m.lstate p = 4 ∧ m.trigMode p ∧ !m.scrubbing ∧ 0 ≤ diff32 (m.portPos p) x.target then
    let tags := x.tags ++ [(x.tagCnt, x.target)]
    (m.setPort p { x with target := x.target + m.pitch p, tagCnt := x.tagCnt + 1, tags := tags.drop (tags.length - 64) }).sendDown p
      (.ltrig x.tagCnt x.target)
  else m

def execLtrig (die : Fin 2) (port : Fin 6) (s : State) : Host.Outcome State Fault Refusal := done s (ltrig (6 * die + port) s.m)

/-- PORT_EXP_COMMIT: GEN advances, TGT is two frames on, and an EXPCTL is sent on a port whose lanes are up, outside a scrub (R219, R229). -/
def portExpCommit (p : Nat) (m : Mach) : Mach :=
  if !m.hostUp ∨ !m.variant.hasDie (p / 6) then m
  else
    let x := m.port p
    let d := p / 6
    let q := p % 6
    let gen : BitVec 8 := if x.sgen = 255 then 1 else x.sgen + 1
    let tgt : BitVec 8 := x.lastFn.getD 0 + 2
    let m := ((m.setPort p { x with sgen := gen }).setFld (rPortExpCmd d q) 15 8 gen.toNat).setFld (rPortExpCmd d q) 23 16 tgt.toNat
    if m.portHears p ∧ !m.scrubbing then
      m.sendDown p (.expctl gen tgt (m.reg (rPortExpTime d q)) ((m.reg (rPortExpGain d q)).setWidth 16) (m.reg (rPortExpAux d q)))
    else m

def execPortExpCommit (die : Fin 2) (port : Fin 6) (s : State) : Host.Outcome State Fault Refusal := done s (portExpCommit (6 * die + port) s.m)

/-! ### The archive tap's coder (R225-R227) -/

/-- CROP_REQUEST: an entry of the archive request queue of the block is taken. -/
def cropRequest (d : Nat) (req : BitVec 256) (m : Mach) : Mach :=
  if !m.variant.hasDie d then m
  else match (List.range 8192).find? fun q => m.qReady q 6 && m.rbits (rQLink q) 20 16 == d with
    | none => m
    | some q =>
      let c := m.coder d
      let job : CodeJob := .crop (req.setWidth 16) (bits req 18 16) (BitVec.ofNat 32 (bits req 63 32)) (bits req 79 64 + 1) (bits req 95 80) (bits req 111 96 + 1)
      ((m.qTake q).setCoder d { c with crops := c.crops ++ [job] }).promote d

def execCropRequest (die : Fin 2) (req : BitVec 256) (s : State) : Host.Outcome State Fault Refusal := done s (cropRequest die req s.m)

/-- A coded sample of a 16-bit value at b bits (R225). -/
def codeSample (b v : Nat) : Nat := min (2 ^ b - 1) (rneQuot v (2 ^ (16 - b)))

/-- The JPEG-LS stream of an image at a port's precision. -/
def Mach.codeImage (m : Mach) (p w : Nat) (px : List Nat) : List Byte :=
  let b := m.portBits p
  jpegLs b w (px.map (codeSample b))

/-- The pixels of a crop, out of the history (R224). -/
def Mach.cropPixels (m : Mach) (p : Nat) (l0 : BitVec 32) (nl x0 nw : Nat) : List Nat :=
  let first := (m.port p).lidx - (diff32 (m.nextL p) l0).toNat
  (List.range nl).flatMap fun i => (List.range nw).map fun j => leNat (m.ddrBytes (m.histAddr p (first + i) + 2 * (x0 + j)) 2)

/-- The record of a line in the history. -/
def Mach.histRec (m : Mach) (p : Nat) (l : BitVec 32) : Option LineRec := (m.port p).hist.find? fun r => BitVec.ofNat 32 r.l == l

/-- The coded image of a job, or its answer without one (R225-R227). -/
def Mach.runCoder (m : Mach) (d : Nat) : CodeJob → CodeOut
  | .overview q l0 pos0 bad rows =>
    let w := (rows.headD []).length
    { status := b2n bad, kind := 1, port := q, tag := 0, l0 := BitVec.ofNat 32 l0, pos0 := pos0, nl := rows.length, nw := w,
      stream := m.codeImage (6 * d + q) w (rows.flatMap id) }
  | .crop tag q l0 nl x0 nw =>
    let p := 6 * d + q
    let status :=
      if 5 < q ∨ m.hlines p = 0 then 4
      else if cropOut (m.portWidth p) nl x0 nw then 3
      else if m.cropExpired p l0 then 2
      else b2n ((List.range nl).any fun i => match m.histRec p (l0 + BitVec.ofNat 32 i) with
        | some r => r.bad || r.gap
        | none => false)
    let pos0 := match m.histRec p l0 with
      | some r => r.pos
      | none => 0
    { status := status, kind := 0, port := q, tag := tag, l0 := l0, pos0 := pos0, nl := nl, nw := nw,
      stream := if status ≤ 1 then m.codeImage p nw (m.cropPixels p l0 nl x0 nw) else [] }

/-- CODER_START: the next image in the order in which they became ready. -/
def coderStart (d : Nat) (m : Mach) : Mach :=
  let c := m.coder d
  match c.busy, c.ready with
  | none, j :: rest => m.setCoder d { c with ready := rest, busy := some (m.runCoder d j) }
  | _, _ => m

def execCoderStart (die : Fin 2) (s : State) : Host.Outcome State Fault Refusal := done s (coderStart die s.m)

/-- The archive-output record of an image at a time (R227). -/
def CodeOut.bytes (o : CodeOut) (t : Nat) : List Byte :=
  padTo 64 (leBytes 1 3 ++ leBytes 1 o.status ++ leBytes 1 o.kind ++ leBytes 1 o.port ++ leBytes 2 o.tag.toNat ++ zeros 2
    ++ leBytes 4 o.l0.toNat ++ leBytes 4 o.pos0.toNat ++ leBytes 2 o.nl ++ leBytes 2 o.nw ++ leBytes 4 o.stream.length ++ leBytes 8 t) ++ o.stream

/-- ARCHIVE_RECORD: the image is finished; a crop whose first line was overwritten meanwhile is EXPIRED (R226, R227). -/
def archiveRecord (d : Nat) (m : Mach) : Mach :=
  let c := m.coder d
  match c.busy with
  | none => m
  | some o =>
    let o := if o.kind = 0 ∧ o.status ≤ 1 ∧ m.cropExpired (6 * d + o.port) o.l0 then { o with status := 2, stream := [] } else o
    let m := m.setCoder d { c with busy := none }
    if m.scrubbing then m else m.tapRing d 2 (o.bytes m.tb1)

def execArchiveRecord (die : Fin 2) (s : State) : Host.Outcome State Fault Refusal := done s (archiveRecord die s.m)

end Sys2Proof.Machine
end

