-- ==== Sys2Proof/Machine/Prep.lean ====
section
/-! DEFINITION. Sample preparation (R232-R250): markers into parts, parts into batches, reference decodes, places and descriptors. -/
namespace Sys2Proof.Machine

/-! ### Which weave and recipe a part belongs to (R258, R487, R489) -/

/-- The position lies in the drain window (R258). -/
def Mach.inDrain (m : Mach) (pt : BitVec 32) : Bool :=
  match m.wv.drain with
  | none => false
  | some (a, b) => decide (0 ≤ diff32 pt a) && (match b with
    | some r => decide (diff32 pt r < 0)
    | none => true)

/-- The weave that a trigger position belongs to: of two running weaves the later from its switch position on; in a drain
window, the one whose recipe is in force. -/
def Mach.weaveFor (m : Mach) (pt : BitVec 32) : Nat :=
  match m.wv.running with
  | [] => m.prep.serial
  | [w] => if m.inDrain pt then m.prep.serial else w.serial
  | w :: rest =>
    match rest.getLast? with
    | none => w.serial
    | some v => match v.since with
      | some s => if diff32 pt s < 0 then w.serial else v.serial
      | none => w.serial

/-- A port is one of a group's. -/
def GroupCfg.has (g : GroupCfg) (p : Nat) : Bool := bitAt g.ports p
/-- The ports of a group in ascending order; the first is the principal port (R232). -/
def GroupCfg.list (g : GroupCfg) : List Nat := (List.range 12).filter g.has
def GroupCfg.principal (g : GroupCfg) (p : Nat) : Bool := g.list.head? == some p

/-- A port of a part, and its stripe there. -/
def Mach.partHas (m : Mach) (x : Part) (p : Nat) : Bool :=
  match m.groupOf x with
  | some g => g.has p
  | none => false
def Part.stripe (x : Part) (p : Nat) : Option Stripe := x.stripes.find? fun s => s.port == p
def Part.isOpen (x : Part) (p : Nat) : Bool :=
  match x.stripe p with
  | some s => s.trail.isNone
  | none => false
/-- Every stripe of the part has closed. -/
def Mach.allClosed (m : Mach) (x : Part) : Bool :=
  match m.groupOf x with
  | some g => g.list.all fun p => match x.stripe p with
    | some s => s.trail.isSome
    | none => false
  | none => true

/-- PREP still has to copy the part. -/
def Part.wanted (x : Part) : Bool := x.accepted && x.void.isNone && !x.ready
def Mach.wantedPart (m : Mach) (idx : BitVec 48) : Option Part := m.prep.parts.find? fun x => x.idx == idx && x.wanted
def Mach.modAccepted (m : Mach) (idx : BitVec 48) (f : Part → Part) : Mach :=
  { m with prep := { m.prep with parts := m.prep.parts.map fun x => if x.idx = idx ∧ x.accepted then f x else x } }

/-! ### Stripes (R237) -/

/-- The stem rows r0 and r1 + 1 of a closed stripe. -/
def Mach.stripeRows (m : Mach) (s : Stripe) : Nat × Nat :=
  let b := (m.stem s.port).cfg.b
  ((s.lead + b - 1) / b, s.trail.getD s.lead / b)

/-- A stripe whose sample is a void, CORRUPT: no rows, a line that breaks R214, or a row with dropped granules (R185, R237). -/
def Mach.stripeBad (m : Mach) (s : Stripe) : Bool :=
  let (r0, r1) := m.stripeRows s
  let b := (m.stem s.port).cfg.b
  s.trail.isSome && (!(m.stem s.port).cfg.en || decide (r1 ≤ r0)
    || m.prep.badLines.any (fun l => l.port == s.port && decide (b * r0 ≤ l.l) && decide (l.l < b * r1))
    || m.prep.rows.any fun r => 6 * r.die + r.port == s.port && r.dropped && decide (r0 ≤ r.row) && decide (r.row < r1))

/-- A row of a closed stripe carries an uncorrectable stem weight error (R185). -/
def Mach.stripeUe (m : Mach) (s : Stripe) : Bool :=
  let (r0, r1) := m.stripeRows s
  s.trail.isSome && m.prep.rows.any fun r => 6 * r.die + r.port == s.port && r.ue && decide (r0 ≤ r.row) && decide (r.row < r1)

/-- When a row of a port was reported. -/
def Mach.rowTime (m : Mach) (p row : Nat) : Option Nat :=
  match m.prep.rows.find? fun r => 6 * r.die + r.port == p && r.row == row with
  | some r => some r.t
  | none => none

/-- Every row of a closed stripe has been reported. -/
def Mach.rowsIn (m : Mach) (s : Stripe) : Bool :=
  let (r0, r1) := m.stripeRows s
  s.trail.isSome && (decide (r1 ≤ r0) || (m.rowTime s.port (r1 - 1)).isSome)

/-! ### Voids (R245, R246) -/

/-- PREP works on a sample no longer: its reads, and its writes that are not at their target, are gone (R245). -/
def Mach.stopCopy (m : Mach) (idx : BitVec 48) : Mach :=
  { m with
    flights := m.flights.filter fun f => f.owner != WOwner.sample idx,
    chanQ := m.chanQ.filter fun q => q.read != some (ReadFor.prep idx) }

/-- A sample becomes a void: counted, reported, its reference abandoned, and its record written (R246, R391). -/
def Mach.voidPart (m : Mach) (x : Part) (r : Reason) : Mach :=
  match m.wantedPart x.idx with
  | none => m
  | some x =>
    let late := decide (r = .late)
    let m := (m.modAccepted x.idx fun x => { x with void := some r, ref := if x.ref = .done then .done else .none, copy := .none }).stopCopy x.idx
    let m : Mach := { m with prep := { m.prep with decoding := m.prep.decoding.filter fun d => d.2 != x.idx } }
    let m := (m.inc (if late then rPrepVoidL else rPrepVoidC)).raisePrep (if late then 4 else 3) { sample := some x.idx }
    if x.done then m else m.commitRecord x Ballot.none r

/-- A sample whose closed stripes are bad becomes a void; a row with a weight error sets F3. -/
def Mach.judge (m : Mach) (idx : BitVec 48) : Mach :=
  match m.wantedPart idx with
  | none => m
  | some x =>
    let m := if x.stripes.any m.stripeUe then m.modAccepted idx fun x => { x with f3 := true } else m
    if x.stripes.any m.stripeBad then m.voidPart x .corrupt else m

/-- The change of one part of the list by its place. -/
def Mach.setPart (m : Mach) (i : Nat) (x : Part) : Mach := { m with prep := { m.prep with parts := setNth m.prep.parts i x } }

/-- A stripe of part i closes at L, its last line having arrived at t; `corrupt` makes the sample a void at once (R235, R237, R300). -/
def Mach.closeStripe (m : Mach) (i p l t : Nat) (corrupt : Bool) : Mach :=
  match m.prep.parts[i]? with
  | none => m
  | some x =>
    let x := { x with stripes := x.stripes.map (fun s => if s.port = p then { s with trail := some l, t := t } else s), last := some p }
    let tl := if m.allClosed x then some (x.stripes.foldl (fun t s => max t s.t) 0) else none
    let m := m.setPart i { x with tl := tl }
    if !x.accepted then m else if corrupt then m.voidPart x .corrupt else m.judge x.idx

/-- How far PREP has followed the lines of a port: to its oldest waiting marker, or to the next line. -/
def Mach.seenL (m : Mach) (p : Nat) : Nat :=
  match m.prep.markers.find? fun k => k.port == p with
  | some k => k.l
  | none => (m.port p).lidx

/-- Open stripes that have reached MAXLEN close, and their parts are voids (R235). -/
def Mach.sweep (m : Mach) : Mach :=
  (List.range m.prep.parts.length).foldl (fun (m : Mach) i =>
    match m.prep.parts[i]? with
    | none => m
    | some x => match m.groupOf x with
      | none => m
      | some g => x.stripes.foldl (fun (m : Mach) s =>
          if s.trail.isNone ∧ s.lead + g.maxlen < m.seenL s.port then
            (m.raisePrep 5 { sample := if x.accepted then some x.idx else none }).closeStripe i s.port (s.lead + g.maxlen) (m.port s.port).tLast true
          else m) m) m

/-! ### Buckets and batches (R238, R244) -/

/-- The buckets that a group may use, smallest first. -/
def Recipe.bucketsOf (r : Recipe) (g : GroupCfg) : List (Nat × BucketCfg) :=
  sortBy (fun a b => decide (a.2.h * a.2.w < b.2.h * b.2.w) || (a.2.h * a.2.w == b.2.h * b.2.w && decide (a.1 ≤ b.1)))
    (r.buckets.filter fun b => bitAt g.bkts b.1)

/-- Rows of a closed stripe. -/
def Mach.stripeH (m : Mach) (s : Stripe) : Nat := (m.stripeRows s).2 - (m.stripeRows s).1

/-- N_B of a weave. -/
def Mach.nbOf (m : Mach) (serial : Nat) : Nat :=
  match m.weaveOf serial with
  | some w => w.hdr.nb
  | none => 1

/-- The waiter that claims the place of a batch. -/
def claimer (key id : Nat) : Waiter := .prep (key * 2 ^ 32 + id)

/-- A batch opens and asks REL for its place; PLACE_WAIT unless the latch can grant it at once (R244 step 1). A batch with an image is
closed from the start. -/
def Mach.openBatch (m : Mach) (key : Nat) (c : BucketCfg) (image : Option Nat) : Mach :=
  let x := m.bucket key
  let l := m.latch c.rel
  let free := decide (l.st = .held) && decide (1 ≤ l.count.toNat) && !m.waits.any fun w => w.latch == c.rel && w.granted.isNone
  let m := m.setBucket key { x with
    batches := x.batches ++ [{ id := x.nextId, q := none, samples := [], closed := image.isSome, tOpen := m.tb1, image := image, copy := .none }],
    nextId := x.nextId + 1 }
  let m := (m.gate (claimer key x.nextId) c.rel 1).1
  if free then m else m.raisePrep 8

/-- A sample takes the next places of its bucket's open batch, which is opened when none is; a full batch closes (R244). -/
def Mach.intoBatch (m : Mach) (x : Part) (ens b : Nat) (c : BucketCfg) : Mach :=
  let key := 8 * x.weave + b
  let m := if (m.bucket key).batches.any (fun k => !k.closed) then m else m.openBatch key c none
  let y := m.bucket key
  let nb := m.nbOf x.weave
  match y.batches.find? fun k => !k.closed with
  | none => m
  | some k =>
    let k' := { k with samples := k.samples ++ [x.idx], closed := decide (nb ≤ (k.samples.length + 1) * ens) }
    (m.setBucket key { y with batches := y.batches.map fun z => if z.id = k.id then k' else z }).modAccepted x.idx fun x =>
      { x with bucket := some b, batch := k.id, place := k.samples.length * ens,
               ref := match m.groupOf x with
                 | some g => if x.void.isNone && g.refsel != 0 then .wait else x.ref
                 | none => x.ref }

/-- A part takes the first bucket that holds it, or the largest as a void (R238). -/
def Mach.assign (m : Mach) (x : Part) : Mach :=
  match m.groupOf x, m.recipeOf x.weave with
  | some g, some r =>
    let bs := r.bucketsOf g
    let h := (x.stripes.map m.stripeH).foldl max 0
    let w := (g.list.map fun p => g.xw.getD p 0).foldl max 0
    match bs.find? fun b => decide (h ≤ b.2.h) && decide (w ≤ b.2.w) with
    | some b => m.intoBatch x g.ens b.1 b.2
    | none => match bs.getLast? with
      | some b =>
        let m := (m.raisePrep 5 { sample := some x.idx }).voidPart x .corrupt
        m.intoBatch { x with void := some .corrupt } g.ens b.1 b.2
      | none => m
  | _, _ => m

/-- Parts are assigned in index order within their group, each once every stripe has closed (R238, R244 step 2; log 27). -/
def Mach.assignAll (m : Mach) : Mach :=
  (m.prep.parts.foldl (fun (k : Mach × List (Nat × Nat)) p =>
    let (m, blocked) := k
    match m.prep.parts.find? fun x => x.idx == p.idx && x.accepted with
    | none => k
    | some x =>
      if !p.accepted || x.bucket.isSome || blocked.contains (x.weave, x.group) then k
      else if m.allClosed x then (m.assign x, blocked)
      else (m, (x.weave, x.group) :: blocked)) (m, [])).1

/-- Batches whose wait REL has granted take the next place in ring order (R244 step 1). -/
def Mach.claims (m : Mach) : Mach :=
  m.prep.bst.foldl (fun (m : Mach) e =>
    e.2.batches.foldl (fun (m : Mach) k =>
      if k.q.isSome then m
      else match m.waits.find? fun w => w.who == claimer e.1 k.id && w.granted.isSome with
        | none => m
        | some _ =>
          let x := m.bucket e.1
          let m : Mach := { m with waits := m.waits.filter fun w => w.who != claimer e.1 k.id }
          m.setBucket e.1 { x with
            nextQ := x.nextQ + 1, batches := x.batches.map fun z => if z.id = k.id then { z with q := some x.nextQ } else z }) m) m

/-! ### Rows and parts no longer needed (R239) -/

/-- The first stem row of a port that a part may still include. -/
def Mach.needRow (m : Mach) (p : Nat) : Nat :=
  let b := (m.stem p).cfg.b
  let up := fun l => (l + b - 1) / b
  m.prep.parts.foldl (fun n x => match x.stripe p with
    | some s => if x.wanted then min n (up s.lead) else n
    | none => n) (up (m.seenL p))

/-- Rows are released in order, up to the last that has been reported (R239); what PREP knows of released rows is gone. -/
def Mach.release (m : Mach) (p : Nat) : Mach :=
  let x := m.stem p
  let seen := match x.checking with
    | c :: _ => c.1
    | [] => x.nextRow
  let n := max x.released (min seen (m.needRow p))
  if n = x.released then m
  else
    let m := m.setStem p { x with released := n }
    { m with prep := { m.prep with
        rows := m.prep.rows.filter (fun r => !(6 * r.die + r.port == p && decide (r.row < n))),
        badLines := m.prep.badLines.filter (fun l => !(l.port == p && decide (l.l < n * x.cfg.b))) } }

/-- The state in which a due row's ring place is judged: PREP's releases up to now are made when the place looks held, since R239 makes
them as soon as they are possible. -/
def Mach.ringReady (m : Mach) (p : Nat) : Mach :=
  if (m.stem p).released + (m.stem p).cfg.ringRows ≤ (m.stem p).nextRow then m.sweep.release p else m

/-- STEM_ROW_WRITE: a due row whose turn it is (R184) is written, or dropped where its ring place is held (R182, R183). -/
def stemRowWrite (p : Nat) (m : Mach) : Mach :=
  if !m.stemTurn p then m
  else
    let m := m.ringReady p
    if (m.stem p).released + (m.stem p).cfg.ringRows ≤ (m.stem p).nextRow then m.stemOverrun p
    else m.writeRow p

def execStemRowWrite (die : Fin 2) (port : Fin 6) (s : State) : Host.Outcome State Fault Refusal :=
  done s (stemRowWrite (6 * die + port) s.m)

/-! ### Copying a sample (R234, R240, R243) -/

/-- Flips and shifts of a member (R243). -/
structure Augment where
  fx : Bool
  fy : Bool
  dy : Int
  dx : Int
deriving DecidableEq, Repr

def augment (seed : BitVec 64) (idx e : Nat) (g : GroupCfg) : Augment :=
  if e = 0 then { fx := false, fy := false, dy := 0, dx := 0 }
  else
    let a := fun k => (gen seed idx (128 + e) k).toNat
    let sh := fun v => (((v / 2 ^ 16 * (2 * g.sm + 1)) / 2 ^ 16 : Nat) : Int) - g.sm
    { fx := g.flipx && (a 0).testBit 0, fy := g.flipy && (a 0).testBit 1, dy := sh (a 1), dx := sh (a 2) }

/-- The source element of a place's element, or none outside the sample (R243). -/
def Augment.source (a : Augment) (h w i j : Nat) : Option (Nat × Nat) :=
  let si : Int := (i : Int) - a.dy
  let sj : Int := (j : Int) - a.dx
  let si := if a.fy then ((h : Int) - 1) - si else si
  let sj := if a.fx then ((w : Int) - 1) - sj else sj
  if 0 ≤ si ∧ si < h ∧ 0 ≤ sj ∧ sj < w then some (si.toNat, sj.toNat) else none

/-- The 16 bytes of a pad element in chunk k of c channels: channels beyond the tensor hold 0 (R174). -/
def padElem (padv c k : Nat) : List Byte := (List.range 16).map fun e => if 16 * k + e < c then BitVec.ofNat 8 padv else 0

/-- Granules of a plane: H rows of ⌈W / 4⌉ groups of nk chunks, each of four elements given by row, column and chunk. -/
def planeGranules (h w nk : Nat) (elem : Nat → Nat → Nat → List Byte) : List Slot :=
  (List.range h).flatMap fun i => (List.range ((w + 3) / 4)).flatMap fun g => (List.range nk).map fun k =>
    bytesSlot ((List.range 4).flatMap fun v => elem i (4 * g + v) k)

/-- The plane of a port (R243). -/
def Mach.portPlane (m : Mach) (x : Part) (g : GroupCfg) (c : BucketCfg) (a : Augment) (p : Nat) : List Slot :=
  let st := (m.stem p).cfg
  let rsl := st.rsl (m.portWidth p)
  match x.stripe p with
  | none => []
  | some s =>
    let r0 := (m.stripeRows s).1
    planeGranules c.h c.w st.nk fun i j k =>
      match (if j < c.w then a.source (m.stripeH s) (g.xw.getD p 0) i j else none) with
      | none => padElem c.padv st.co k
      | some (si, sj) =>
        let col := g.x0.getD p 0 + sj
        readBytes m.mem.stack (granAddr st.stack (st.base + (r0 + si) % st.ringRows * rsl + col / 4 * st.nk + k) + 16 * (col % 4)) 16

/-- The reference plane (R240): pixels regrouped space-to-depth as UINT8 codes; pixels beyond the reference hold 0. -/
def Mach.refPlane (x : Part) (b hr wr : Nat) (c : BucketCfg) (a : Augment) : List Slot :=
  planeGranules c.h c.w ((b * b + 15) / 16) fun i j k =>
    match (if j < c.w then a.source ((hr + b - 1) / b) ((wr + b - 1) / b) i j else none) with
    | none => padElem c.padv (b * b) k
    | some (si, sj) => (List.range 16).map fun e =>
      let ch := 16 * k + e
      let row := si * b + ch / b
      let col := sj * b + ch % b
      if ch < b * b ∧ row < hr ∧ col < wr then BitVec.ofNat 8 (x.refPix.getD (row * wr + col) 0) else 0

/-- The reference entry of a part (R240). -/
def Recipe.refOf (r : Recipe) (g : GroupCfg) (x : Part) : Option RefEntry :=
  if g.refsel = 1 then r.refs[g.refidx]? else if g.refsel = 2 then r.refs[x.tag.toNat % r.refs.length]? else none

/-- The planes of a member, in the order of R233. -/
def Mach.memberPlanes (m : Mach) (x : Part) (r : Recipe) (g : GroupCfg) (c : BucketCfg) (e : Nat) : List Slot :=
  let a := augment r.seed x.idx.toNat e g
  (g.list.flatMap fun p => m.portPlane x g c a p) ++
    (match r.refOf g x with
      | some f => Mach.refPlane x (m.stem (g.list.headD 0)).cfg.b f.hr f.wr c a
      | none => [])

/-- The stem granules that a sample needs: of each port, the columns and rows of its stripe (R237). -/
def Mach.copyReads (m : Mach) (x : Part) (g : GroupCfg) : List (Nat × Nat) :=
  x.stripes.flatMap fun s =>
    let st := (m.stem s.port).cfg
    let rsl := st.rsl (m.portWidth s.port)
    let (r0, r1) := m.stripeRows s
    let x0 := g.x0.getD s.port 0
    let lo := x0 / 4
    let hi := (x0 + g.xw.getD s.port 0 - 1) / 4
    (List.range (r1 - r0)).flatMap fun i => (List.range ((hi + 1 - lo) * st.nk)).map fun u =>
      (st.stack, st.base + (r0 + i) % st.ringRows * rsl + lo * st.nk + u)

/-- PREP writes granules: remote writes on their way to a place (R234, R245). -/
def Mach.prepWrites (m : Mach) (stack g : Nat) (owner : WOwner) (l : List Slot) : Mach :=
  { m with flights := m.flights ++ l.mapIdx fun i v =>
      { writer := 0xC002, target := .gran stack (g + i), data := some v, ovr := false, gen := none, issue := m.cyc, due := m.cyc,
        blocked := false, owner := owner } }

/-- A sample may be copied: wanted, its stripes closed and their rows reported, its place claimed, its reference decoded. -/
def Mach.copyable (m : Mach) (x : Part) (g : GroupCfg) (b : Nat) : Option Nat :=
  if m.allClosed x && x.stripes.all m.rowsIn && (g.refsel == 0 || x.ref == .done) then
    match (m.bucket (8 * x.weave + b)).batches.find? fun k => k.id == x.batch with
    | some k => k.q
    | none => none
  else none

/-- What the copy of a part needs: its group, its recipe, its bucket's number and configuration, and the batch place claimed. -/
def Mach.copyPlan (m : Mach) (x : Part) : Option (GroupCfg × Recipe × Nat × BucketCfg × Nat) :=
  match m.groupOf x, m.recipeOf x.weave, x.bucket with
  | some g, some r, some b => match r.buckets.lookup b, m.copyable x g b with
    | some c, some q => some (g, r, b, c, q)
    | _, _ => none
  | _, _, _ => none

/-- The granules of a sample have been read: the planes of every member set out into its place (R243-R245). -/
def Mach.copyOut (m : Mach) (x : Part) (got : List (Nat × Slot)) : Mach :=
  match m.copyPlan x with
  | none => m
  | some (g, r, _, c, q) =>
    let slots := (List.range g.ens).flatMap ((m.seenGrans got).memberPlanes x r g c)
    let sg := slots.length / g.ens
    (m.modAccepted x.idx fun x => { x with copy := .writing slots.length }).prepWrites c.stack
      (c.base + (q % c.nq * m.nbOf x.weave + x.place) * sg) (.sample x.idx) slots

/-- A stem granule that PREP read for a sample arrives: an uncorrectable error is copied as read and sets F3 (R246). -/
def Mach.prepGot (m : Mach) (idx : BitVec 48) (st g : Nat) : Mach :=
  match m.wantedPart idx with
  | none => m
  | some x =>
    let l := m.granErrors st g
    let ev : EvX := { akind := 3, addr := st * 2 ^ 22 + g, info := x.bucket.getD 0, sample := some idx }
    let m := if ceCount l = 0 then m else m.raisePrep 0 ev
    let m := if l.contains .ue then (m.raisePrep 1 ev).modAccepted idx fun x => { x with f3 := true } else m
    match x.copy with
    | .reading left got =>
      let got := got ++ [(st * 2 ^ 22 + g, m.gran st g)]
      if left ≤ 1 then m.copyOut x got else m.modAccepted idx fun x => { x with copy := .reading (left - 1) got }
    | _ => m

/-- The copy of every sample that may be copied begins: its stem granules are asked for, asynchronous requests at their channels (R103). -/
def Mach.startCopies (m : Mach) : Mach :=
  m.prep.parts.foldl (fun (m : Mach) p =>
    match (if p.wanted && p.copy == .none then m.copyPlan p else none) with
    | none => m
    | some (g, _) =>
      let l := m.copyReads p g
      let m : Mach := { m with chanQ := m.chanQ ++ l.map fun a =>
        { stack := a.1, gran := a.2, requester := 0xC002, sched := false, due := m.cyc, read := some (.prep p.idx), write := none } }
      m.modAccepted p.idx fun x => { x with copy := .reading l.length [] }) m

/-- A copy's writes have all passed their check and reached their stack. -/
def Mach.copied (m : Mach) (owner : WOwner) : CopyState → Bool
  | .writing 0 => !m.chanQ.any fun q => q.write.any fun (f : Flight) => f.owner == owner
  | _ => false

/-- t_rows (R245): when the last row of the stripe that closed last was reported. -/
def Mach.tRows (m : Mach) (x : Part) : Option Nat :=
  match x.last with
  | none => none
  | some p => match x.stripe p with
    | none => none
    | some s => m.rowTime p ((m.stripeRows s).2 - 1)

/-- The preparation deadline of a part (R245). -/
def Mach.deadline (m : Mach) (x : Part) : Option Nat :=
  match m.groupOf x, m.tRows x with
  | some g, some t => some (t + g.tSdl)
  | _, _ => none

/-- A sample that missed its deadline is a void: LATE when every stripe has closed, CORRUPT while one is missing. -/
def Mach.missed (m : Mach) (x : Part) : Mach := m.voidPart x (if m.allClosed x then .late else .corrupt)

/-- Samples whose deadline has passed, and those of which a write was dropped, are voids (R245). -/
def Mach.expire (m : Mach) : Mach :=
  m.prep.parts.foldl (fun (m : Mach) p =>
    match (if p.accepted then m.wantedPart p.idx else none) with
    | none => m
    | some x =>
      if x.copy == .dropped then m.voidPart x .corrupt
      else if (m.deadline x).any fun t => decide (t < m.tb1) then m.missed x else m) m

/-! ### The place of a batch image (R234, R460, R461) -/

/-- The group that a bucket serves. -/
def Recipe.groupOfBucket (r : Recipe) (b : Nat) : Option (Nat × GroupCfg) := r.groups.find? fun g => bitAt g.2.bkts b

/-- SG: the granules of a place (R234). -/
def Mach.placeGrans (m : Mach) (r : Recipe) (b : Nat) (c : BucketCfg) : Nat :=
  let plane := fun (nk : Nat) => c.h * ((c.w + 3) / 4) * nk
  match r.groupOfBucket b with
  | none => 0
  | some (_, g) =>
    let f := (m.stem (g.list.headD 0)).cfg.b
    (g.list.map fun p => plane (m.stem p).cfg.nk).foldl (· + ·) 0 + (if g.refsel = 0 then 0 else plane ((f * f + 15) / 16))

/-- The length of a batch image. -/
def imageLen (nb sg : Nat) : Nat := 64 + 64 * nb + 64 * nb * sg

/-- The injected batches that have claimed their place are copied into it (R461). -/
def Mach.startImages (m : Mach) : Mach :=
  m.prep.bst.foldl (fun (m : Mach) e =>
    e.2.batches.foldl (fun (m : Mach) k =>
      match (if k.copy == .none then k.image else none), k.q, m.recipeOf (e.1 / 8) with
      | some off, some q, some r => match r.buckets.lookup (e.1 % 8) with
        | none => m
        | some c =>
          let nb := m.nbOf (e.1 / 8)
          let sg := m.placeGrans r (e.1 % 8) c
          let m := m.readHost (off + 64 + 64 * nb) (64 * nb * sg)
          let img := m.hostBytes off (imageLen nb sg)
          let l := (List.range (nb * sg)).map fun i => bytesSlot (slice img (64 + 64 * (nb + i)) 64)
          let x := m.bucket e.1
          (m.setBucket e.1 { x with batches := x.batches.map fun z => if z.id = k.id then { z with copy := .writing l.length } else z }).prepWrites
            c.stack (c.base + q % c.nq * nb * sg) (.image e.1 k.id) l
      | _, _, _ => m) m) m

/-! ### What PREP does whenever it works -/

/-- The TB1 at which a batch closes at the latest (R244 step 3). -/
def Mach.closeAt (m : Mach) (serial b : Nat) (k : Batch) : Option Nat :=
  match m.recipeOf serial with
  | none => none
  | some r => (r.buckets.lookup b).map fun c => k.tOpen + c.tClose

/-- A batch is closed. -/
def Mach.closeBatch (m : Mach) (key id : Nat) : Mach :=
  let x := m.bucket key
  m.setBucket key { x with batches := x.batches.map fun z => if z.id = id then { z with closed := true } else z }

/-- Open batches whose closing time has passed are closed. -/
def Mach.closeOld (m : Mach) : Mach :=
  m.prep.bst.foldl (fun (m : Mach) e => e.2.batches.foldl (fun (m : Mach) k =>
    if !k.closed && (m.closeAt (e.1 / 8) (e.1 % 8) k).any fun t => decide (t < m.tb1) then m.closeBatch e.1 k.id else m) m) m

/-- A part that nothing needs any more: its stripes closed, its record written, its batch handed over. -/
def Mach.spent (m : Mach) (x : Part) : Bool :=
  m.allClosed x && (!x.accepted || (x.done && !x.wanted && (match x.bucket with
    | none => false
    | some b => !(m.bucket (8 * x.weave + b)).batches.any fun k => k.samples.contains x.idx)))

/-- What PREP does whenever it works: stripes that are too long close, deadlines and closing times pass, parts are assigned, places claimed, copies begun,
rows released. -/
def Mach.pump (m : Mach) : Mach :=
  let m := m.sweep.expire.closeOld.assignAll.claims.startCopies.startImages
  let m := (List.range 12).foldl Mach.release m
  ({ m with prep := { m.prep with parts := m.prep.parts.filter fun x => !m.spent x } } : Mach).lowCheck

/-- A write of PREP's that the window check has dropped makes its sample a void at once (R245). -/
def Mach.prepDrops (m : Mach) : Mach := if m.prep.parts.any (fun x => x.copy == .dropped) then m.pump else m

/-! ### Markers (R235, R236, R388) -/

/-- A new part at its principal leading marker: accepted, or out of the lot, or inside a drain window with its SWAP record. -/
def Mach.openPart (m : Mach) (k : Marker) (group serial : Nat) : Mach :=
  let lot := m.hif.lot
  let takes := (lot.isOpen || lot.ending.isSome) && !m.bit rFltRplCtl 0 && (m.wv.running.any (fun w => w.started) || m.inDrain k.pos) && (match lot.ending with
    | some e => decide (diff32 k.pos e.1 < 0)
    | none => true)
  let x : Part :=
    { idx := m.prep.nextIdx, accepted := false, group := group, pt := k.pos, tag := k.tag,
      stripes := [{ port := k.port, lead := k.l, trail := none, t := 0 }], last := none, tl := none, bucket := none, batch := 0, place := 0,
      void := none, f3 := false, ovs := false, ref := .none, refPix := [], copy := .none, ready := false, done := true, weave := serial }
  let add := fun (m : Mach) (x : Part) => ({ m with prep := { m.prep with parts := m.prep.parts ++ [x] } } : Mach)
  if !takes || m.prep.idxEnd then (add m { x with idx := BitVec.allOnes 48 }).inc rHifCntNolot
  else if m.prep.nextIdx = BitVec.allOnes 48 then
    ((add { m with prep := { m.prep with idxEnd := true } } { x with idx := BitVec.allOnes 48 }).inc rHifCntNolot).raisePrep 10
  else
    let m : Mach := { m with
      prep := { m.prep with nextIdx := m.prep.nextIdx + 1 }, flt := { m.flt with vouted := m.flt.vouted.erase x.idx } }
    if m.inDrain k.pos then (add m x).commitRecord x Ballot.none .swap
    else
      let m : Mach := { m with hif := { m.hif with lot := { lot with accepted := lot.accepted + 1 } } }
      add m { x with accepted := true, done := false, ovs := if m.baseOf serial then k.ovs4 else k.ovs3 }

/-- The first part that satisfies a condition, by its place. -/
def Mach.findPart (m : Mach) (f : Part → Bool) : Option Nat := m.prep.parts.findIdx? f

/-- The group of a recipe that takes a marker: its port, from the source that the group uses. -/
def Recipe.groupFor (r : Recipe) (k : Marker) : Option (Nat × GroupCfg) := r.groups.find? fun g => g.2.has k.port && g.2.pmark == k.pmark

/-- A marker of a group's principal port. -/
def Mach.principalMarker (m : Mach) (k : Marker) (group serial : Nat) : Mach :=
  let cur := m.findPart fun x => x.isOpen k.port && m.partHas x k.port
  if k.trail then
    match cur with
    | some i => m.closeStripe i k.port k.l k.t false
    | none => m.raisePrep 6
  else
    let m := match cur with
      | some i => (m.raisePrep 6).closeStripe i k.port k.l k.t true
      | none => m
    m.openPart k group serial

/-- A marker of another port of a group: it opens that port's stripe for the oldest part without one, or closes it. -/
def Mach.otherMarker (m : Mach) (k : Marker) : Mach :=
  if k.trail then
    match m.findPart fun x => x.isOpen k.port && m.partHas x k.port with
    | some i => m.closeStripe i k.port k.l k.t false
    | none => m.raisePrep 6
  else
    match m.findPart fun x => (x.stripe k.port).isNone && m.partHas x k.port with
    | none => m.raisePrep 6
    | some i => match m.prep.parts[i]? with
      | none => m
      | some x => m.setPart i { x with stripes := x.stripes ++ [{ port := k.port, lead := k.l, trail := none, t := 0 }] }

/-- A leading marker processed after a late load fixes the switch position of a side-by-side swap (R487 step 2). -/
def Mach.lateSwitch (m : Mach) (k : Marker) : Mach :=
  match m.wv.cmd, m.wv.running.getLast? with
  | some c, some v =>
    if !k.trail ∧ c.phase = .loaded ∧ c.late ∧ !c.drain ∧ v.since.isNone ∧ 2 ≤ m.wv.running.length then
      { m with wv := { m.wv with running := m.wv.running.dropLast ++ [{ v with since := some k.pos }] } }
    else m
  | _, _ => m

/-- The drain window is over once a leading marker lies at or beyond the resumption position (R258). -/
def Mach.drainPassed (m : Mach) (k : Marker) : Mach :=
  match m.wv.drain with
  | some (_, some r) => if !k.trail ∧ 0 ≤ diff32 k.pos r then { m with wv := { m.wv with drain := none } } else m
  | _ => m

/-- MARKER_RECORD: PREP processes the oldest waiting marker; markers of a port without a group are ignored. -/
def markerRecord (m : Mach) : Mach :=
  match m.prep.markers with
  | [] => m
  | k :: rest =>
    let m := m.sweep
    let m := ({ m with prep := { m.prep with markers := rest } }.lateSwitch k).drainPassed k
    let serial := m.weaveFor k.pos
    let m := match m.recipeOf serial with
      | none => m
      | some r => match r.groupFor k with
        | none => m
        | some (g, cfg) => if cfg.principal k.port then m.principalMarker k g serial else m.otherMarker k
    m.pump

def execMarkerRecord (s : State) : Host.Outcome State Fault Refusal := done s (markerRecord s.m)

/-! ### Ready or late (R245) -/

/-- SAMPLE_READY: the planes of every member have been written into the claimed place and checked. -/
def sampleReady (idx : BitVec 48) (m : Mach) : Mach :=
  let m := m.pump.judge idx
  match m.wantedPart idx with
  | none => m.pump
  | some x => if m.copied (.sample idx) x.copy then (m.modAccepted idx fun x => { x with ready := true }).pump else m

def execSampleReady (idx : BitVec 48) (s : State) : Host.Outcome State Fault Refusal := done s (sampleReady idx s.m)

/-- PREP_DEADLINE: the sample's deadline, t_rows + T_SDL, has come (R245). -/
def prepDeadline (idx : BitVec 48) (m : Mach) : Mach :=
  let m := m.pump.judge idx
  match m.wantedPart idx with
  | none => m.pump
  | some x => if (m.deadline x).any fun t => decide (t ≤ m.tb1) then (m.missed x).pump else m

def execPrepDeadline (idx : BitVec 48) (s : State) : Host.Outcome State Fault Refusal := done s (prepDeadline idx s.m)

/-! ### Reference decoders (R240) -/

/-- The die of a part's principal port. -/
def Mach.refDie (m : Mach) (x : Part) : Nat :=
  match m.groupOf x with
  | some g => g.list.headD 0 / 6
  | none => 0

/-- REF_DECODE_START: a free decoder takes the waiting reference of the lowest index. -/
def refDecodeStart (d : Nat) (m : Mach) : Mach :=
  let m := m.pump
  if (m.prep.decoding.lookup d).isSome ∨ !m.variant.hasDie d then m
  else match m.prep.parts.find? fun x => x.wanted && x.ref == .wait && m.refDie x == d with
    | none => m
    | some x =>
      let m := m.modAccepted x.idx fun x => { x with ref := .decoding }
      { m with prep := { m.prep with decoding := (d, x.idx) :: m.prep.decoding } }

def execRefDecodeStart (die : Fin 2) (s : State) : Host.Outcome State Fault Refusal := done s (refDecodeStart die s.m)

/-- The reference table's stream lies in the persistent region of the resident context (R405). -/
def Mach.refReachable (m : Mach) (f : RefEntry) : Bool :=
  match m.sec.resident with
  | none => false
  | some c => match m.sec.ctxs.lookup c with
    | none => false
    | some x => decide (x.pbase ≤ f.addr) && decide (f.addr + f.len ≤ x.pbase + x.psize)

/-- The decoded pixels of an entry, when its stream meets R240. -/
def Mach.decodeRef (m : Mach) (f : RefEntry) (b : Nat) (c : BucketCfg) : Option (List Nat) :=
  if !m.refReachable f ∨ b * c.h < f.hr ∨ b * c.w < f.wr then none
  else match jpegLsDecode (m.ddrBytes f.addr f.len) with
    | some (h, w, px) => if h = f.hr ∧ w = f.wr ∧ px.length = h * w ∧ px.all (fun v => decide (v < 256)) then some px else none
    | none => none

/-- Errors that a decoder's reads meet, 64 bytes at a time (R246). -/
def Mach.refErrors (m : Mach) (x : Part) (f : RefEntry) : Mach :=
  (List.range ((f.addr + f.len + 63) / 64 - f.addr / 64)).foldl (fun (m : Mach) i =>
    let a := (f.addr / 64 + i) * 64
    let l := m.ddrErrors a
    let m := m.ddrRead a 0xC002
    let ev : EvX := { akind := 4, addr := a, info := x.bucket.getD 0, sample := some x.idx }
    let m := if ceCount l = 0 then m else m.raisePrep 0 ev
    if l.contains .ue then (m.raisePrep 1 ev).modAccepted x.idx fun x => { x with f3 := true } else m) m

/-- REF_DECODE_DONE: the decode ends; a stream that breaks R240 makes the part a void, CORRUPT. -/
def refDecodeDone (d : Nat) (m : Mach) : Mach :=
  match m.prep.decoding.lookup d with
  | none => m
  | some idx =>
    let m : Mach := { m with prep := { m.prep with decoding := m.prep.decoding.filter fun p => p.1 != d } }
    match m.wantedPart idx with
    | none => m.pump
    | some x => match m.groupOf x, m.recipeOf x.weave, x.bucket with
      | some g, some r, some b => match r.refOf g x, r.buckets.lookup b with
        | some f, some c =>
          let px := m.decodeRef f (m.stem (g.list.headD 0)).cfg.b c
          let m := if m.refReachable f then m.refErrors x f else m
          (match px with
            | some px => m.modAccepted idx fun x => { x with ref := .done, refPix := px }
            | none => (m.raisePrep 7 { sample := some idx }).voidPart x .corrupt).pump
        | _, _ => ((m.raisePrep 7 { sample := some idx }).voidPart x .corrupt).pump
      | _, _, _ => m

def execRefDecodeDone (die : Fin 2) (s : State) : Host.Outcome State Fault Refusal := done s (refDecodeDone die s.m)

/-! ### Closing and handing over a batch (R242, R244) -/

/-- The running weave, oldest first, whose bucket b has a batch that satisfies a condition at its front. -/
def Mach.bucketWith (m : Mach) (b : Nat) (f : Nat → Batch → Bool) : Option (RunWeave × Batch) :=
  m.wv.running.findSome? fun w => match (m.bucket (8 * w.serial + b)).batches.find? (f w.serial) with
    | some k => some (w, k)
    | none => none

/-- BATCH_CLOSE_TIMEOUT: the open batch closes at t_open + T_CLOSE; its unassigned places become PAD. -/
def batchCloseTimeout (b : Nat) (m : Mach) : Mach :=
  let m := m.pump
  match m.bucketWith b fun s k => !k.closed && (m.closeAt s b k).any fun t => decide (t ≤ m.tb1) with
  | none => m
  | some (w, k) => m.closeBatch (8 * w.serial + b) k.id

def execBatchCloseTimeout (b : Fin 8) (s : State) : Host.Outcome State Fault Refusal := done s (batchCloseTimeout b s.m)

/-- The accepted part of an index. -/
def Mach.acceptedPart (m : Mach) (idx : BitVec 48) : Option Part := m.prep.parts.find? fun x => x.idx == idx && x.accepted

/-- The flags of a member's descriptor (R242). -/
def memberFlags (g : GroupCfg) (x : Part) (e : Nat) : Nat :=
  b2n x.void.isSome + 8 * b2n x.f3 + 16 * b2n (x.ref == .done) + 2 ^ 8 * bits g.rfa 4 0
    + 2 ^ 13 * (if 1 < g.ens then e else bits g.rfa 7 5)

/-- A sample descriptor (R66). -/
def descSlot (idx flags : Nat) : Slot := bytesSlot (leBytes 6 idx ++ leBytes 2 flags)

/-- A closed batch whose place is claimed and whose samples are all ready or void; the image of an injected one has been copied. -/
def Mach.batchDone (m : Mach) (key : Nat) (k : Batch) : Bool :=
  k.closed && k.q.isSome && (k.image.isNone || k.copy == .dropped || m.copied (.image key k.id) k.copy) && k.samples.all fun i => match m.acceptedPart i with
    | some x => x.ready || x.void.isSome
    | none => true

/-- The descriptors of a batch in place order, PAD places last (R242). -/
def Mach.batchDescs (m : Mach) (k : Batch) (nb : Nat) : List Slot × Nat :=
  let ds := k.samples.flatMap fun i => match m.acceptedPart i with
    | none => []
    | some x => match m.groupOf x with
      | none => []
      | some g => (List.range g.ens).map fun e => descSlot i.toNat (memberFlags g x e)
  (ds ++ List.replicate (nb - ds.length) (descSlot (2 ^ 48 - 1) 2), nb - ds.length)

/-! ### Batch images: capture and injection (R460, R461) -/

/-- The header of a batch image (R460). -/
def imageHeader (b nb len : Nat) : List Byte := ascii "LI9A" ++ leBytes 1 b ++ [0#8] ++ leBytes 2 nb ++ leBytes 4 len ++ zeros 52

/-- A batch that is handed over while a batch capture runs for its bucket is written as an image; the capture ends with the last batch, or
when an image would leave the host region (R460). -/
def Mach.captureBatch (m : Mach) (b nb sg q : Nat) (c : BucketCfg) (ds : List Slot) : Mach :=
  match m.flt.bcap with
  | none => m
  | some (bk, left, off) =>
    let len := imageLen nb sg
    if bk ≠ b then m
    else if !m.inHost off len then { m with flt := { m.flt with bcap := none } }
    else
      let data := readBytes m.mem.stack (granAddr c.stack (c.base + q % c.nq * nb * sg)) (64 * nb * sg)
      let m := m.setHostBytes off (imageHeader b nb len ++ ds.flatMap slotBytes ++ data)
      let m : Mach := { m with flt := { m.flt with bcap := if left ≤ 1 then none else some (bk, left - 1, off + len) } }
      m.setReg rFltBcapDone (m.reg rFltBcapDone + 1)

/-- The descriptors of an injected batch, whose samples are expected from then on (R461). -/
def Mach.expectImage (m : Mach) (serial b nb off : Nat) (r : Recipe) : Mach × List Slot :=
  let m := m.readHost (off + 64) (64 * nb)
  let ds := (List.range nb).map fun k => bytesSlot (m.hostBytes (off + 64 + 64 * k) 64)
  let group := ((r.groupOfBucket b).map (·.1)).getD 0
  let idxs := ((ds.filter fun d => !d.getLsbD 49).map fun d => (d.setWidth 48 : BitVec 48)).eraseDups
  let new : List Injected := idxs.map fun i => { idx := i, weave := serial, group := group }
  let m : Mach := { m with
    prep := { m.prep with injected := (m.prep.injected.filter fun x => !idxs.contains x.idx) ++ new },
    flt := { m.flt with vouted := m.flt.vouted.filter fun i => !idxs.contains i } }
  ((m.putBit rFltRplStat 31 false).setFld rFltRplStat 2 0 0, ds)

/-- BATCH_HANDOVER: the oldest batch of the bucket, once done, is handed over: descriptors, RDY, counters (R244 step 4). -/
def batchHandover (b : Nat) (m : Mach) : Mach :=
  let m := m.pump
  match m.bucketWith b fun s k => m.batchDone (8 * s + b) k && (m.bucket (8 * s + b)).batches.head? == some k with
  | none => m
  | some (w, k) => match w.recipe with
    | none => m
    | some r => match r.buckets.lookup b with
      | none => m
      | some c =>
        let key := 8 * w.serial + b
        let x := m.bucket key
        let id : BitVec 16 := 0xC002
        let sg := m.placeGrans r b c
        let q := k.q.getD 0
        let (m, ds, pads) := match k.image with
          | some off =>
            let (m, ds) := m.expectImage w.serial b w.hdr.nb off r
            (m, ds, 0)
          | none =>
            let (ds, pads) := m.batchDescs k w.hdr.nb
            (m, ds, pads)
        let fl := ds.mapIdx fun i v =>
          ({ writer := id, target := .slot c.dtile ((c.dslot + (x.dpos + i) % c.drl) % 8192), data := some v, ovr := false, gen := none,
             issue := m.cyc, due := m.cyc, blocked := false, owner := .prep b k.id } : Flight)
        let m := { m with flights := m.flights ++ fl }.setBucket key { x with
          batches := x.batches.filter (fun z => z.id != k.id), handed := x.handed + 1, dpos := x.dpos + ds.length }
        let m := if c.rdy = 0xFFFF then m else m.sendSignal c.rdy 1 id
        let m := m.setReg (rPrepBktBatches b) (m.reg (rPrepBktBatches b) + 1)
        ((m.addReg rPrepPads pads).captureBatch b w.hdr.nb sg q c ds).pump

def execBatchHandover (b : Fin 8) (s : State) : Host.Outcome State Fault Refusal := done s (batchHandover b s.m)

end Sys2Proof.Machine
end

