-- ==== Sys2Proof/Machine/Admit.lean ====
section
/-! DEFINITION. The recipe image (R387), the schedule contract's numbers and report (R167-R173), and the checks of stages D and E of a
load (R184, R215, R232, R233, R248, R297, R405, R484, R486). -/
namespace Sys2Proof.Machine

/-- A quotient rounded up. -/
def ceilDiv (a b : Nat) : Nat := (a + b - 1) / b

/-! ### From cycles to counts (R167-R172) -/

/-- t7: the time-bound part in sevenths of a ns (R169); T_OUT is 1 000 ns (R168). -/
def t7Of (h : WeaveHdr) (tPrep : Nat) : Nat := 5 * (h.w + h.ib) + 7 * (tPrep + h.tagg + 1000)
/-- N_TIME (R169). -/
def nTime (t7 v : Nat) : Nat := ceilDiv (t7 * v) (7 * 10 ^ 9)
/-- M, the backstop margin (R169); T_BK is 2 000 ns (R168). -/
def marginOf (v : Nat) : Nat := ceilDiv (2000 * v) (10 ^ 9) + 1
/-- N_REQ (R169). -/
def nReq (cClose t7 v : Nat) : Nat := cClose + nTime t7 v + marginOf v

/-- RESULT of the contract report: the first check of R170 that fails (R172). -/
def admitCode (h : WeaveHdr) (budgets : Bool) (r : Recipe) : Nat :=
  if r.d < 1 ∨ 2 ^ 30 < r.d then 1
  else if r.vMax < 1 ∨ 50000000 < r.vMax then 2
  else if h.w < 1 ∨ h.ib < 1 ∨ h.nb < 1 ∨ r.pMin < 1 then 3
  else if !budgets then 4
  else if r.d < nReq r.cClose (t7Of h r.tPrep) r.vMax then 5
  else if 7 * 10 ^ 9 * r.pMin * h.nb < 5 * h.ib * r.vMax then 6
  else 0

/-- The largest number up to hi that satisfies a condition that holds at lo and fails from some number on. -/
def lastTrue (ok : Nat → Bool) : Nat → Nat → Nat → Nat
  | 0, lo, _ => lo
  | n + 1, lo, hi =>
    if hi ≤ lo then lo
    else
      let mid := (lo + hi + 1) / 2
      if ok mid then lastTrue ok n mid hi else lastTrue ok n lo (mid - 1)

/-- V_ADM (R171). -/
def vAdm (h : WeaveHdr) (r : Recipe) : Nat :=
  let ok := fun v => decide (nReq r.cClose (t7Of h r.tPrep) v ≤ r.d) && decide (5 * h.ib * v ≤ 7 * 10 ^ 9 * r.pMin * h.nb)
  if ok 1 then lastTrue ok 26 1 50000000 else 0

/-- The contract report (R171): the numbers that the first failing check prevents read 0. A number wider than its
32-bit field reads 0xFFFFFFFF, DESIGN CHOICE (log 140). -/
def contractReport (h : WeaveHdr) (budgets : Bool) (r : Recipe) : List Byte :=
  let code := admitCode h budgets r
  let t7 := t7Of h r.tPrep
  let num := fun (n : Nat) => leBytes 4 (if code = 0 ∨ 4 < code then min n 0xFFFFFFFF else 0)
  leBytes 1 code ++ zeros 3 ++ leBytes 4 r.d ++ leBytes 4 r.cClose ++ num (nReq r.cClose t7 r.vMax) ++ num (nTime t7 r.vMax)
    ++ num (marginOf r.vMax) ++ leBytes 4 r.vMax ++ num (vAdm h r) ++ leBytes 4 h.w ++ leBytes 4 h.ib ++ leBytes 4 r.tPrep
    ++ leBytes 4 h.tagg ++ leBytes 2 h.nb ++ zeros 2 ++ leBytes 4 r.pMin ++ zeros 8

/-- No stage has BUDGET = 0 (R157). -/
def Weave.budgets (w : Weave) : Bool := (w.bodies 1).all fun b => fieldAt b 16 4 % 2 ^ 24 != 0

/-! ### The recipe image (R387) -/

/-- A GROUP body. -/
def groupOfBody (b : List Byte) : Nat × GroupCfg :=
  (fieldAt b 0 1,
   { ports := BitVec.ofNat 16 (fieldAt b 2 2), pmark := fieldAt b 1 1 == 1, x0 := (List.range 12).map fun p => fieldAt b (24 + 4 * p) 2,
     xw := (List.range 12).map fun p => fieldAt b (26 + 4 * p) 2, maxlen := fieldAt b 4 4, bkts := BitVec.ofNat 8 (fieldAt b 8 1),
     refsel := fieldAt b 9 1, refidx := fieldAt b 10 1, ens := fieldAt b 11 1, sm := fieldAt b 12 1, flipx := (fieldAt b 13 1).testBit 0,
     flipy := (fieldAt b 13 1).testBit 1, rfa := BitVec.ofNat 8 (fieldAt b 14 1), tSdl := fieldAt b 16 4, result := fieldAt b 20 2 })

/-- A BUCKET body. -/
def bucketOfBody (b : List Byte) : Nat × BucketCfg :=
  (fieldAt b 0 1,
   { whole := fieldAt b 1 1 == 1, h := fieldAt b 2 2, w := fieldAt b 4 2, nq := fieldAt b 6 1, stack := fieldAt b 7 1, base := fieldAt b 8 4,
     dtile := fieldAt b 12 2, dslot := fieldAt b 14 2, drl := fieldAt b 16 2, rel := fieldAt b 18 2, rdy := fieldAt b 20 2,
     tClose := fieldAt b 24 4, padv := fieldAt b 22 1, low := fieldAt b 23 1 })

/-- A SPOUT_RULE body. -/
def ruleOfBody (b : List Byte) : Nat × SpoutRule :=
  (fieldAt b 0 1,
   { cond := fieldAt b 1 1 % 8, wunit := (fieldAt b 1 1).testBit 3, doneq := fieldAt b 2 2, offset := (fieldAt b 4 4 : Nat),
     mask := BitVec.ofNat 24 (fieldAt b 8 4), width := fieldAt b 12 4 })

/-- A reference table entry. -/
def refOfBytes (b : List Byte) : RefEntry := { addr := fieldAt b 0 8, len := fieldAt b 8 4, hr := fieldAt b 12 2, wr := fieldAt b 14 2 }

/-- The length of a section body and its numbers, codes and zero bytes are right (R387). -/
def recipeBodyOk (ty : Nat) (b : List Byte) : Bool :=
  match ty with
  | 1 => b.length == 24 && decide (fieldAt b 0 1 ≤ 1) && fieldAt b 1 3 == 0
  | 2 => b.length == 48
  | 3 => b.length == 72 && fieldAt b 15 1 == 0 && fieldAt b 22 2 == 0 && decide (fieldAt b 0 1 < 4) && decide (fieldAt b 13 1 ≤ 3)
  | 4 => b.length == 28 && decide (fieldAt b 0 1 < 8)
  | 5 => b.length == 16 && decide (fieldAt b 1 1 < 16) && fieldAt b 11 1 == 0 && decide (fieldAt b 0 1 < 8)
  | 6 => b.length == 16 && decide (1 ≤ fieldAt b 8 2) && decide (fieldAt b 8 2 ≤ 256) && fieldAt b 10 6 == 0
  | 7 => true
  | _ => false

/-- The sections of a type. -/
def ofType (secs : List (Nat × List Byte)) (ty : Nat) : List (List Byte) := (secs.filter fun s => s.1 == ty).map fun s => s.2

/-- How many sections of a type a recipe image may hold (R387). -/
def recipeMost (ty : Nat) : Nat :=
  match ty with
  | 3 => 4
  | 4 => 8
  | 5 => 8
  | _ => 1

/-- The number of the first section with a reserved TYPE, a wrong length, one too many of its type, or a group, bucket or rule number
that an earlier one has (R387). -/
def recipeBad : Nat → List (Nat × List Byte) → List (Nat × List Byte) → Option Nat
  | _, _, [] => none
  | i, seen, s :: rest =>
    let same := ofType seen s.1
    if recipeBodyOk s.1 s.2 && decide (same.length < recipeMost s.1)
        && !((s.1 == 3 || s.1 == 4 || s.1 == 5) && same.any fun b => fieldAt b 0 1 == fieldAt s.2 0 1)
      then recipeBad (i + 1) (seen ++ [s]) rest
    else some i

/-- The layout of a recipe image; the number of the section at fault otherwise, 0 for the header or a section that is missing (R387). -/
def recipeSections (b : List Byte) : Except Nat (List (Nat × List Byte)) :=
  if b.length < 32 ∨ fieldAt b 0 1 ≠ 1 ∨ fieldAt b 1 1 ≠ 0 ∨ fieldAt b 4 4 ≠ b.length ∨ fieldAt b 16 16 ≠ 0 then .error 0
  else match sections (fieldAt b 2 2) 0 (b.drop 32) with
    | .error e => .error e
    | .ok secs =>
      match recipeBad 0 [] secs with
      | some i => .error i
      | none => if [1, 2, 3, 4].all fun ty => !(ofType secs ty).isEmpty then .ok secs else .error 0

/-- The reference entries of a REFTABLE body, read from DDR4. -/
def Mach.refTable (m : Mach) (b : List Byte) : List RefEntry :=
  (List.range (fieldAt b 8 2)).map fun i => refOfBytes (m.ddrBytes (fieldAt b 0 8 + 16 * i) 16)

/-- The recipe of an image whose sections are these. -/
def Mach.recipeOfSections (m : Mach) (img : List Byte) (secs : List (Nat × List Byte)) : Recipe :=
  let c := (ofType secs 1).headD []
  let byNum := fun {α : Type} (l : List (Nat × α)) => sortBy (fun a b => decide (a.1 ≤ b.1)) l
  { seed := BitVec.ofNat 64 (fieldAt img 8 8), tb4 := fieldAt c 0 1 == 1, d := fieldAt c 4 4, cClose := fieldAt c 8 4, vMax := fieldAt c 12 4,
    pMin := fieldAt c 16 4, tPrep := fieldAt c 20 4, rates := (List.range 12).map fun p => fieldAt ((ofType secs 2).headD []) (4 * p) 4,
    groups := byNum ((ofType secs 3).map groupOfBody), buckets := byNum ((ofType secs 4).map bucketOfBody),
    rules := byNum ((ofType secs 5).map ruleOfBody),
    refs := match (ofType secs 6).head? with
      | some b => m.refTable b
      | none => [],
    params := (ofType secs 7).headD [], digest := sha img, secNos := secs.map fun s => (s.1, if s.1 < 3 ∨ 5 < s.1 then 0 else fieldAt s.2 0 1) }

/-! ### Rates (R184, R215, R248) -/

/-- T_ROW of a port in cy(IOCORE) (R184); 0 for a port without stem. -/
def Mach.tRow (m : Mach) (c : StemCfg) (p : Nat) : Nat :=
  if c.en then 64 + ceilDiv (c.wo (m.portWidth p) * c.b * c.b * c.kh * c.kw * c.co) 4096 else 0
/-- The sum over the enabled ports of an intake block. -/
def Mach.tRows2 (m : Mach) (w : Weave) (d : Nat) : Nat := ((List.range 6).map fun p => m.tRow (w.stem (6 * d + p)) (6 * d + p)).foldl (· + ·) 0
/-- T_STEM of an intake block in ns (R248). -/
def Mach.tStem (m : Mach) (w : Weave) (d : Nat) : Nat := ceilDiv (5 * m.tRows2 w d) 6 + 2000

/-- R184 check 2: DETAIL the port. -/
def Mach.stemRateErr (m : Mach) (w : Weave) (r : Recipe) : Option LoadErr :=
  firstErr ((List.range 12).map fun p =>
    mustBe 0xD 9 p 0 (!(w.stem p).en || decide (r.rates.getD p 0 * m.tRows2 w (p / 6) ≤ 1200000000 * (w.stem p).b)))

/-- Blocks of a packet of n octets, n at least 7. -/
def blocksOf (n : Nat) : Nat := 2 + (n - 7) / 8

/-- R215: DETAIL the port, or the port with which the sum passes the bound (log 29). -/
def Mach.portRateErr (m : Mach) (r : Recipe) : Option LoadErr :=
  firstErr (((List.range 12).map fun p =>
      mustBe 0xD 0xC p 0 (!m.portEn p
        || decide (8 * (blocksOf (m.portWc p + 6) + 4) * r.rates.getD p 0 ≤ m.portLanes p * 3120000000))) ++
    (List.range 2).map fun d =>
      (passedAt 16000000000 ((List.range 6).map fun p =>
        if m.portEn (6 * d + p) then m.portWidth (6 * d + p) * r.rates.getD (6 * d + p) 0 else 0)).map fun p => ⟨0xC, 0xD, 6 * d + p, 0⟩)

/-! ### Groups and buckets (R232-R234, R240, R248) -/

/-- Granules of a plane of a place (R234). -/
def planeSize (c : BucketCfg) (nk : Nat) : Nat := c.h * ((c.w + 3) / 4) * nk
/-- SG: granules of a place (R234). -/
def placeSize (w : Weave) (g : GroupCfg) (c : BucketCfg) : Nat :=
  let b := (w.stem (g.list.headD 0)).b
  (g.list.map fun p => planeSize c (w.stem p).nk).foldl (· + ·) 0 + (if g.refsel = 0 then 0 else planeSize c ((b * b + 15) / 16))

/-- R232 and R240 for a group. -/
def Mach.groupOk (m : Mach) (w : Weave) (r : Recipe) (n : Nat) (g : GroupCfg) : Bool :=
  decide (n < 4) && decide (g.ports.toNat < 4096) && !g.list.isEmpty && g.list.all (fun p => (w.stem p).en && decide (1 ≤ g.xw.getD p 0) && decide (g.xw.getD p 0 ≤ 4096)
      && decide (g.x0.getD p 0 + g.xw.getD p 0 ≤ (w.stem p).wo (m.portWidth p)))
    && decide (1 ≤ g.maxlen) && decide (g.maxlen ≤ 65536) && decide (g.refsel ≤ 2) && decide (1 ≤ g.ens) && decide (g.ens ≤ 8)
    && decide (g.sm ≤ 15) && decide (1000 ≤ g.tSdl) && decide (g.tSdl ≤ 100000000) && (g.refsel != 2 || g.pmark)
    && (g.refsel == 0 || !r.refs.isEmpty) && (g.refsel != 1 || decide (g.refidx < r.refs.length))
    && (List.range 8).all fun b => !bitAt g.bkts b || (r.buckets.lookup b).isSome

/-- A cistern lies in a stack window whose writers include PREP (R234). -/
def Weave.cisternOk (w : Weave) (c : BucketCfg) (granules : Nat) : Bool :=
  (windowsOf (w.bodies 1)).any fun x => x.2.2.kind && x.2.2.stack == c.stack && decide (x.2.2.base ≤ c.base)
    && decide (c.base + granules ≤ x.2.2.limit + 1) && x.2.2.writers.contains 0xC002

/-- The ranges of R233 for a bucket; its entry stage is one of the weave's. -/
def Mach.bucketOk (m : Mach) (w : Weave) (b : Nat) (c : BucketCfg) : Bool :=
  decide (b < 8) && m.variant.hasStack c.stack
    && (if c.whole then decide (1 ≤ c.h) && decide (c.h ≤ 4096) && decide (1 ≤ c.w) && decide (c.w ≤ 4096) && c.w % 4 == 0
        else c.h == c.w && (c.h == 64 || c.h == 128 || c.h == 256 || c.h == 512))
    && decide (2 ≤ c.nq) && decide (c.nq ≤ 16) && decide (c.dtile < 576) && w.hdr.tiles.getLsbD c.dtile && decide (c.dslot < 8192) && decide (1 ≤ c.drl) && decide (c.drl ≤ 8192)
    && w.hdr.owns c.rel && (c.rdy == 0xFFFF || w.hdr.owns c.rdy) && decide (1000 ≤ c.tClose) && decide (c.tClose ≤ 100000000)
    && decide (c.low ≤ 16)

/-- R248 for a bucket of a group. -/
def Mach.prepTimeOk (m : Mach) (w : Weave) (r : Recipe) (g : GroupCfg) (c : BucketCfg) : Bool :=
  let tDesc := 2000 + 16 * (w.hdr.nb - 64)
  let tStem := (g.list.map fun p => m.tStem w (p / 6)).foldl max 0
  decide (tStem + c.tClose + g.tSdl + tDesc ≤ r.tPrep) && decide (ceilDiv (5 * w.hdr.ib) 7 ≤ c.tClose) && w.hdr.nb % g.ens == 0

/-- MSRC of every group and KIND of every bucket is 0 or 1 (R232, R233). -/
def recipeCodesOk (secs : List (Nat × List Byte)) : Bool := (ofType secs 3 ++ ofType secs 4).all fun b => decide (fieldAt b 1 1 ≤ 1)

/-- R248 with R232, R233, R234 and R240; codes says that the image's MSRC and KIND codes are in range. -/
def Mach.prepErr (m : Mach) (w : Weave) (codes : Bool) (r : Recipe) : Option LoadErr :=
  let once := fun (f : GroupCfg → Nat) => decide ((r.groups.map fun g => f g.2).foldl (fun a b => a ||| b) 0
    = (r.groups.map fun g => f g.2).foldl (· + ·) 0)
  mustBe 0xD 0xD 0 0 (codes && once (fun g => g.ports.toNat) && once (fun g => g.bkts.toNat)
    && r.groups.all (fun g => m.groupOk w r g.1 g.2)
    && r.buckets.all (fun c => m.bucketOk w c.1 c.2)
    && r.groups.all fun g => r.buckets.all fun c =>
      !bitAt g.2.bkts c.1 || (w.cisternOk c.2 (c.2.nq * w.hdr.nb * placeSize w g.2 c.2) && m.prepTimeOk w r g.2 c.2))

/-! ### Spout rules, queues, references (R297, R387, R405) -/

/-- R297: DETAIL the rule. -/
def spoutErr (r : Recipe) : Option LoadErr :=
  firstErr (r.rules.map fun x => mustBe 0xD 0xE x.1 0 (x.2.cond == 0 || decide (r.d + ceilDiv (r.vMax * 1500) (10 ^ 9) + 1 ≤ x.2.offset.toNat)))

/-- A queue is enabled and of a type. -/
def Mach.queueIs (m : Mach) (q ty : Nat) : Bool := decide (q < 8192) && m.qEn q && m.qType q == ty

/-- The persistent region of the resident context holds a range (R405). -/
def Mach.inPersistent (m : Mach) (a n : Nat) : Bool :=
  match m.sec.resident with
  | none => false
  | some c => match m.ctx c with
    | none => false
    | some x => decide (x.pbase ≤ a) && decide (a + n ≤ x.pbase + x.psize)

/-- The parameter window of a weave: stack, first granule, bytes (R476). -/
def Weave.paramWin (w : Weave) : Option (Nat × Nat × Nat) := (w.bodies 10).head?.map fun b => (fieldAt b 0 1, fieldAt b 4 4, fieldAt b 8 4)

/-- The number of the section of a type with a group or rule number. -/
def Recipe.secNo (r : Recipe) (ty n : Nat) : Nat := (r.secNos.findIdx? fun x => x == (ty, n)).getD 0

/-- The rest of R387, queues, rules and parameters, and R405 for the reference table: DETAIL the section. -/
def Mach.recipeErr (m : Mach) (w : Weave) (r : Recipe) : Option LoadErr :=
  let room := match w.paramWin with
    | some p => p.2.2
    | none => 0
  firstErr ((r.groups.map fun g => mustBe 0xD 0xF (r.secNo 3 g.1) 0 (m.queueIs g.2.result 1))
    ++ (r.rules.map fun x => mustBe 0xD 0xF (r.secNo 5 x.1) 0 (x.2.cond == 0 || m.queueIs x.2.doneq 0xC))
    ++ [mustBe 0xD 0xF (r.secNo 7 0) 0 (decide (r.params.length ≤ room)),
      mustBe 0xD 0xF (r.secNo 6 0) 0 (r.refs.all fun f => m.inPersistent f.addr f.len)])

/-! ### Stages D and E (R484, R486) -/

/-- Stage D after the layout: R170, check 2 of R184, R215, R248, R297, R387, R405. -/
def Mach.stageD (m : Mach) (w : Weave) (codes : Bool) (r : Recipe) : Option LoadErr :=
  firstErr [mustBe 0xD 0xB 0 0 (admitCode w.hdr w.budgets r == 0), m.stemRateErr w r, m.portRateErr r, m.prepErr w codes r, spoutErr r, m.recipeErr w r]

/-- What the checks of a recipe image with a weave give: the recipe or why it is refused, and the contract report once it was made. -/
structure Admission where
  err : Option LoadErr
  recipe : Option Recipe
  report : Option (List Byte)
deriving DecidableEq, Repr

/-- A recipe that was read, with a weave. -/
def Mach.admitRecipe (m : Mach) (w : Weave) (codes : Bool) (r : Recipe) : Admission :=
  let e := m.stageD w codes r
  { err := e, recipe := if e.isNone then some r else none, report := some (contractReport w.hdr w.budgets r) }

/-- A recipe image with a weave. The table of references must lie in the persistent region too (R405). -/
def Mach.admitImage (m : Mach) (w : Weave) (img : List Byte) : Admission :=
  match recipeSections img with
  | .error i => { err := some ⟨0xF, 0xD, i, 0⟩, recipe := none, report := none }
  | .ok secs =>
    let r := m.recipeOfSections img secs
    let a := m.admitRecipe w (recipeCodesOk secs) r
    match (ofType secs 6).head? with
    | none => a
    | some t =>
      if a.err.isSome ∨ m.inPersistent (fieldAt t 0 8) (16 * fieldAt t 8 2) then a
      else { a with err := some ⟨0xF, 0xD, r.secNo 6 0, 0⟩, recipe := none }

/-- Stage E: the conditions of R486 for two weaves and their recipes; DETAIL the condition. -/
def fitErr (a b : Weave) (ra rb : Option Recipe) : Option LoadErr :=
  let h := a.hdr
  let k := b.hdr
  let meets := fun (x y : Nat) => x &&& y != 0
  let fail := fun (i : Nat) (ok : Bool) => mustBe 0xE 0x10 i 0 ok
  firstErr [
    fail 1 (h.routers &&& k.routers == 0),
    fail 2 ((h.nlatch == 0 || k.nlatch == 0 || decide (h.latch0 + h.nlatch ≤ k.latch0) || decide (k.latch0 + k.nlatch ≤ h.latch0))
      && !meets h.engines k.engines && !meets h.roi k.roi && !meets h.sstk k.sstk && !(h.ringplan && k.ringplan)),
    fail 3 ((stackRanges (a.bodies 1)).all fun x => (stackRanges (b.bodies 1)).all fun y => !x.meets y),
    fail 4 (h.stemdig == k.stemdig),
    fail 5 (match ra, rb with
      | some x, some y => x.tb4 == y.tb4 && x.buckets.all fun c => (y.buckets.lookup c.1).isNone
      | _, _ => true)]

/-- The 128-byte load result (R484). -/
def loadResult (e : Option LoadErr) (late : Bool) (loadtime : Nat) (digest : BitVec 256) (pos : BitVec 32) (report : Option (List Byte)) :
    List Byte :=
  let x := e.getD ⟨0, 0, 0, 0⟩
  leBytes 1 x.result ++ leBytes 1 (b2n report.isSome + 2 * b2n late) ++ leBytes 1 x.stage ++ zeros 1 ++ leBytes 2 x.detail ++ zeros 2
    ++ leBytes 4 x.detail2 ++ leBytes 4 (min loadtime 0xFFFFFFFF) ++ bytes32 digest ++ leBytes 4 pos.toNat ++ zeros 12
    ++ padTo 64 (report.getD [])

end Sys2Proof.Machine
end

