-- ==== Sys2Proof/Machine/Load.lean ====
section
/-! DEFINITION. What the loader writes when a weave is loaded (R37, R107, R116, R129, R251, R265-R268, R476, R483), what a stop takes
away, and the bank tables in flash (R480). -/
namespace Sys2Proof.Machine

/-! ### Bank tables (R480) -/

/-- The key of the bank set that is reachable now. -/
def Mach.curKey (m : Mach) : Nat := m.setKey m.sec.resident
/-- The image of a bank in clear: opened under K_SEAL of its digest, and empty where it does not open (R401, R480). -/
def Mach.opened (m : Mach) (b : BankImg) : BankImg :=
  match b.key, m.sec.sdev with
  | none, _ => b
  | some k, some sd => { b with key := none, img := (gcmOpen (BitVec.ofNat 256 (leNat (kSeal sd b.digest))) k.1 [] b.img k.2).getD [] }
  | some _, none => { b with key := none, img := [] }

/-- An image as it goes into a bank: sealed under K_SEAL of its digest, and in clear on a module without an identity (R400, R480; log 132). -/
def Mach.sealImage (m : Mach) (img : List Byte) : BankImg × Mach :=
  let digest := weaveDigest img
  match m.sec.sdev with
  | none => ({ img := img, key := none, digest := digest, head := none }, m)
  | some sd =>
    let (iv, m) := m.draw
    let c := gcmSeal (BitVec.ofNat 256 (leNat (kSeal sd digest))) (leBytes 12 iv.toNat) [] img
    ({ img := c.1, key := some (leBytes 12 iv.toNat, c.2), digest := digest, head := none }, m)

/-- The reachable bank table, with its images in clear. -/
def Mach.banks (m : Mach) : BankCopy :=
  let c := m.banksOf m.curKey
  { c with active := c.active.map m.opened, previous := c.previous.map m.opened, staged := c.staged.map m.opened }

/-- A commit writes the copy that is not in force, with the sequence number one higher. -/
def BankSet.commit (b : BankSet) (f : BankCopy → BankCopy) : BankSet :=
  let c := b.cur
  let new := { f c with seq := c.seq + 1, ok := true }
  if b.b.ok && (!b.a.ok || decide (b.a.seq < b.b.seq)) then { b with a := new } else { b with b := new }

/-- A commit to the reachable bank table; a set that was never written starts from two empty copies. -/
def Mach.commitBanks (m : Mach) (f : BankCopy → BankCopy) : Mach :=
  let k := m.curKey
  let b := (m.flash.sets.lookup k).getD { a := BankCopy.empty, b := BankCopy.empty }
  { m with flash := { m.flash with sets := (k, b.commit f) :: m.flash.sets.filter fun p => p.1 != k } }

/-- The bytes of the images that a table names. -/
def BankCopy.bytes (c : BankCopy) : Nat :=
  ([c.active, c.previous, c.staged].map fun b => match b with
    | some x => x.img.length
    | none => 0).foldl (· + ·) 0

/-- The bytes of the bank area in use. -/
def Flash.used (f : Flash) : Nat := (f.sets.map fun p => (BankSet.cur p.2).bytes).foldl (· + ·) 0
/-- The bank area: 3 584 MiB. -/
def bankArea : Nat := 3584 * 2 ^ 20

/-- A bank holds its image as its digest names it (R483 step 1). -/
def BankImg.sound (b : BankImg) : Bool := weaveDigest b.img == b.digest

/-- ACTIVATE's rotation (R481). -/
def BankCopy.activated (c : BankCopy) : BankCopy := { c with previous := c.active, active := c.staged, staged := none }
/-- ROLLBACK's rotation (R481). -/
def BankCopy.rolledBack (c : BankCopy) : BankCopy := { c with previous := c.active, active := c.previous }

/-! ### Tiles (R37, R477, R483 step 2) -/

/-- A tile's slots, tags, skews and program memory at 0, and what was on its way inside it gone. -/
def Mach.clearTile (m : Mach) (t : Nat) : Mach :=
  let inside := fun (k : Nat) => k / 8192 == t
  { m with
    mem := { m.mem with
      spad := FMap.clear m.mem.spad fun a => a / 524288 == t, tags := FMap.clear m.mem.tags inside, skews := FMap.clear m.mem.skews inside,
      eccSpad := FMap.clear m.mem.eccSpad (fun k => inside (k / 8)), crecUe := FMap.clear m.mem.crecUe inside,
      pmem := FMap.clear m.mem.pmem (fun k => k / 2048 == t), eccPmem := FMap.clear m.mem.eccPmem fun k => k / 2048 == t } }

/-- The tile of a TILEPROG body at a common start (R37). V, ACC, ACP, the weight sets, XS and the sample register are in no descriptor, and
they keep what they held, DESIGN CHOICE (log 54). -/
def tileOf (x : Tile) (b : List Byte) (start : Nat) (go : Bool) : Tile :=
  let entry := BitVec.ofNat 11 (fieldAt b 4 2)
  { Tile.idle with
    v := x.v, acc := x.acc, acp := x.acp, ws0 := x.ws0, ws1 := x.ws1, xs := x.xs, smp := x.smp, flags := x.flags, draws := x.draws,
    mode := if go then .run else .idle, assigned := true, adapt := (fieldAt b 20 1).testBit 0, stage := BitVec.ofNat 12 (fieldAt b 2 2),
    entry := entry, startCycle := start + fieldAt b 8 8, nb := progNb b, budget := fieldAt b 16 4 % 2 ^ 24, span := fieldAt b 16 4 / 2 ^ 24,
    pc := entry, a := tableOf AReg.zero 16 (aregOf b), g := tableOf GReg.zero 8 (gregOf b), d := tableOf DReg.zero 8 (dregOf b),
    c := tableOf 0 16 (fun i => BitVec.ofNat 16 (progTrip b i)), l := tableOf 0 16 (fun i => BitVec.ofNat 14 (progLatch b i)),
    scaleLatch := BitVec.ofNat 256 (leNat (List.replicate 32 0x7F)), tally := tableOf TallyDesc.unused 8 fun i => tallyOf (progTally b i) }

/-- The window of a descriptor at the start (R118): generation 1 when it opens then, else closed at 0. -/
def startWindow (d : List Byte) : Window :=
  match windowOf d with
  | none => Window.unused
  | some x => if x.openAtStart then { x with isOpen := true, gen := 1 } else x

/-- A tile's program memory, descriptor state and windows. -/
def Mach.loadTile (m : Mach) (start : Nat) (go : Bool) (b : List Byte) : Mach :=
  let t := progTile b
  let m := (m.clearTile t).setTile t (tileOf (m.tile t) b start go)
  let pm := ((progBundles b).mapIdx fun i v => (i, v)).foldl (fun p e => FMap.put (fun _ => 0) p (2048 * t + e.1) e.2) m.mem.pmem
  let m : Mach := { m with mem := { m.mem with pmem := pm } }
  (List.range 8).foldl (fun (m : Mach) w => m.setWin t w (startWindow (progWin b w))) m

/-- The tags of an entry of a TAGIMAGE body: slot s in bit s mod 8 of byte s / 8 (R450). -/
def Mach.tagImage (m : Mach) (e : List Byte) : Mach :=
  let t := fieldAt e 0 2
  let n := fieldAt e 4 1024
  { m with mem := { m.mem with
      tags := ((List.range 8192).filter n.testBit).foldl (fun g s => FMap.put (fun _ => false) g (t * 8192 + s) true) m.mem.tags } }

/-- Granules of a stack that the loader writes. -/
def Mach.loadStack (m : Mach) (st g : Nat) (bs : List Byte) : Mach :=
  let m' := m.setStack (writeBytes m.mem.stack (granAddr st g) bs)
  let inside := fun (k : Nat) => decide (4 * (st * 2 ^ 22 + g) ≤ k) && decide (16 * k < 64 * (st * 2 ^ 22 + g) + bs.length)
  { m' with mem := { m'.mem with eccStack := FMap.clear m'.mem.eccStack inside } }

/-! ### Plans (R123, R186, R356) -/

/-- The persistent and the transient region of the resident context, as base and size; none without a context (R405). -/
def Mach.regions (m : Mach) : (Nat × Nat) × (Nat × Nat) :=
  match m.sec.resident.bind m.ctx with
  | some x => ((x.pbase, x.psize), (x.tbase, x.tsize))
  | none => ((0, 0), (0, 0))

/-- A version slot: its first byte and its length (R265). -/
def Mach.versionAt (m : Mach) (k : Nat) : Nat × Nat :=
  let r := m.regions.1
  let x := Config.versionPlace r.2 k
  (r.1 + x.1, x.2)

/-- Where a DDR4 offset of a weave lies; the plan of an adaptation run finds the run's version slot (R259, R405). -/
def Mach.ddrPlace (m : Mach) (slot : Option Nat) (off : Nat) : Nat :=
  let r := m.regions
  match Config.relocate r.1.2 r.2.2 slot.isSome off, slot with
  | (.version, o), some k => (m.versionAt k).1 + o
  | (.transient, o), _ => r.2.1 + o
  | (_, o), _ => r.1.1 + o

/-- The slot that the section which is being loaded writes. -/
def Mach.loadSlot (m : Mach) : Option Nat := m.adapt.run.bind fun r => if r.phase = .loading then some r.slot else none

/-- A plan's descriptor with its DDR4 offset relocated into the context's regions (R405). -/
def Mach.planDesc (m : Mach) (d : List Byte) : SluDesc :=
  let x := sluDesc d
  if x.op = 1 ∨ x.op = 2 ∨ x.op = 3 then { x with daddr := (m.ddrPlace m.loadSlot x.daddr.toNat : Nat) } else x

/-- The engine of a SLUICEPLAN body: pass 0 starts at the common start (R127). -/
def Mach.loadEngine (m : Mach) (start : Nat) (go : Bool) (b : List Byte) : Mach :=
  m.setEngine (fieldAt b 0 1)
    { Engine.free with start := start, mode := if go then .plan else .free, st := .gate, plan := (planDescs b).map m.planDesc, passes := planPasses b }

/-- The send engine of a RINGPLAN body. -/
def Mach.setRingEng (m : Mach) (plane : Nat) (e : RingEng) : Mach :=
  if plane = 0 then { m with ring := { m.ring with eng0 := e } } else { m with ring := { m.ring with eng1 := e } }
def Mach.ringEng (m : Mach) (plane : Nat) : RingEng := if plane = 0 then m.ring.eng0 else m.ring.eng1
def Mach.loadRing (m : Mach) (start : Nat) (b : List Byte) : Mach :=
  m.setRingEng (fieldAt b 0 1) { RingEng.idle with start := start, plan := (planDescs b).map ringDesc, passes := planPasses b, st := .gate }

/-- The sampler of an ROIPLAN body: job 0 starts at the common start (R186). -/
def Mach.loadRoi (m : Mach) (start : Nat) (go : Bool) (b : List Byte) : Mach :=
  m.setRoi (fieldAt b 0 1) { Roi.idle with planMode := go, start := start, jobs := (planDescs b).map roiJob, boxes := (m.roi (fieldAt b 0 1)).boxes }

/-- The row and box counters at a weave's start (R194). -/
def Mach.zeroVision (m : Mach) : Mach :=
  let m := (List.range 2).foldl (fun (m : Mach) d => m.setRoi d { m.roi d with boxes := 0 }) m
  (List.range 12).foldl (fun (m : Mach) p => m.setReg (rStemRows (p / 6) (p % 6)) 0) m

/-- The latches of the LATCHES body (R129). -/
def Mach.loadLatches (m : Mach) (h : WeaveHdr) (b : List Byte) : Mach :=
  (List.range h.nlatch).foldl (fun (m : Mach) i =>
    m.setLatch (h.latch0 + i) { count := BitVec.ofNat 32 (fieldAt b (8 * i + 4) 4), owner := BitVec.ofNat 16 (fieldAt b (8 * i) 2), st := .held }) m

/-- What tiles, latches and engines of a weave or of an adaptation section receive (R483 steps 2 and 3). Leases of theirs that were
revoked are new ones. -/
def Mach.loadFabric (m : Mach) (w : Weave) (start : Nat) (go : Bool) : Mach :=
  let h := w.hdr
  let mine := fun (x : Holder) => match x with
    | .tile t => h.tiles.getLsbD t
    | .engine e => h.engines.testBit e
    | .queue _ => false
  let m : Mach := { m with revoked := m.revoked.filter fun x => !mine x }
  let m := (w.bodies 1).foldl (fun m b => m.loadTile start go b) m
  let m := (w.bodies 2).foldl (fun (m : Mach) b =>
    (List.range (b.length / 1028)).foldl (fun (m : Mach) i => m.tagImage (slice b (1028 * i) 1028)) m) m
  let m := (w.bodies 8).foldl (fun (m : Mach) b => m.loadStack (fieldAt b 0 1) (fieldAt b 4 4) (b.drop 12)) m
  let m := (w.bodies 3).foldl (fun (m : Mach) b => m.loadLatches h b) m
  (w.bodies 4).foldl (fun m b => m.loadEngine start go b) m

/-! ### Stems (R179, R184) -/

/-- A stem port that starts with a configuration. A start inside an acquisition begins with the next whole row, DESIGN CHOICE
(log 31). -/
def Mach.startStem (m : Mach) (p : Nat) (c : StemCfg) : Mach :=
  let l := (m.port p).lidx
  let row := if m.lstate p = 4 then ceilDiv l c.b else 0
  (m.setPort p { m.port p with vbuf := [] }).setStem p { StemPort.idle with
    cfg := c, width := m.portWidth p, taken := if m.lstate p = 4 then l else 0, nextRow := row, ended := m.lstate p != 4, released := row }

/-- The stems of a weave, unless a running weave has the same (R486 condition 4). -/
def Mach.loadStems (m : Mach) (w : Weave) : Mach :=
  if m.wv.running.any fun r => r.hdr.stemdig == w.hdr.stemdig then m
  else (List.range 12).foldl (fun (m : Mach) p => m.startStem p (w.stem p)) m

/-! ### Versions and measurements (R265-R268, R402, R483 steps 4 and 5) -/

/-- A version as bytes: number, parent, labels, digest, granules with their places, then master copies and optimiser state. -/
def VersionSlot.bytes (v : VersionSlot) : List Byte :=
  leBytes 4 v.num ++ leBytes 4 v.parent ++ leBytes 4 v.nlab ++ leBytes 8 v.wdigest.toNat ++ leBytes 4 v.data.length
    ++ v.data.flatMap (fun e => leBytes 4 e.1 ++ slotBytes e.2) ++ v.masters

/-- The version that bytes spell. -/
def versionOf (b : List Byte) : VersionSlot :=
  let n := fieldAt b 20 4
  { num := fieldAt b 0 4, parent := fieldAt b 4 4, nlab := fieldAt b 8 4, wdigest := BitVec.ofNat 64 (fieldAt b 12 8),
    data := (List.range n).map fun i => (fieldAt b (24 + 68 * i) 4, bytesSlot (slice b (28 + 68 * i) 64)), masters := b.drop (24 + 68 * n) }

/-- A version sealed for flash under the key of this module and a weave, or nothing without an identity (R270, R401). -/
def Mach.sealHead (m : Mach) (digest : BitVec 256) (v : VersionSlot) : Option SealedHead × Mach :=
  match m.sec.sdev with
  | none => (none, m)
  | some sd =>
    let (iv, m) := m.draw
    let c := gcmSeal (BitVec.ofNat 256 (leNat (kSeal sd digest))) (leBytes 12 iv.toNat) [] v.bytes
    (some { iv := leBytes 12 iv.toNat, ct := c.1, tag := c.2 }, m)

/-- The boot version that a bank carries: none where nothing is committed or this module's key does not open it (R268, R270). -/
def Mach.bootOf (m : Mach) (b : BankImg) : Option VersionSlot :=
  match b.head, m.sec.sdev with
  | some h, some sd => (gcmOpen (BitVec.ofNat 256 (leNat (kSeal sd b.digest))) h.iv [] h.ct h.tag).map versionOf
  | _, _ => none

/-- The head copies of a version into the stacks. -/
def Mach.writeHead (m : Mach) (v : VersionSlot) : Mach :=
  v.data.foldl (fun (m : Mach) e => m.setGran (e.1 / 2 ^ 22) (e.1 % 2 ^ 22) e.2) m

/-- The head of the signed weave: the STACKINIT data inside the inference copies. -/
def Mach.writeSigned (m : Mach) (w : Weave) : Mach :=
  (w.bodies 8).foldl (fun (m : Mach) b => m.loadStack (fieldAt b 0 1) (fieldAt b 4 4) (b.drop 12)) m

/-- Where the adaptation state of a context is kept while another holds the fabric. -/
def Mach.adaptKey (m : Mach) : Nat := match m.sec.resident with
  | some c => c + 1
  | none => 0

/-- The adaptation state of a weave that becomes ACTIVE (R265, R268): its slots and labels when they stand for the same weave,
otherwise none. The state of another context stays with that context. -/
def Mach.adoptAdapt (m : Mach) (digest : BitVec 256) (sec : Option AdaptSec) (boot : Nat) : Mach :=
  let k := m.adaptKey
  let old := m.adapt
  let parked := if old.owner = k then m.parked else (old.owner, old) :: m.parked.filter fun p => p.1 != old.owner
  let mine := if old.owner = k then some old else m.parked.lookup k
  let base := match mine with
    | some a => if a.weave = digest then a else { Adapt.empty with owner := k }
    | none => { Adapt.empty with owner := k }
  { m with
    parked := parked.filter fun p => p.1 != k,
    adapt := { base with weave := digest, sec := sec, active := boot } }

/-- CRC-64 of a head's inference copies, in the order of the tensor list (R271). -/
def Mach.headDigest (m : Mach) (a : AdaptSec) : BitVec 64 :=
  crc64 (a.tensors.flatMap fun t => readBytes m.mem.stack (granAddr t.stack t.gran) (64 * t.grans))

/-- M6: the WDIGEST of the active version (R402). -/
def Mach.measureHead (m : Mach) : Mach :=
  let m := m.zeroM 6
  match m.adapt.sec with
  | none => m
  | some a => m.extendM 6 (leBytes 8 (m.headDigest a).toNat ++ zeros 24)

/-- M5: the recipe in force (R402). -/
def Mach.measureRecipe (m : Mach) : Mach :=
  let m := m.zeroM 5
  match m.prep.recipe with
  | none => m
  | some r => m.extendM 5 (bytes32 r.digest)

/-- M4 to M6 for the ACTIVE weave (R402, R483 step 5). -/
def Mach.measureWeave (m : Mach) (digest : BitVec 256) : Mach := ((m.zeroM 4).extendM 4 (bytes32 digest)).measureRecipe.measureHead

/-! ### The recipe that a weave runs with (R386, R387) -/

/-- The parameters of a recipe go into the weave's parameter window (R387). -/
def Mach.writeParams (m : Mach) (w : Weave) (r : Recipe) : Mach :=
  match w.paramWin with
  | none => m
  | some (st, g, _) => m.loadStack st g r.params

/-- A recipe comes into force for a weave: PREP's counters start at 0 and the low-water marks are loaded (R247, R249). -/
def Mach.loadRecipe (m : Mach) (w : Weave) (serial : Nat) (r : Recipe) : Mach :=
  let m : Mach := { m with prep := { m.prep with recipe := some r, serial := serial } }
  let m := (((m.setReg rPrepVoidC 0).setReg rPrepVoidL 0).setReg rPrepPads 0).writeParams w r
  r.buckets.foldl (fun (m : Mach) b =>
    ((m.setReg (rPrepBktBatches b.1) 0).setFld (rPrepBktLow b.1) 4 0 b.2.low).putBit rPrepStat (8 + b.1) false) m

/-! ### Start and stop (R483, R487, R489) -/

/-- A common start lies on an alignment tick: a multiple of 28 cy(CORE) (R471). -/
def nextAlign (c : Nat) : Nat := (c + 28) / 28 * 28

/-- At a weave's start the counters of the tiles that no running weave uses are 0, their tags empty and their skews 0 (R70, R107, R160). -/
def Mach.freshTiles (m : Mach) : Mach :=
  let used := fun (k : Nat) => (m.tile (k / 8192)).assigned
  { m with
    tiles := m.tiles.filterMap fun p =>
      if p.2.assigned then some p
      else
        let x : Tile := { p.2 with step := 0, slips := 0, cntIssue := 0, cntHtag := 0, cntHlat := 0, cntHbank := 0, cntHque := 0, cntPred := 0 }
        if x = Tile.idle then none else some (p.1, x),
    mem := { m.mem with tags := m.mem.tags.filter fun p => used p.1, skews := m.mem.skews.filter fun p => used p.1 } }

/-- A weave loaded from a bank, beside those that run; `go` starts it at once. -/
def Mach.loadWeave (m : Mach) (b : BankImg) (recipe : Option Recipe) (since : Option (BitVec 32)) (go : Bool) : Mach :=
  let w := weaveOfImage b.img
  let start := nextAlign m.cyc
  let serial := m.wv.serial
  let m := (m.freshTiles.loadFabric w start go).loadStems w
  let m := (w.bodies 5).foldl (fun m x => m.loadRing start x) m
  let m := (w.bodies 7).foldl (fun m x => m.loadRoi start go x) m
  let m := if go then m.zeroVision else m
  let m := match m.bootOf b with
    | some v => m.writeHead v
    | none => m
  let run : RunWeave :=
    { serial := serial, digest := b.digest, img := b.img, hdr := w.hdr, recipe := recipe, start := start, since := since, started := go }
  { m with wv := { m.wv with running := m.wv.running ++ [run], serial := serial + 1 } }

/-- A loaded weave starts: its tiles, engines and samplers go at the common start. -/
def Mach.startLoaded (m : Mach) : Mach :=
  m.wv.running.foldl (fun (m : Mach) r =>
    if r.started then m
    else
      let w := weaveOfImage r.img
      let start := nextAlign m.cyc
      let m := (w.bodies 1).foldl (fun (m : Mach) b =>
        let t := progTile b
        m.setTile t { m.tile t with mode := .run, startCycle := start + fieldAt b 8 8 }) m
      let m := (w.bodies 4).foldl (fun (m : Mach) b => m.setEngine (fieldAt b 0 1) { m.engine (fieldAt b 0 1) with mode := .plan, start := start }) m
      let m := (w.bodies 7).foldl (fun (m : Mach) b => m.setRoi (fieldAt b 0 1) { m.roi (fieldAt b 0 1) with planMode := true, start := start }) m.zeroVision
      let m := (w.bodies 5).foldl (fun (m : Mach) b => m.setRingEng (fieldAt b 0 1) { m.ringEng (fieldAt b 0 1) with start := start }) m
      { m with wv := { m.wv with
          running := m.wv.running.map fun x => if x.serial = r.serial then { x with started := true, start := start } else x } }) m

/-- What is on its way from or to a tile is discarded when its weave stops, DESIGN CHOICE (log 33). -/
def Mach.dropTile (m : Mach) (t : Nat) : Mach :=
  let from_ := fun (f : Flight) => f.writer == BitVec.ofNat 16 t || (match f.target with
    | .slot k _ => k == t
    | .gran _ _ => false)
  { m with
    fx := m.fx.filter (fun f => f.tile.val != t), flights := m.flights.filter (fun f => !from_ f),
    inbox := m.inbox.filter (fun e => e.tile.val != t), gldReplies := m.gldReplies.filter (fun r => r.tile.val != t),
    winUpds := m.winUpds.filter (fun u => u.tile.val != t), chanQ := m.chanQ.filter (fun q => q.requester != t),
    signals := m.signals.filter (fun g => g.src != BitVec.ofNat 16 t),
    waits := m.waits.filter fun w => match w.who with
      | .tile k => k.val != t
      | _ => true }

/-- A tile without a stage: IDLE; its registers and its counters stay until a weave starts (R39, R70, log 54). -/
def Mach.idleTile (m : Mach) (t : Nat) : Mach :=
  let x := m.tile t
  let m := (m.dropTile t).setTile t { Tile.idle with
    v := x.v, acc := x.acc, acp := x.acp, ws0 := x.ws0, ws1 := x.ws1, xs := x.xs, smp := x.smp, flags := x.flags, draws := x.draws,
    step := x.step, slips := x.slips, cntIssue := x.cntIssue, cntHtag := x.cntHtag, cntHlat := x.cntHlat, cntHbank := x.cntHbank,
    cntHque := x.cntHque, cntPred := x.cntPred }
  (List.range 8).foldl (fun (m : Mach) w => m.setWin t w Window.unused) m

/-- Engines that were revoked become FREE with the stop of a weave (R135); one that a SLUICE queue feeds by then runs for that queue. -/
def Mach.freeRevoked (m : Mach) : Mach :=
  (m.engines.filter fun p => p.2.st == .revoked && p.2.mode != .plan).foldl (fun (m : Mach) p =>
    m.setEngine p.1 (match m.engineQueue p.1 with
      | some q => { Engine.free with mode := .queue, feeds := true, queue := q }
      | none => Engine.free)) m

/-- Tiles IDLE, latches FREE and engines released (R39, R129, R487 step 5). -/
def Mach.freeFabric (m : Mach) (w : Weave) : Mach :=
  let h := w.hdr
  let m := (w.bodies 1).foldl (fun (m : Mach) b => m.idleTile (progTile b)) m
  let m := (List.range h.nlatch).foldl (fun (m : Mach) i => m.setLatch (h.latch0 + i) Latch.free) m
  let m : Mach := { m with signals := m.signals.filter (fun g => !h.owns g.latch), waits := m.waits.filter fun x => !h.owns x.latch }
  (w.bodies 4).foldl (fun (m : Mach) b => (m.dropInflight (fieldAt b 0 1)).setEngine (fieldAt b 0 1) Engine.free) m.freeRevoked

/-- The stems stop with the last weave. -/
def Mach.freeStems (m : Mach) : Mach :=
  let m : Mach := { m with flights := m.flights.filter fun f => match f.owner with
    | .stem _ _ => false
    | _ => true }
  (List.range 12).foldl (fun (m : Mach) p => (m.setStem p StemPort.idle).setPort p { m.port p with vbuf := [] }) m

/-- A weave is taken from the fabric: its tiles, latches, engines, samplers, ring plan and PREP's work for it. -/
def Mach.unloadWeave (m : Mach) (r : RunWeave) : Mach :=
  let w := weaveOfImage r.img
  let m := m.freeFabric w
  let m := (w.bodies 7).foldl (fun (m : Mach) b =>
    let d := fieldAt b 0 1
    ({ m.dropRoi d with flights := (m.dropRoi d).flights.filter fun f => f.owner != WOwner.rstat d } : Mach).setRoi d { Roi.idle with boxes := (m.roi d).boxes }) m
  let m := (w.bodies 5).foldl (fun (m : Mach) b => ({ m with chanQ := m.chanQ.filter fun q => match q.read with
      | some (.ring k _ _ _) => k != fieldAt b 0 1
      | _ => true } : Mach).setRingEng (fieldAt b 0 1) RingEng.idle) m
  let keys := fun (k : Nat) => k / 8 == r.serial
  let waiting := m.prep.bst.any fun e => keys e.1 && e.2.batches.any fun k => k.image.isSome
  let m := if waiting then m.putBit rFltRplStat 31 false else m
  let m : Mach := { m with
    wv := { m.wv with running := m.wv.running.filter fun x => x.serial != r.serial },
    waits := m.waits.filter (fun x => match x.who with
      | .prep k => !keys (k / 2 ^ 32)
      | .ring k => !(w.bodies 5).any fun b => fieldAt b 0 1 == k
      | _ => true),
    prep := { m.prep with
      parts := m.prep.parts.filter (fun x => x.weave != r.serial || (!x.accepted && x.weave == m.prep.serial)), bst := FMap.clear m.prep.bst keys,
      injected := m.prep.injected.filter fun x => x.weave != r.serial } }
  if m.wv.running.isEmpty then { m with flt := { m.flt with vouted := [] } }.freeStems else m

/-- Every running weave is taken from the fabric. -/
def Mach.unloadAll (m : Mach) : Mach := m.wv.running.foldl (fun m r => m.unloadWeave r) m

/-- No recipe is in force (R481 STOP). -/
def Mach.unloadRecipe (m : Mach) : Mach := { m with prep := { m.prep with recipe := none } }

/-- A weave runs: loaded and started. -/
def Mach.weaveRuns (m : Mach) : Bool := m.wv.running.any fun r => r.started

/-- A load of the reachable ACTIVE bank with a recipe (R483): adaptation state, weave, measurements. -/
def Mach.loadActive (m : Mach) (b : BankImg) (recipe : Option Recipe) (go : Bool) : Mach :=
  let boot := ((m.bootOf b).map fun v => v.num).getD 0
  let m := (m.adoptAdapt b.digest (weaveOfImage b.img).adaptSec boot).loadWeave b recipe none go
  let m := match recipe with
    | some r => m.loadRecipe (weaveOfImage b.img) (m.wv.serial - 1) r
    | none => m
  m.measureWeave b.digest

end Sys2Proof.Machine
end

