-- ==== Sys2Proof/Machine/Weave.lean ====
section
/-! DEFINITION. Weave commands (R481-R490), the RECIPE command (R386, R412) and the WEAVE_STOP response (R441). -/
namespace Sys2Proof.Machine

/-! ### Issuing and ending a weave command (R481, R484, R490) -/

/-- The argument block. -/
def Mach.wvArgs (m : Mach) : List Byte := (List.range 12).flatMap fun i => leBytes 4 (m.reg (rGlbWvArg i)).toNat

/-- What the 128 bytes of a load result say besides the error. -/
structure LoadNote where
  late : Bool := false
  loadtime : Nat := 0
  digest : BitVec 256 := 0
  pos : BitVec 32 := 0
  report : Option (List Byte) := none
deriving DecidableEq, Repr

/-- A load result into the host region, where its range lies inside it (R484). -/
def Mach.putResult (m : Mach) (res : Nat) (e : Option LoadErr) (n : LoadNote) : Mach :=
  if m.inHost res 128 then m.setHostBytes res (loadResult e n.late n.loadtime n.digest n.pos n.report) else m

/-- A weave command has written its result: GLB_WV_STAT and its vector. BUSY stays while another command runs. -/
def Mach.wvEnd (m : Mach) (op res : Nat) (e : Option LoadErr) (n : LoadNote) : Mach :=
  let m := m.putResult res e n
  let code := (e.map fun x => x.result).getD 0
  let a := rGlbWvStat
  let m := ((m.putBit a 30 true).setFld a 23 16 code).setFld a 15 8 op
  let m := if n.late then m.putBit a 28 true else m
  let m := if m.wv.cmd.isNone then (m.putBit a 31 false).putBit a 29 false else m
  if m.bit rGlbWvCtl 19 then m.signal (m.rbits rGlbWvCtl 30 20) else m

/-- A refusal with a code and no stage. -/
def refusal (code : Nat) : Option LoadErr := some ⟨code, 0, 0, 0⟩

/-- A command that goes on: GLB_WV_STAT.BUSY, PENDING while it waits for a position. -/
def Mach.wvBegin (m : Mach) (c : WvCmd) (pending : Bool) : Mach :=
  let a := rGlbWvStat
  (({ m with wv := { m.wv with cmd := some c } }.putBit a 31 true).putBit a 29 pending).setFld a 15 8 c.op

/-- The command that was running is over. -/
def Mach.wvDrop (m : Mach) : Mach := { m with wv := { m.wv with cmd := none } }

/-- Offsets and fields of the argument block. -/
def argImg (a : List Byte) : Nat := fieldAt a 0 8
def argLen (a : List Byte) : Nat := fieldAt a 8 4
def argRes (a : List Byte) : Nat := fieldAt a 12 8
def argRcp (a : List Byte) : Nat := fieldAt a 20 8
def argRcpLen (a : List Byte) : Nat := fieldAt a 28 4
def argP1 (a : List Byte) : BitVec 32 := BitVec.ofNat 32 (fieldAt a 32 4)
def argP2 (a : List Byte) : BitVec 32 := BitVec.ofNat 32 (fieldAt a 36 4)
def argFlag (a : List Byte) (i : Nat) : Bool := (fieldAt a 40 1).testBit i

/-- The argument block breaks a range rule (R481, R485 RANGE): flags, reserved bytes, ranges, positions. -/
def Mach.wvRange (m : Mach) (op : Nat) (a : List Byte) : Bool :=
  let swap := op == 3 || op == 4
  decide (7 < fieldAt a 40 1) || (slice a 41 7).any (· != 0) || !m.inHost (argRes a) 128 || decide (op = 0) || decide (7 < op)
    || (op == 1 && !m.inHost (argImg a) (argLen a)) || (swap && argFlag a 1 && !m.inHost (argRcp a) (argRcpLen a))
    || (m.prep.recipe.isSome && ((swap || (op == 5 && !argFlag a 2)) && !m.nearPos m.lotBase (argP1 a)
      || swap && argFlag a 0 && !m.nearPos m.lotBase (argP2 a)))

/-- An adaptation run or a context switch holds the fabric (R490). -/
def Mach.fabricHeld (m : Mach) : Bool := m.adapt.run.isSome || m.sec.switching.isSome

/-- A weave command that meets neither a range error nor R490 goes on with its argument block. GO is ignored while a command runs,
except with OP ABORT. -/
def Mach.wvCmd (m : Mach) (op : Nat) (ctl : W32) (k : List Byte → Mach → Mach) : Mach :=
  if !m.hostUp || !bitAt ctl 31 || bits ctl 7 0 ≠ op then m
  else
    let m := m.setReg rGlbWvCtl (ctl &&& 0x7FF800FF#32)
    let a := m.wvArgs
    if m.wv.cmd.isSome && op != 7 then m
    else if m.wvRange op a then m.wvEnd op (argRes a) (refusal 0x17) {}
    else if m.sec.switching.isSome || (m.adapt.run.isSome && op != 1 && op != 6 && op != 7) then m.wvEnd op (argRes a) (refusal 0x15) {}
    else k a m

/-- A reserved OP ends with RANGE. -/
def wvReserved (ctl : W32) (m : Mach) : Mach :=
  let op := bits ctl 7 0
  if op = 0 ∨ 7 < op then m.wvCmd op ctl fun _ m => m else m

/-! ### STAGE and DISCARD -/

/-- STAGE: stages A to C, then the commit (R480, R481, R484). -/
def weaveStage (ctl : W32) (m : Mach) : Mach :=
  m.wvCmd 1 ctl fun a m =>
    let img := m.hostBytes (argImg a) (argLen a)
    let m := m.readHost (argImg a) (argLen a)
    let n : LoadNote := { digest := weaveDigest img }
    let full := decide (bankArea < m.flash.used + img.length) || ((m.flash.sets.lookup m.curKey).isNone && decide (17 ≤ m.flash.sets.length))
    if !m.pwr.ddrReady then m.wvEnd 1 (argRes a) (refusal 0x11) {}
    else match m.checkImage img with
      | some e => m.wvEnd 1 (argRes a) (some e) n
      | none =>
        if full then m.wvEnd 1 (argRes a) (refusal 0x12) n
        else
          let (b, m) := m.sealImage img
          (m.commitBanks fun c => { c with staged := some b }).wvEnd 1 (argRes a) none n

def execWeaveStage (ctl : W32) (s : State) : Host.Outcome State Fault Refusal := done s (weaveStage ctl s.m)

/-- DISCARD: STAGED := empty. -/
def weaveDiscard (ctl : W32) (m : Mach) : Mach :=
  m.wvCmd 6 ctl fun a m =>
    if !m.pwr.ddrReady then m.wvEnd 6 (argRes a) (refusal 0x11) {}
    else (m.commitBanks fun c => { c with staged := none }).wvEnd 6 (argRes a) none {}

def execWeaveDiscard (ctl : W32) (s : State) : Host.Outcome State Fault Refusal := done s (weaveDiscard ctl s.m)

/-! ### LOAD -/

/-- Nothing may be loaded before alignment and DDR4 (R469, R483). -/
def Mach.mayLoad (m : Mach) : Bool := m.pwr.ddrReady && m.pwr.aligned

/-- A command in its first phase. -/
def newCmd (op : Nat) (phase : WvPhase) (b : Option BankImg) (r : Option Recipe) (a : List Byte) (drain : Bool) (t0 : Nat) : WvCmd :=
  { op := op, phase := phase, new := b, recipe := r, p1 := argP1 a, p2 := argP2 a, res := argRes a, drain := drain, late := false, t0 := t0 }

/-- LOAD: with no weave running and no lot open, ACTIVE is loaded (R481-R483), unless a stage has BUDGET = 0 (R157, log 123). -/
def weaveLoad (ctl : W32) (m : Mach) : Mach :=
  m.wvCmd 2 ctl fun a m =>
    if !m.mayLoad || m.hif.lot.isOpen || !m.wv.running.isEmpty then m.wvEnd 2 (argRes a) (refusal 0x11) {}
    else match m.banks.active with
      | none => m.wvEnd 2 (argRes a) (refusal 0x14) {}
      | some b =>
        if !(weaveOfImage b.img).budgets then m.wvEnd 2 (argRes a) (some ⟨0xB, 0xD, 0, 0⟩) { digest := b.digest }
        else m.wvBegin (newCmd 2 .loading (some b) none a false m.tb1) false

def execWeaveLoad (ctl : W32) (s : State) : Host.Outcome State Fault Refusal := done s (weaveLoad ctl s.m)

/-! ### ACTIVATE and ROLLBACK (R481, R486, R487, R489) -/

/-- A recipe image that may be sealed: the clear image, or nothing when it does not open (R412). -/
def Mach.openRecipe (m : Mach) (b : List Byte) : Option (List Byte) :=
  match m.kos, m.sec.resident with
  | some k, some c =>
    let n := fieldAt b 20 4
    let head := b.take 64
    if slice b 0 4 ≠ ascii "LR9A" ∨ fieldAt b 4 2 ≠ c ∨ (slice b 18 2 ++ slice b 24 40).any (· != 0) ∨ b.length ≠ 64 + n + 16 then none
    else gcmOpen (BitVec.ofNat 256 (leNat (hkdf (zeros 32) (bytes32 k) (ascii "L9 RCP") 32))) (slice b 6 12) head (slice b 64 n)
      (slice b (64 + n) 16)
  | _, _ => none

/-- A recipe image is refused as such: RESULT RECIPE in stage D. -/
def recipeRefused : Admission := { err := some ⟨0xF, 0xD, 0, 0⟩, recipe := none, report := none }

/-- The pair of a weave and the recipe that a swap names, or the recipe in force (R173, R484). Confidential mode takes sealed images. -/
def Mach.admitPair (m : Mach) (w : Weave) (a : List Byte) : Admission :=
  if argFlag a 1 then
    let raw := m.hostBytes (argRcp a) (argRcpLen a)
    if m.sec.conf then
      match m.openRecipe raw with
      | some b => m.admitImage w b
      | none => recipeRefused
    else m.admitImage w raw
  else match m.prep.recipe with
    | some r => m.admitRecipe w true r
    | none => { err := none, recipe := none, report := none }

/-- A swap to a bank's weave: admission, the fit of a side-by-side swap, then its load or its wait for P_STOP. With no weave running the
weave is loaded and the banks rotate when it starts, DESIGN CHOICE (log 32). -/
def Mach.beginSwap (m : Mach) (op : Nat) (b : BankImg) (a : List Byte) : Mach :=
  let w := weaveOfImage b.img
  let m := if argFlag a 1 then m.readHost (argRcp a) (argRcpLen a) else m
  let x := m.admitPair w a
  let n : LoadNote := { digest := b.digest, report := x.report }
  match x.err with
  | some e => m.wvEnd op (argRes a) (some e) n
  | none => match m.wv.running.getLast? with
    | none => m.wvBegin (newCmd op .loading (some b) x.recipe a false m.tb1) false
    | some old =>
      let drain := argFlag a 0
      if drain then
        { m with wv := { m.wv with drain := some (argP1 a, none) } }.wvBegin (newCmd op .waitStop (some b) x.recipe a true m.tb1) true
      else match fitErr (weaveOfImage old.img) w old.recipe x.recipe with
        | some e => m.wvEnd op (argRes a) (some e) n
        | none => m.wvBegin (newCmd op .loading (some b) x.recipe a false m.tb1) true

/-- ACTIVATE. -/
def weaveActivate (ctl : W32) (m : Mach) : Mach :=
  m.wvCmd 3 ctl fun a m =>
    if !m.mayLoad then m.wvEnd 3 (argRes a) (refusal 0x11) {}
    else match m.banks.staged with
      | none => m.wvEnd 3 (argRes a) (refusal 0x14) {}
      | some b => m.beginSwap 3 b a

def execWeaveActivate (ctl : W32) (s : State) : Host.Outcome State Fault Refusal := done s (weaveActivate ctl s.m)

/-- ROLLBACK. -/
def weaveRollback (ctl : W32) (m : Mach) : Mach :=
  m.wvCmd 4 ctl fun a m =>
    if !m.mayLoad then m.wvEnd 4 (argRes a) (refusal 0x11) {}
    else match m.banks.previous with
      | none => m.wvEnd 4 (argRes a) (refusal 0x14) {}
      | some b => m.beginSwap 4 b a

def execWeaveRollback (ctl : W32) (s : State) : Host.Outcome State Fault Refusal := done s (weaveRollback ctl s.m)

/-! ### STOP and ABORT -/

/-- STOP (R481, R482). -/
def weaveStop (ctl : W32) (m : Mach) : Mach :=
  m.wvCmd 5 ctl fun a m =>
    if m.wv.running.isEmpty || m.hif.lot.isOpen then m.wvEnd 5 (argRes a) (refusal 0x11) {}
    else if argFlag a 2 then (m.flushAll .flush).unloadAll.unloadRecipe.wvEnd 5 (argRes a) none {}
    else { m with wv := { m.wv with drain := some (argP1 a, none) } }.wvBegin (newCmd 5 .waitStop none none a true m.tb1) true

def execWeaveStop (ctl : W32) (s : State) : Host.Outcome State Fault Refusal := done s (weaveStop ctl s.m)

/-- The position base has reached a position. -/
def Mach.reached (m : Mach) (p : BitVec 32) : Bool := decide (0 ≤ diff32 (m.pos32 m.lotBase) p)

/-- A command is pending: it has not reached its switch position or P_STOP, and no part belongs to the new weave yet (R481, R487). -/
def Mach.cmdPending (m : Mach) (c : WvCmd) : Bool :=
  (c.op == 3 || c.op == 4 || c.op == 5) &&
    if c.phase = .waitStop then !m.reached c.p1
    else !c.drain && (c.phase == .loading || (c.phase == .loaded && match m.wv.running.getLast? with
      | some v => !(v.since.any fun s => m.reached s) && m.prep.parts.all fun x => x.weave != v.serial
      | none => true))

/-- A pending command ends with ABORTED: a weave that was loaded beside the old one is taken away, and nothing else changes. -/
def Mach.abortCmd (m : Mach) (c : WvCmd) : Mach :=
  let m := if !c.drain && c.phase = .loaded then
      match m.wv.running.getLast? with
      | some v => m.unloadWeave v
      | none => m
    else m
  let m : Mach := { m.wvDrop with wv := { m.wvDrop.wv with drain := if c.drain then none else m.wv.drain } }
  m.wvEnd c.op c.res (refusal 0x16) { digest := (c.new.map BankImg.digest).getD 0 }

/-- ABORT (R481, R485); without a pending command it ends with STATE, DESIGN CHOICE (log 34). -/
def weaveAbort (ctl : W32) (m : Mach) : Mach :=
  m.wvCmd 7 ctl fun a m =>
    match m.wv.cmd with
    | none => m.wvEnd 7 (argRes a) (refusal 0x11) {}
    | some c => if m.cmdPending c then (m.abortCmd c).wvEnd 7 (argRes a) none {} else m.wvEnd 7 (argRes a) (refusal 0x11) {}

def execWeaveAbort (ctl : W32) (s : State) : Host.Outcome State Fault Refusal := done s (weaveAbort ctl s.m)

/-! ### The side-by-side switch (R487) -/

/-- The rotation that ends a swap (R481). -/
def Mach.rotate (m : Mach) (op : Nat) : Mach := m.commitBanks (if op = 3 then BankCopy.activated else BankCopy.rolledBack)

/-- The new weave's adaptation state and measurements, once it is ACTIVE (R402, log 35). -/
def Mach.nowActive (m : Mach) (v : RunWeave) : Mach :=
  let head := m.banks.active.bind m.bootOf
  (m.adoptAdapt v.digest (weaveOfImage v.img).adaptSec ((head.map fun h => h.num).getD 0)).measureWeave v.digest

/-- P_SW: the switch position is reached. The banks rotate, the new recipe is in force, and both weaves run (R487 step 4). -/
def pSw (m : Mach) : Mach :=
  match m.wv.cmd, m.wv.running.getLast? with
  | some c, some v =>
    if c.drain || c.phase != .loaded || decide (m.wv.running.length < 2) then m
    else match v.since with
      | none => m
      | some s =>
        if !m.reached s then m
        else
          let m := ({ m with wv := { m.wv with cmd := some { c with phase := .overlap } } }.rotate c.op).setReg rGlbSwapPos s
          let m := match v.recipe with
            | some r => m.loadRecipe (weaveOfImage v.img) v.serial r
            | none => m
          (m.nowActive v).putBit rGlbWvStat 29 false
  | _, _ => m

def execPSw (s : State) : Host.Outcome State Fault Refusal := done s (pSw s.m)

/-- µs from the start of a load to a weave's common start; TB1 counts 5 ns in 7 cy(CORE). -/
def loadMicros (t0 start : Nat) : Nat := (start * 5 / 7 - t0) / 1000

/-- The note of a swap that ends. -/
def swapNote (c : WvCmd) (v : RunWeave) (pos : BitVec 32) : LoadNote :=
  let w := weaveOfImage v.img
  { late := c.late, loadtime := loadMicros c.t0 v.start, digest := v.digest, pos := pos,
    report := v.recipe.map fun r => contractReport w.hdr w.budgets r }

/-- OLD_WEAVE_DONE: every part of the old weave has its record; its resources become FREE and the swap ends (R487 step 5). -/
def oldWeaveDone (m : Mach) : Mach :=
  match m.wv.cmd, m.wv.running with
  | some c, old :: v :: _ =>
    let s := v.since.getD 0
    if c.phase = .overlap ∧ !(m.prep.outstanding.any fun x => x.weave == old.serial)
        ∧ !(m.prep.markers.any fun k => decide (diff32 k.pos s < 0)) then
      (m.unloadWeave old).wvDrop.wvEnd c.op c.res none (swapNote c v s)
    else m
  | _, _ => m

def execOldWeaveDone (s : State) : Host.Outcome State Fault Refusal := done s (oldWeaveDone s.m)

/-! ### RECIPE (R386, R482, R490) -/

/-- The end of a RECIPE command: its load result, then its completion. -/
def Mach.recipeEnd (m : Mach) (q res status tag len : Nat) (idx : W32) (e : Option LoadErr) (n : LoadNote) : Mach :=
  (m.putResult res e n).cmdDone q 1 status tag idx (if status = 0 then leBytes 4 len else [])

/-- RECIPE: the image is admitted for the running weave or refused; a refused one leaves the recipe in force as it is. A load result is
written for every outcome, DESIGN CHOICE (log 36). -/
def recipeCmd (q : Nat) (ent : Slot) (m : Mach) : Mach :=
  m.cmdTake q ent 1 fun b idx m =>
    let tag := fieldAt b 2 2
    let off := fieldAt b 8 8
    let len := fieldAt b 16 4
    let res := fieldAt b 24 8
    let sealed := (fieldAt b 1 1).testBit 0
    let run := m.wv.running.getLast?
    let n : LoadNote := { digest := (run.map fun r => r.digest).getD 0 }
    if 1 < fieldAt b 1 1 ∨ !reservedZero b [(8, 12), (24, 8)] ∨ off % 64 ≠ 0 ∨ res % 64 ≠ 0 ∨ !m.inHost off len ∨ !m.inHost res 128 then
      m.recipeEnd q res 5 tag len idx (refusal 0x17) n
    else if m.hif.lot.isOpen then m.recipeEnd q res 2 tag len idx (refusal 0x11) n
    else match run with
      | none => m.recipeEnd q res 1 tag len idx (refusal 0x11) n
      | some r =>
        if !r.started || m.wv.cmd.isSome || m.fabricHeld then m.recipeEnd q res 1 tag len idx (refusal 0x11) n
        else if m.sec.conf && !sealed then m.recipeEnd q res 7 tag len idx recipeRefused.err n
        else
          let w := weaveOfImage r.img
          let m := m.readHost off len
          let raw := m.hostBytes off len
          let x := if sealed then
              match m.openRecipe raw with
              | some c => m.admitImage w c
              | none => recipeRefused
            else m.admitImage w raw
          let n := { n with report := x.report }
          match x.recipe with
          | none => m.recipeEnd q res 1 tag len idx x.err n
          | some rc =>
            let run := m.wv.running.map fun y => if y.serial = r.serial then { y with recipe := some rc } else y
            let m := ({ m with wv := { m.wv with running := run } }.loadRecipe w r.serial rc).measureRecipe
            m.recipeEnd q res 0 tag len idx none n

def execRecipeLoad (q : Fin 8192) (ent : Slot) (s : State) : Host.Outcome State Fault Refusal := done s (recipeCmd q ent s.m)

/-! ### The WEAVE_STOP response (R441, R490) -/

/-- The weave stops without a drain: a pending swap ends with ABORTED, every outstanding sample receives FLUSH, and the weave is taken
from the fabric. -/
def Mach.stopNow (m : Mach) : Mach :=
  let m := match m.wv.cmd with
    | some c => ({ m.wvDrop with wv := { m.wvDrop.wv with drain := none } } : Mach).wvEnd c.op c.res (refusal 0x16)
        { digest := (c.new.map BankImg.digest).getD 0 }
    | none => m
  (m.flushAll .flush).unloadAll

/-- WEAVE_STOP; without a weave there is nothing to stop. -/
def actWeaveStop (r : Nat) (m : Mach) : Mach :=
  m.act r 5 fun _ m => (m.stopNow, 0)

def execActWeaveStop (r : Fin 32) (s : State) : Host.Outcome State Fault Refusal := done s (actWeaveStop r s.m)

end Sys2Proof.Machine
end

