-- ==== Sys2Proof/Machine/Adapt.lean ====
section
/-! DEFINITION. On-line adaptation (R251-R274): labels, the commands of the adaptation queue, and what happens inside a run. -/
namespace Sys2Proof.Machine

/-! ### The head and its versions (R251, R265-R267, R271) -/

/-- The section of the weave that is loaded, or of the weave whose run holds the fabric; none otherwise. -/
def Mach.section (m : Mach) : Option AdaptSec := if m.weaveRuns || m.adapt.run.isSome then m.adapt.sec else none

/-- The granules of a memory that hold the inference copies. -/
def headData (stack : List Host.Cell) (a : AdaptSec) : List (Nat × Slot) :=
  a.tensors.flatMap fun t => (List.range t.grans).map fun i =>
    (t.stack * 2 ^ 22 + t.gran + i, bytesSlot (readBytes stack (granAddr t.stack (t.gran + i)) 64))

/-- The inference copies as the signed weave has them: its STACKINIT data (R265, version 0). -/
def signedHead (w : Weave) (a : AdaptSec) : List (Nat × Slot) :=
  headData ((w.bodies 8).foldl (fun s b => writeBytes s (granAddr (fieldAt b 0 1) (fieldAt b 4 4)) (b.drop 12)) []) a

/-- Version 0 of the ACTIVE weave, with the masters that runs from it begin with. -/
def Mach.version0 (m : Mach) (a : AdaptSec) : VersionSlot :=
  let data := match m.banks.active with
    | some b => signedHead (weaveOfImage b.img) a
    | none => []
  { num := 0, parent := 0xFFFFFFFF, nlab := 0, wdigest := crc64 (data.flatMap fun e => slotBytes e.2), data := data,
    masters := Config.firstMasters m.adapt.weave }

/-- The boot version of the ACTIVE weave. -/
def Mach.bootVersion (m : Mach) : Option VersionSlot := m.banks.active.bind m.bootOf

/-- A version in a slot. -/
def Adapt.slotOf (a : Adapt) (v : Nat) : Option VersionSlot := a.slots.findSome? fun s => match s with
  | some x => if x.num = v then some x else none
  | none => none

/-- A version that a command may name: 0, or one in a slot (R273). -/
def Mach.version (m : Mach) (a : AdaptSec) (v : Nat) : Option VersionSlot := if v = 0 then some (m.version0 a) else m.adapt.slotOf v

/-- The active version: in a slot, version 0, or the boot version that the head was taken from (R266, R268). -/
def Mach.activeVersion (m : Mach) (a : AdaptSec) : VersionSlot :=
  match m.version a m.adapt.active with
  | some x => x
  | none => (m.bootVersion).getD (m.version0 a)

/-- The number of the next version: one above the largest known in slots or flash. -/
def Mach.nextVersion (m : Mach) : Nat :=
  let nums := (m.adapt.slots.filterMap fun s => s.map fun x => x.num) ++ match m.bootVersion with
    | some b => [b.num]
    | none => []
  nums.foldl max 0 + 1

/-! ### Results (R271, R274) -/

/-- Labels in the store. -/
def Adapt.labelCount (a : Adapt) : Nat := (a.labels.filter Option.isSome).length

/-- The result record of a command (R274); a digest that does not apply reads 0. -/
structure AdaptResult where
  op : Nat
  status : Nat
  tag : Nat
  version : Nat := 0
  parent : Nat := 0
  nlab : Nat := 0
  wdigest : Option (BitVec 64) := none
  ldigest : Option (BitVec 64) := none
  w32 : Nat := 0
  w40 : Nat := 0
  cycles : Nat := 0
  late : Bool := false
deriving DecidableEq, Repr

/-- Its 64 bytes: in confidential mode digests only as keyed MACs. -/
def Mach.adaptBytes (m : Mach) (r : AdaptResult) : List Byte :=
  padTo 64 (leBytes 1 r.op ++ leBytes 1 r.status ++ leBytes 2 r.tag ++ leBytes 4 r.version ++ leBytes 4 r.parent ++ leBytes 4 r.nlab
    ++ leBytes 8 ((r.wdigest.map (m.reported r.version 0xFFFE)).getD 0).toNat
    ++ leBytes 8 ((r.ldigest.map (m.reported r.version 0xFFFD)).getD 0).toNat
    ++ leBytes 8 r.w32 ++ leBytes 8 r.w40 ++ leBytes 8 r.cycles ++ leBytes 1 (b2n r.late + 2 * b2n m.sec.conf))

/-- A result into the adaptation result queue: the peer of the command queue. -/
def Mach.adaptReply (m : Mach) (r : AdaptResult) : Mach :=
  match m.queueOfType 9 with
  | some q => m.qReply q (m.adaptBytes r)
  | none => m

/-- A result that says no more than its status. -/
def Mach.adaptRefuse (m : Mach) (op status tag v : Nat) : Mach := m.adaptReply { op := op, status := status, tag := tag, version := v }

/-- A result about a version. -/
def Mach.adaptAbout (m : Mach) (op tag : Nat) (x : VersionSlot) : Mach :=
  m.adaptReply { op := op, status := 0, tag := tag, version := x.num, parent := x.parent, nlab := m.adapt.labelCount, wdigest := some x.wdigest }

/-! ### Labels (R253-R256) -/

/-- Where a feature entry or a position of the label store lies (R405). -/
def Mach.featAddr (m : Mach) (a : AdaptSec) (idx : Nat) : Nat := m.ddrPlace none a.featOff + idx % a.nf * a.fsz * 64
def Mach.labAddr (m : Mach) (a : AdaptSec) (k : Nat) : Nat := m.ddrPlace none a.labOff + k * a.fsz * 64

/-- Bytes of a store, which lies in the context's persistent region (R269); nothing is read or written outside it. -/
def Mach.storeBytes (m : Mach) (at_ n : Nat) : List Byte := if m.inPersistent at_ n then m.ddrBytes at_ n else zeros n
def Mach.setStore (m : Mach) (at_ : Nat) (bs : List Byte) : Mach := if m.inPersistent at_ bs.length then m.setDdrBytes at_ bs else m

/-- The bytes of a position from 8 on in its first granule (R255). -/
def labelTail (cls weight : Nat) : List Byte := leBytes 1 cls ++ [0#8] ++ leBytes 2 weight ++ zeros 52

/-- LDIGEST: the CRC over 16 bytes per position of the store (R271): what the position holds there, zeros when it is empty. DEDUCED
(log 37). -/
def Mach.labelDigest (m : Mach) (a : AdaptSec) : BitVec 64 :=
  crc64 ((List.range a.nmax).flatMap fun k => match m.adapt.labels[k]? with
    | some (some _) => m.storeBytes (m.labAddr a k) 16
    | _ => zeros 16)

/-- What a label record does to the store: the code, the position concerned and the module (R254). -/
def Mach.handleLabel (m : Mach) (b : List Byte) : Nat × Nat × Mach :=
  let idx := fieldAt b 0 6
  let cls := fieldAt b 6 1
  let weight := fieldAt b 8 2
  let nowhere := 0xFFFFFFFF
  match m.section with
  | none => (7, nowhere, m)
  | some a =>
    let found := m.adapt.labels.findIdx? fun l => match l with
      | some x => x.idx.toNat == idx
      | none => false
    let setAt := fun (m : Mach) (k : Nat) (l : Option LabelPos) => ({ m with adapt := { m.adapt with labels := setNth m.adapt.labels k l } } : Mach)
    let new : LabelPos := { idx := BitVec.ofNat 48 idx, cls := BitVec.ofNat 8 cls, weight := BitVec.ofNat 16 weight }
    let entry := m.storeBytes (m.featAddr a idx) (64 * a.fsz)
    if (slice b 7 1 ++ slice b 10 6).any (· != 0) ∨ a.ncls ≤ cls then (5, nowhere, m)
    else if weight = 0 then
      match found with
      | some k => (2, k, setAt m k none)
      | none => (2, nowhere, m)
    else match found with
      | some k => (1, k, (setAt m k (some new)).setStore (m.labAddr a k + 8) (labelTail cls weight))
      | none =>
        if fieldAt entry 0 6 ≠ idx then (3, nowhere, m)
        else if fieldAt entry 6 2 % 16 ≠ 0 then (4, nowhere, m)
        else if a.nmax ≤ m.adapt.labels.length then (6, nowhere, m)
        else
          let k := m.adapt.labels.length
          let m : Mach := { m with adapt := { m.adapt with labels := m.adapt.labels ++ [some new] } }
          (0, k, m.setStore (m.labAddr a k) (entry.take 8 ++ labelTail cls weight ++ entry.drop 64))

/-- LABEL: PREP handles the next label record and writes its result; a run or a version change keeps label records waiting (R256). -/
def adaptLabel (ent : BitVec 128) (m : Mach) : Mach :=
  match (List.range 8192).find? fun q => m.qReady q 7 with
  | none => m
  | some q =>
    if m.fabricHeld then m
    else
      let b := leBytes 16 ent.toNat
      let (code, k, m) := (m.qTake q).handleLabel b
      m.qReply q (b.take 6 ++ leBytes 1 code ++ [0#8] ++ leBytes 4 m.adapt.labelCount ++ leBytes 4 k)

def execAdaptLabel (ent : BitVec 128) (s : State) : Host.Outcome State Fault Refusal := done s (adaptLabel ent s.m)

/-! ### Taking a command (R272, R273) -/

/-- A command is taken from its queue; NOSECT without a section, RANGE for a reserved OP, a field that its OP does not use, or a flag of
another OP. An entry with the OP of another row is that row's. -/
def Mach.adaptTake (m : Mach) (ent : Slot) (op : Nat) (used : List (Nat × Nat)) (flags : Nat)
    (k : AdaptSec → List Byte → Nat → Mach → Mach) : Mach :=
  match m.queueOfType 9 with
  | none => m
  | some q =>
    if !m.qReady q 9 then m
    else
      let b := slotBytes ent
      let tag := fieldAt b 2 2
      let code := fieldAt b 0 1
      if code ≠ op ∧ 1 ≤ code ∧ code ≤ 7 then m
      else
      let m := m.qTake q
      match m.section with
      | none => m.adaptRefuse code 2 tag 0
      | some a =>
        if code ≠ op ∨ flags < fieldAt b 1 1 ∨ !reservedZero b used then m.adaptRefuse code 0xB tag 0 else k a b tag m

/-- The run that a RUN or SELECT begins, waiting for P_STOP with intake closed from there on (R258). -/
def Mach.beginRun (m : Mach) (isRun : Bool) (b : List Byte) (tag v : Nat) : Mach :=
  let p := BitVec.ofNat 32 (fieldAt b 8 4)
  let r : AdaptRun :=
    { isRun := isRun, tag := BitVec.ofNat 16 tag, keep := (fieldAt b 1 1).testBit 0, nosel := (fieldAt b 1 1).testBit 1, version := v,
      parent := m.adapt.active, pStop := p, pResume := BitVec.ofNat 32 (fieldAt b 12 4), lr := BitVec.ofNat 32 (fieldAt b 16 4),
      phase := .waitStop, late := false, status := 0, nlab := m.adapt.labelCount, tStart := 0, cyc4 := 0, cycles := 0, ring := 0,
      serial := 0, slot := 0, ldigest := 0, wdigest := 0 }
  { m with adapt := { m.adapt with run := some r }, wv := { m.wv with drain := some (p, none) } }

/-- A weave command, a switch or another run is under way (R257, R490). -/
def Mach.runBusy (m : Mach) : Bool := m.fabricHeld || m.wv.cmd.isSome

/-- RUN. -/
def adaptRun (ent : Slot) (m : Mach) : Mach :=
  m.adaptTake ent 1 [(8, 12)] 3 fun _ b tag m =>
    if m.runBusy then m.adaptRefuse 1 1 tag 0
    else if m.adapt.labelCount = 0 then m.adaptRefuse 1 3 tag 0
    else if !(m.adapt.slots.any Option.isNone) then m.adaptRefuse 1 4 tag 0
    else m.beginRun true b tag m.nextVersion

def execAdaptRun (ent : Slot) (s : State) : Host.Outcome State Fault Refusal := done s (adaptRun ent s.m)

/-- SELECT. -/
def adaptSelect (ent : Slot) (m : Mach) : Mach :=
  m.adaptTake ent 2 [(4, 12)] 0 fun a b tag m =>
    let v := fieldAt b 4 4
    if m.runBusy then m.adaptRefuse 2 1 tag v
    else if (m.version a v).isNone then m.adaptRefuse 2 5 tag v
    else m.beginRun false b tag v

def execAdaptSelect (ent : Slot) (s : State) : Host.Outcome State Fault Refusal := done s (adaptSelect ent s.m)

/-- The boot version of the ACTIVE weave in flash. -/
def Mach.commitHead (m : Mach) (h : Option SealedHead) : Mach :=
  m.commitBanks fun c => { c with active := c.active.map fun k => { k with head := h } }

/-- COMMIT: the version, sealed, becomes the boot version of its weave in flash; version 0 removes the one there (R267, R270). Without an
identity there is no key to seal with: FLASH. -/
def adaptCommit (ent : Slot) (m : Mach) : Mach :=
  m.adaptTake ent 3 [(4, 4)] 0 fun a b tag m =>
    let v := fieldAt b 4 4
    match m.version a v with
    | none => m.adaptRefuse 3 5 tag v
    | some x =>
      if v = 0 then (m.commitHead none).adaptAbout 3 tag x
      else match m.sealHead m.adapt.weave x with
        | (some h, m) => (m.commitHead (some h)).adaptAbout 3 tag x
        | (none, m) => m.adaptRefuse 3 0xA tag v

def execAdaptCommit (ent : Slot) (s : State) : Host.Outcome State Fault Refusal := done s (adaptCommit ent s.m)

/-- DISCARD frees a slot; the active version, and a run's parent and target, are not discarded (R273). Version 0 has no slot: NOVER. -/
def adaptDiscard (ent : Slot) (m : Mach) : Mach :=
  m.adaptTake ent 4 [(4, 4)] 0 fun _ b tag m =>
    let v := fieldAt b 4 4
    let inRun := match m.adapt.run with
      | some r => v == r.parent || v == r.version
      | none => false
    if v = m.adapt.active || inRun then m.adaptRefuse 4 8 tag v
    else match m.adapt.slotOf v with
      | none => m.adaptRefuse 4 5 tag v
      | some x =>
        let slots := m.adapt.slots.map fun s => match s with
          | some y => if y.num = v then none else some y
          | none => none
        ({ m with adapt := { m.adapt with slots := slots } } : Mach).adaptAbout 4 tag x

def execAdaptDiscard (ent : Slot) (s : State) : Host.Outcome State Fault Refusal := done s (adaptDiscard ent s.m)

/-- A weight package of a head under a fresh key (R411): header, segment entries, sealed segments. -/
def packHead (key id : BitVec 256) (bind : BitVec 256) (ivs : List (List Byte)) (a : AdaptSec) (x : VersionSlot) : List Byte :=
  let n := a.tensors.length
  let total := 128 + 32 * n + (a.tensors.map fun t => 64 * t.grans + 16).foldl (· + ·) 0
  let hdr := padTo 128 (ascii "LP9A" ++ [1#8, 0#8] ++ leBytes 2 n ++ (bytes32 id).take 16 ++ bytes32 bind ++ leBytes 8 total)
  let entry := fun (i : Nat) (t : HeadTensor) =>
    [0#8] ++ leBytes 1 t.stack ++ zeros 2 ++ leBytes 4 t.grans ++ leBytes 8 t.gran ++ padTo 12 (ivs.getD i []) ++ zeros 4
  let body := a.tensors.mapIdx fun i t =>
    let plain := (List.range t.grans).flatMap fun g => slotBytes ((x.data.lookup (t.stack * 2 ^ 22 + t.gran + g)).getD 0)
    let c := gcmSeal key (padTo 12 (ivs.getD i [])) (hdr ++ entry i t) plain
    c.1 ++ padTo 16 c.2
  hdr ++ (a.tensors.mapIdx entry).flatten ++ body.flatten

/-- DRBG output, so many times. -/
def Mach.drawIvs (m : Mach) : Nat → List (List Byte) × Mach
  | 0 => ([], m)
  | n + 1 =>
    let (v, m1) := m.draw
    let (rest, m2) := m1.drawIvs n
    (leBytes 12 v.toNat :: rest, m2)

/-- EXPORT: a package of the version and its blob for the owner key of the resident context (R270, R409, R411). The spec does not say
where they are put: they stand in `exported`, DESIGN CHOICE (log 38); without an owner key or an identity the status is FAULT. -/
def adaptExport (ent : Slot) (m : Mach) : Mach :=
  m.adaptTake ent 5 [(4, 4)] 0 fun a b tag m =>
    let v := fieldAt b 4 4
    match m.version a v with
    | none => m.adaptRefuse 5 5 tag v
    | some x => match m.sec.resident, m.sec.resident.bind m.ctx, m.sec.sdev with
      | some c, some ctx, some sd =>
        let (k, m) := m.draw
        let (id, m) := m.draw
        let (ivs, m) := m.drawIvs a.tensors.length
        let key : BitVec 256 := k.setWidth 256
        let (blob, m) := m.makeBlob 2 (zeros 32) (bytes32 m.adapt.weave) (pkOf (slice ctx.owner 64 64)) (bytes32 key) 0 c
          (alk sd (m.sec.m 0) m.sec.svn)
        let pkg := packHead key (id.setWidth 256) m.adapt.weave ivs a x
        ({ m with adapt := { m.adapt with exported := blob ++ pkg } } : Mach).adaptAbout 5 tag x
      | _, _, _ => m.adaptRefuse 5 9 tag v

def execAdaptExport (ent : Slot) (s : State) : Host.Outcome State Fault Refusal := done s (adaptExport ent s.m)

/-- The label store is emptied, and CLEAR is answered. -/
def Mach.clearLabels (m : Mach) (tag : Nat) : Mach :=
  ({ m with adapt := { m.adapt with labels := [] } } : Mach).adaptRefuse 6 0 tag 0

/-- CLEAR empties the label store; while a RUN or SELECT is in progress it waits for its end (R273). -/
def adaptClear (ent : Slot) (m : Mach) : Mach :=
  m.adaptTake ent 6 [] 0 fun _ _ tag m =>
    if m.adapt.run.isSome then { m with adapt := { m.adapt with waitingClear := m.adapt.waitingClear ++ [BitVec.ofNat 16 tag] } }
    else m.clearLabels tag

def execAdaptClear (ent : Slot) (s : State) : Host.Outcome State Fault Refusal := done s (adaptClear ent s.m)

/-- STATUS (R274). -/
def adaptStatus (ent : Slot) (m : Mach) : Mach :=
  m.adaptTake ent 7 [] 0 fun a _ tag m =>
    let x := m.activeVersion a
    let mask := (m.adapt.slots.mapIdx fun i s => if s.isSome then 2 ^ i else 0).foldl (· + ·) 0
    let boot := (m.bootVersion.map fun b => b.num).getD 0
    m.adaptReply { op := 7, status := 0, tag := tag, version := m.adapt.active, parent := x.parent, nlab := m.adapt.labelCount,
                   wdigest := some x.wdigest, w32 := mask + boot * 2 ^ 32 }

def execAdaptStatus (ent : Slot) (s : State) : Host.Outcome State Fault Refusal := done s (adaptStatus ent s.m)

/-! ### Inside a run (R259-R264) -/

/-- The header under which the adaptation programs are in the fabric: that of the weave they belong to, with their own tiles. -/
def Mach.runHdr (m : Mach) (a : AdaptSec) : Weave :=
  match m.banks.active with
  | some b => adaptWeave a (weaveHdr b.img)
  | none => adaptWeave a (weaveHdr [])

/-- The run with a change. -/
def Mach.setRun (m : Mach) (r : AdaptRun) : Mach := { m with adapt := { m.adapt with run := some r } }

/-- The section is loaded: the first free slot takes the masters and the optimiser state that the run begins with (R264, log 124), T_START,
the programs start, and the run header goes to its slot with OVER (R259 step 4, R262). -/
def Mach.sectionLoaded (m : Mach) (a : AdaptSec) (r : AdaptRun) : Mach :=
  let start := nextAlign m.cyc
  let r := { r with slot := (m.adapt.slots.findIdx? Option.isNone).getD 0 }
  let m := m.setRun r
  let at_ := m.versionAt r.slot
  let m := m.setStore at_.1 (padTo at_.2 (m.activeVersion a).masters)
  let m := (m.loadFabric (m.runHdr a) start true).setRun
    { r with phase := .running, tStart := m.tb1, cyc4 := m.cyc, nlab := m.adapt.labelCount, ldigest := m.labelDigest a }
  let hdr := padTo 64 (leBytes 4 r.version ++ leBytes 4 m.adapt.labelCount ++ leBytes 4 r.lr.toNat)
  { m with flights := m.flights ++
      [{ writer := 0xC002, target := .slot a.hdrTile a.hdrSlot, data := some (bytesSlot hdr), ovr := true, gen := none, issue := m.cyc,
         due := m.cyc, blocked := false, owner := .none }] }

/-- Every ADAPT tile has halted. -/
def Mach.allHalted (m : Mach) (a : AdaptSec) : Bool :=
  ((m.runHdr a).bodies 1).all fun b => (m.tile (progTile b)).mode == .halt
/-- Every plan of the programs is at its pass limit, with nothing in flight. -/
def Mach.plansDone (m : Mach) (a : AdaptSec) : Bool :=
  ((m.runHdr a).bodies 4).all fun b =>
    let e := m.engine (fieldAt b 0 1)
    e.inflight.isEmpty && e.passes != 0 && decide (e.passes ≤ e.pass)

/-- The descriptor of a position (R262): index and class as RF0-RF7, or F1 alone for an empty one. -/
def runDesc (l : Option LabelPos) : Slot :=
  match l with
  | some x => descSlot x.idx.toNat (x.cls.toNat * 2 ^ 8)
  | none => descSlot (2 ^ 48 - 1) 2

/-- EPOCH_START: PREP waits on the release latch; once granted it writes the descriptors of an epoch, one for each position of the
store. No epoch follows the one in which every ADAPT tile has halted (R262). -/
def epochStart (m : Mach) : Mach :=
  match m.adapt.run, m.adapt.sec with
  | some r, some a =>
    if r.phase ≠ .running ∨ r.status ≠ 0 ∨ m.allHalted a then m
    else
      let (m, ok) := m.gate (.prep 0) a.relLatch 1
      if !ok then m
      else
        let fl := (List.range a.nmax).map fun k =>
          ({ writer := 0xC002, target := .slot a.ringTile ((a.ringSlot + (r.ring + k) % a.ringLen) % 8192),
             data := some (runDesc ((m.adapt.labels[k]?).getD none)), ovr := false, gen := none, issue := m.cyc, due := m.cyc, blocked := false,
             owner := .none } : Flight)
        { m with flights := m.flights ++ fl }.setRun { r with ring := r.ring + a.nmax }
  | _, _ => m

def execEpochStart (s : State) : Host.Outcome State Fault Refusal := done s (epochStart s.m)

/-- The adaptation programs are taken from the fabric, and the inference weave is to be loaded again. -/
def Mach.endPrograms (m : Mach) (a : AdaptSec) (r : AdaptRun) : Mach :=
  let m := m.freeFabric (m.runHdr a)
  let m : Mach := { m with waits := m.waits.filter fun (w : Wait) => w.who != Waiter.prep 0 }
  m.setRun { r with phase := .reloading }

/-- A slip of an ADAPT tile, or a lease revoked (R263). -/
def Mach.runTainted (m : Mach) (a : AdaptSec) : Bool :=
  ((m.runHdr a).bodies 1).any (fun b => (m.tile (progTile b)).slips != 0 || m.revoked.contains (.tile (Fin.ofNat 576 (progTile b))))
    || ((m.runHdr a).bodies 4).any fun b => m.revoked.contains (.engine (Fin.ofNat 32 (fieldAt b 0 1)))

/-- The new version in its slot: the head as it stands in the stacks, and the masters and optimiser state that the plan wrote there
(R259, R265). -/
def Mach.createVersion (m : Mach) (a : AdaptSec) (r : AdaptRun) : Mach :=
  let at_ := m.versionAt r.slot
  let x : VersionSlot :=
    { num := r.version, parent := r.parent, nlab := r.nlab, wdigest := m.headDigest a, data := headData m.mem.stack a,
      masters := m.storeBytes at_.1 at_.2 }
  { m with adapt := { m.adapt with slots := setNth m.adapt.slots r.slot (some x) } }

/-- The TB1 by which step 6 is to be reached (R263). -/
def AdaptRun.deadline (r : AdaptRun) (a : AdaptSec) : Nat := r.tStart + ceilDiv (5 * a.wRun) 7 + 1000000

/-- RUN_END: the programs are through, or a failure has stopped them: the checks of R263, then the version and its WDIGEST, or the way
back to the version before. A run that comes through past its deadline has failed. -/
def runEnd (m : Mach) : Mach :=
  match m.adapt.run, m.adapt.sec with
  | some r, some a =>
    if r.phase ≠ .running then m
    else
      let through := m.allHalted a && m.plansDone a
      let status := if r.status ≠ 0 then r.status else if m.runTainted a then 6 else if decide (r.deadline a < m.tb1) then 7 else 0
      if status ≠ 0 then m.endPrograms a { r with status := status }
      else if !through then m
      else
        let r := { r with cycles := m.cyc - r.cyc4, wdigest := m.headDigest a }
        let m := m.createVersion a r
        let m : Mach := if r.keep then m else { m with adapt := { m.adapt with labels := [] } }
        m.endPrograms a r
  | _, _ => m

def execRunEnd (s : State) : Host.Outcome State Fault Refusal := done s (runEnd s.m)

/-- RUN_TIMEOUT: the run fails with TIMEOUT once ⌈5 W_RUN / 7⌉ + 1 000 000 ns have passed since T_START. -/
def runTimeout (m : Mach) : Mach :=
  match m.adapt.run, m.adapt.sec with
  | some r, some a =>
    if r.phase = .running ∧ r.deadline a ≤ m.tb1 then
      m.endPrograms a { r with status := if r.status = 0 then 7 else r.status }
    else m
  | _, _ => m

def execRunTimeout (s : State) : Host.Outcome State Fault Refusal := done s (runTimeout s.m)

/-! ### The reload (R259 steps 8 and 9, R260) -/

/-- The inference weave is loaded again with the head of the version that is active from now on; stack data outside the head copies is
kept, and acceptance resumes at P_RESUME or here. -/
def Mach.reloaded (m : Mach) (a : AdaptSec) (r : AdaptRun) : Mach :=
  match m.banks.active with
  | none => m.setRun { r with phase := .waitResume }
  | some b =>
    let was := m.adapt.active
    let now := if r.isRun then (if r.status = 0 ∧ !r.nosel then r.version else was) else r.version
    let m : Mach := { m with adapt := { m.adapt with active := now } }
    let keep := m.mem.stack
    let ecc := m.mem.eccStack
    let head := m.activeVersion a
    let m := m.loadWeave { b with head := none } m.prep.recipe none true
    let m : Mach := { m with
      mem := { m.mem with stack := keep, eccStack := ecc },
      prep := { m.prep with
        serial := m.wv.serial - 1,
        parts := m.prep.parts.map fun x => if x.weave = r.serial then { x with weave := m.wv.serial - 1 } else x } }
    let m := m.writeHead head
    let m := if now = was then m else m.measureHead
    let late := m.reached r.pResume
    let resume := if late then m.pos32 m.lotBase else r.pResume
    ({ m with wv := { m.wv with drain := some (r.pStop, some resume) } } : Mach).setRun
      { r with phase := .waitResume, pResume := resume, late := late }

/-- Intake accepts again: the result of the RUN or SELECT is written, and commands that waited for its end are done (R259 step 9,
R273). -/
def Mach.runResult (m : Mach) (r : AdaptRun) : Mach :=
  let m : Mach := { m with adapt := { m.adapt with run := none } }
  let x := m.adapt.sec.bind fun a => m.version a r.version
  let m := m.adaptReply
    { op := if r.isRun then 1 else 2, status := r.status, tag := r.tag.toNat, version := r.version,
      parent := if r.isRun then r.parent else ((x.map fun y => y.parent).getD 0xFFFFFFFF), nlab := if r.isRun then r.nlab else m.adapt.labelCount,
      wdigest := if r.isRun then (if r.status = 0 then some r.wdigest else none) else x.map fun y => y.wdigest,
      ldigest := if r.isRun then some r.ldigest else none, w32 := r.tStart, w40 := m.tb1, cycles := r.cycles, late := r.late }
  let waiting := m.adapt.waitingClear
  let m : Mach := { m with adapt := { m.adapt with waitingClear := [] } }
  waiting.foldl (fun (m : Mach) t => m.clearLabels t.toNat) m

end Sys2Proof.Machine
end

