-- ==== Sys2Proof/Machine/Pos.lean ====
section
/-! DEFINITION. The position block's encoders, position bases, tracking observers, OVERSPEED, the late check and the backstop, and the
part triggers (R275-R286, R299-R301, R309, R310). -/
namespace Sys2Proof.Machine

/-! ### Recipes and bases -/

/-- The recipe that names a base: the one in force, or that of a running weave. -/
def Mach.recipeOn (m : Mach) (b : Bool) : Option Recipe :=
  ((m.prep.recipe.toList ++ (m.wv.running.reverse.filterMap fun w => w.recipe)).filter fun r => r.tb4 == b).head?
/-- A loaded recipe names the base (ENC_STAT.VMAX_SET). -/
def Mach.namesBase (m : Mach) (b : Bool) : Bool := (m.recipeOn b).isSome
/-- Encoder 1 feeds TB4. -/
def encBase (e : Nat) : Bool := e == 1

/-! ### Encoder inputs (R276-R280) -/

/-- The place of a pair (A, B) in the forward sequence 00, 10, 11, 01 (R276). -/
def quadPlace (a b : Bool) : Nat := if a then (if b then 2 else 1) else (if b then 3 else 0)

/-- The step of the raw count between two pairs: none where both inputs change (R276). -/
def quadStep (a b a' b' : Bool) : Option Int :=
  let d := (quadPlace a' b' + 4 - quadPlace a b) % 4
  if d = 0 then some 0 else if d = 1 then some 1 else if d = 3 then some (-1) else none

/-- The reported position after a step of r: it follows with a hysteresis of one count (R278). -/
def hysteresis (p r : Int) : Int := min (max p (r - 1)) r

/-- A signal of the encoder is lost (ENC_STAT.LOS_A, LOS_B, LOS_Z). DEDUCED (log 39): a loss on any receiver holds the count. -/
def Mach.encLost (m : Mach) (e : Nat) : Bool := m.rbits (rEncStat e) 2 0 != 0

/-- A counted step of an encoder. -/
def Mach.countStep (m : Mach) (e : Nat) (step : Int) (close : Bool) : Mach :=
  let x := m.pos.enc (encBase e)
  let s := if m.bit (rEncCfg e) 1 then -step else step
  let r := x.r + s
  let m := ((m.setEnc (encBase e) { x with r := r, p := hysteresis x.p r }).putBit (rEncStat e) 3 (decide (s < 0))).lotClose
  if close then m.raiseEnc e 1 else m

/-- ENCODER_STEP: the accepted pair changes (R276-R279). With decoding off, or during a loss, the count does not change; both inputs changing
is reported during a loss too. -/
def encoderStep (e : Nat) (a b close : Bool) (m : Mach) : Mach :=
  let x := m.pos.enc (encBase e)
  let step := quadStep x.a x.b a b
  let m := m.setEnc (encBase e) { x with a := a, b := b }
  if !m.bit (rEncCfg e) 0 || step = some 0 then m
  else match step with
    | none => m.raiseEnc e 0
    | some s => if m.encLost e then m else m.countStep e s close

def execEncoderStep (e : Fin 2) (a b close : Bool) (s : State) : Host.Outcome State Fault Refusal := done s (encoderStep e a b close s.m)

/-- The bit of ENC_STAT that reports the loss of a receiver. -/
def losBit : EncPin → Nat
  | .a => 0
  | .b => 1
  | .z => 2

/-- LOS (R279). -/
def los (e : Nat) (pin : EncPin) (m : Mach) : Mach := (m.putBit (rEncStat e) (losBit pin) true).raiseEnc e 2

def execLos (e : Fin 2) (pin : EncPin) (s : State) : Host.Outcome State Fault Refusal := done s (los e pin s.m)

/-- LOS_CLEAR (R279). -/
def losClear (e : Nat) (pin : EncPin) (m : Mach) : Mach := m.putBit (rEncStat e) (losBit pin) false

def execLosClear (e : Fin 2) (pin : EncPin) (s : State) : Host.Outcome State Fault Refusal := done s (losClear e pin s.m)

/-! ### Part triggers (R285, R286) -/

def Mach.ptrig (m : Mach) (t : Nat) : PTrig := (m.pos.trig.lookup t).getD { next := 0, trail := [], lead := none }
def Mach.setPtrig (m : Mach) (t : Nat) (x : PTrig) : Mach :=
  { m with pos := { m.pos with trig := FMap.ins t x (FMap.erase m.pos.trig t) } }

/-- The fields of PT_CFG. -/
def Mach.ptOn (m : Mach) (t src : Nat) : Bool := m.bit (rPtCfg t) 0 && m.rbits (rPtCfg t) 3 2 == src
def Mach.ptBase (m : Mach) (t : Nat) : Bool := m.bit (rPtCfg t) 9
def Mach.ptPorts (m : Mach) (t : Nat) : BitVec 12 := BitVec.ofNat 12 (m.rbits (rPtPorts t) 11 0)

/-- A marker of a generator goes to every port of a mask, under R210. -/
def Mach.deliver (m : Mach) (ports : BitVec 12) (trail : Bool) (pos : BitVec 32) : Mach :=
  (List.range 12).foldl (fun (m : Mach) p => if bitAt ports p then m.marker p false trail 0 pos else m) m

/-- A leading marker of generator t: counted, delivered, and its trailing marker planned at PT_LEN beyond it. -/
def Mach.leadAt (m : Mach) (t : Nat) (pos : BitVec 32) : Mach :=
  let x := m.ptrig t
  let ports := m.ptPorts t
  let tr : PTrail := { pos := pos + m.reg (rPtLen t), tb4 := m.ptBase t, ports := ports }
  ((m.setPtrig t { x with trail := x.trail ++ [tr] }).setReg (rPtCount t) (m.reg (rPtCount t) + 1)).deliver ports false pos

/-- PITCH_MARKER: the position has reached the generator's next target, and the line does not run backward (R285). -/
def pitchMarker (t : Nat) (m : Mach) : Mach :=
  let x := m.ptrig t
  let b := m.ptBase t
  if m.ptOn t 2 && decide (0 ≤ diff32 (m.pos32 b) x.next) && !m.bit (rEncStat (b2n b)) 3 then
    (m.setPtrig t { x with next := x.next + m.reg (rPtPitch t) }).leadAt t x.next
  else m

def execPitchMarker (t : Fin 4) (s : State) : Host.Outcome State Fault Refusal := done s (pitchMarker t s.m)

/-- TRAILING_MARKER: the position has reached the oldest trailing target that it can reach (R285). -/
def trailingMarker (t : Nat) (m : Mach) : Mach :=
  let x := m.ptrig t
  match x.trail.find? fun k => decide (0 ≤ diff32 (m.pos32 k.tb4) k.pos) with
  | none => m
  | some k => (m.setPtrig t { x with trail := x.trail.erase k }).deliver k.ports true k.pos

def execTrailingMarker (t : Fin 4) (s : State) : Host.Outcome State Fault Refusal := done s (trailingMarker t s.m)

/-- INDEX_EDGE: with ZEN the position base is captured and the distance checked; a generator on Z makes its leading marker (R280,
R285). -/
def indexEdge (e : Nat) (m : Mach) : Mach :=
  let x := m.pos.enc (encBase e)
  let m := if m.bit (rEncCfg e) 5 then
      let per : Int := (m.reg (rEncZper e)).toNat
      let wrong := match x.lastCap with
        | none => false
        | some c =>
          let d := diff32 (BitVec.ofInt 32 x.p) (BitVec.ofInt 32 c)
          per != 0 && d != per && d != -per
      let m := (m.setReg64 (rEncZcapLo e) (BitVec.ofInt 64 x.p)).setEnc (encBase e) { x with lastCap := some x.p }
      if wrong then m.raiseEnc e 3 else m
    else m
  (List.range 4).foldl (fun (m : Mach) t => if m.ptOn t 1 && m.ptBase t == encBase e then m.leadAt t (m.pos32 (encBase e)) else m) m

def execIndexEdge (e : Fin 2) (s : State) : Host.Outcome State Fault Refusal := done s (indexEdge e s.m)

/-- A sample group of a loaded recipe uses a generator: it takes part triggers at a port of the generator's mask (R310). -/
def Mach.ptUsed (m : Mach) (t : Nat) : Bool :=
  (m.prep.recipe.toList ++ m.wv.running.filterMap fun w => w.recipe).any fun r =>
    r.groups.any fun g => !g.2.pmark && (g.2.ports.setWidth 12 &&& m.ptPorts t) != 0

/-- The generator starts afresh at PT_START; trailing markers of leading markers already delivered still come. -/
def Mach.ptRestart (m : Mach) (t : Nat) : Mach := m.setPtrig t { m.ptrig t with next := m.reg (rPtStart t), lead := none }

/-- The register that a PT_WRITE names. -/
def ptReg (t : Nat) : PtReg → Nat
  | .cfg => rPtCfg t
  | .pitch => rPtPitch t
  | .len => rPtLen t

/-- The write would leave a fixed-pitch generator with PT_LEN ≥ PT_PITCH (R285). -/
def Mach.ptBad (m : Mach) (t : Nat) : Bool := m.ptOn t 2 && decide ((m.reg (rPtPitch t)).toNat ≤ (m.reg (rPtLen t)).toNat)

/-- PT_WRITE (R285, R310). A change of EN, SRC or BASE starts the generator afresh. -/
def ptWrite (t : Nat) (r : PtReg) (v : W32) (m : Mach) : Mach :=
  if !m.hostUp then m
  else
    let n := m.writeReg (ptReg t r) v
    if m.ptUsed t || n.ptBad t then m.raisePos 8
    else if (m.reg (rPtCfg t) ^^^ n.reg (rPtCfg t)) &&& 0x20D = 0 then n
    else n.ptRestart t

def execPtWrite (t : Fin 4) (r : PtReg) (v : W32) (s : State) : Host.Outcome State Fault Refusal := done s (ptWrite t r v s.m)

/-! ### Position bases (R281) -/

/-- A spout entry armed on a base is outstanding. -/
def Pos.armedOn (p : Pos) (b : Bool) : Bool := p.spouts.any fun e => e.2.tb4 == b

/-- ENC_CMD_LOAD: r and p take ENC_LOAD and the observer starts at it, or the load is refused (R281, R283). -/
def encCmdLoad (e : Nat) (m : Mach) : Mach :=
  let b := encBase e
  if !m.hostUp then m
  else if m.namesBase b || m.pos.armedOn b then m.raiseEnc e 5
  else
    let v := (m.reg64 (rEncLoadLo e)).toInt
    m.setEnc b { m.pos.enc b with r := v, p := v, d := 0, u := 0, w := 0, pUpd := v }

def execEncCmdLoad (e : Fin 2) (s : State) : Host.Outcome State Fault Refusal := done s (encCmdLoad e s.m)

/-! ### The tracking observer (R283, R284) -/

/-- A value saturated to w signed bits. -/
def satS (w : Nat) (x : Int) : Int := max (-(2 ^ (w - 1) : Int)) (min (2 ^ (w - 1) - 1) x)

/-- ENC_CFG.DIV. -/
def Mach.encDiv (m : Mach) (b : Bool) : Nat := m.rbits (rEncCfg (b2n b)) 10 8
/-- The observer's interval T in ns. -/
def Mach.encT (m : Mach) (b : Bool) : Nat := 100 * 2 ^ m.encDiv b

/-- ENC_CFG_WRITE: ignored while a recipe names the base; a change of DIV sets d, u and w to 0 (R283, R310). -/
def encCfgWrite (e : Nat) (v : W32) (m : Mach) : Mach :=
  let b := encBase e
  if !m.hostUp then m
  else if m.namesBase b then m.raiseEnc e 6
  else
    let n := m.writeReg (rEncCfg e) v
    if n.encDiv b = m.encDiv b then n else n.setEnc b { n.pos.enc b with d := 0, u := 0, w := 0 }

def execEncCfgWrite (e : Fin 2) (v : W32) (s : State) : Host.Outcome State Fault Refusal := done s (encCfgWrite e v s.m)

/-- OBS_G3_WRITE: the three gains as they stand take effect at the next update (R283). -/
def obsG3Write (e : Nat) (v : W32) (m : Mach) : Mach :=
  let b := encBase e
  if !m.hostUp then m
  else if m.namesBase b then m.raiseEnc e 6
  else
    let m := m.setReg (rObsG3 e) v
    m.setEnc b { m.pos.enc b with gHeld := some ((m.reg (rObsG1 e)).toNat, (m.reg (rObsG2 e)).toNat, v.toNat) }

def execObsG3Write (e : Fin 2) (v : W32) (s : State) : Host.Outcome State Fault Refusal := done s (obsG3Write e v s.m)

/-- One update of an observer at TB1 = now (R283). -/
def Enc.update (x : Enc) (now : Nat) : Enc :=
  let g := x.gHeld.getD (x.g1, x.g2, x.g3)
  let dp := diff32 (BitVec.ofInt 32 x.p) (BitVec.ofInt 32 x.pUpd)
  let dq := satS 64 (x.d + x.u + x.w / 2 - dp * 2 ^ 40)
  let e := satS 64 (-dq)
  { x with
    d := satS 64 (dq + g.1 * e / 2 ^ 32), u := satS 64 (x.u + x.w + g.2.1 * e / 2 ^ 40), w := satS 64 (x.w + g.2.2 * e / 2 ^ 48),
    g1 := g.1, g2 := g.2.1, g3 := g.2.2, gHeld := none, tUpd := now, pUpd := x.p }

/-- OBS_SPEED, OBS_ACCEL and OBS_DEV of an observer (R284). -/
def Enc.speed (x : Enc) (div : Nat) : Int := satS 32 ((x.u * 10 ^ 7).tdiv (2 ^ (40 + div)))
def Enc.accel (x : Enc) (div : Nat) : Int := satS 32 ((x.w * 10 ^ 14).tdiv (2 ^ (48 + 2 * div)))
def Enc.dev (x : Enc) : Int := satS 32 (x.d / 2 ^ 24)

/-- OBS_SPEED of a base, ct/s. -/
def Mach.obsSpeed (m : Mach) (b : Bool) : Int := (m.reg (rObsSpeed (b2n b))).toInt

/-- OVERSPEED is raised: status, error, count, and every outstanding sample and waiting marker of the base notes it (R299, R301). -/
def Mach.raiseOvs (m : Mach) (b : Bool) : Mach :=
  let e := b2n b
  let parts := m.prep.parts.map fun p => if m.baseOf p.weave == b then { p with ovs := true } else p
  let markers := m.prep.markers.map fun k => if b then { k with ovs4 := true } else { k with ovs3 := true }
  ((({ m with prep := { m.prep with parts := parts, markers := markers } }.putBit (rEncStat e) 4 true).inc (rEncOvsCnt e))).raiseEnc e 4

/-- OBSERVER_UPDATE (R283, R284, R299). -/
def observerUpdate (e : Nat) (m : Mach) : Mach :=
  let b := encBase e
  let div := m.encDiv b
  let x := (m.pos.enc b).update m.tb1
  let m := (((m.setEnc b x).setReg (rObsSpeed e) (BitVec.ofInt 32 (x.speed div))).setReg (rObsAccel e) (BitVec.ofInt 32 (x.accel div))).setReg
    (rObsDev e) (BitVec.ofInt 32 x.dev)
  match m.recipeOn b with
  | none => m
  | some r => if r.vMax < (x.speed div).natAbs ∧ !m.ovs b then m.raiseOvs b else m

def execObserverUpdate (e : Fin 2) (s : State) : Host.Outcome State Fault Refusal := done s (observerUpdate e s.m)

/-- OVERSPEED_CLEAR: the speed is at or below V_MAX × 63/64, and the command says that it has been for 1 ms (R299). -/
def overspeedClear (e : Nat) (m : Mach) : Mach :=
  let b := encBase e
  let low := match m.recipeOn b with
    | none => true
    | some r => decide (64 * (m.obsSpeed b).natAbs ≤ 63 * r.vMax)
  if low then m.putBit (rEncStat e) 4 false else m

def execOverspeedClear (e : Fin 2) (s : State) : Host.Outcome State Fault Refusal := done s (overspeedClear e s.m)

/-- The estimated position at a TB1 time, in units of 2^-40 ct (R284). -/
def Mach.xq (m : Mach) (b : Bool) (t : Int) : Int :=
  let x := m.pos.enc b
  x.pUpd * 2 ^ 40 + x.d + x.u * (t - x.tUpd) / m.encT b

/-- A field-input edge reaches the position block with t_e and t_a: generators on that input make their markers at the observer's
estimate, or, more than 100 µs late, at the position at arrival (R285, R286). -/
def Mach.inputMarker (m : Mach) (i : Nat) (level : Bool) (te ta : Int) (late : Bool) : Mach :=
  let old := late || decide (100000 < ta - te)
  let hit := fun (m : Mach) t => m.ptOn t 0 && m.rbits (rPtCfg t) 7 4 == i
  let one := fun (m : Mach) (t : Nat) =>
    if hit m t then
      let b := m.ptBase t
      let x := m.ptrig t
      let pos := if old then m.pos32 b
        else BitVec.ofInt 32 ((m.xq b ta - (m.pos.enc b).u * (ta - te) / m.encT b) / 2 ^ 40)
      if level != m.bit (rPtCfg t) 8 then
        ((m.setPtrig t { x with lead := some (m.ptPorts t) }).setReg (rPtCount t) (m.reg (rPtCount t) + 1)).deliver (m.ptPorts t) false pos
      else match x.lead with
        | some ports => (m.setPtrig t { x with lead := none }).deliver ports true pos
        | none => m
    else m
  let used := (List.range 4).any (hit m)
  let m := (List.range 4).foldl one m
  if old && used then m.raisePos 9 else m

/-! ### Late samples (R166, R300, R301) -/

/-- A part's recipe and the header of its weave. -/
def Mach.contractOf (m : Mach) (p : Part) : Option (Recipe × WeaveHdr) :=
  match m.recipeOf p.weave, m.weaveOf p.weave with
  | some r, some w => some (r, w.hdr)
  | _, _ => none

/-- N(t) at a speed v in ct/s (R300). -/
def nCounts (v t : Nat) : Nat := ceilDiv (v * t) (10 ^ 9)

/-- The late check of one sample (R300). -/
def Mach.isLate (m : Mach) (p : Part) : Bool :=
  match m.contractOf p with
  | none => false
  | some (r, h) =>
    let v := (m.obsSpeed r.tb4).toNat
    let tw := ceilDiv (t7Of h r.tPrep) 7
    let lim : Int := (r.d : Int) - marginOf r.vMax
    match p.tl with
    | none => decide (lim ≤ ((r.cClose + nCounts v tw + nCounts v 3000 : Nat) : Int))
    | some tl => decide (lim ≤ diff32 (m.pos32 r.tb4) p.pt + ((nCounts v (tl + tw - m.tb1) + nCounts v 3000 : Nat) : Int))

/-- LATE_CHECK: while OVERSPEED is raised, outstanding samples that are late get their records, in index order (R300). -/
def lateCheck (m : Mach) : Mach :=
  m.prep.outstanding.foldl (fun (m : Mach) p =>
    if m.ovs (m.baseOf p.weave) && m.isLate p then ((m.commitRecord p Ballot.none .late).inc rPosLate).raisePos 3 else m) m

def execLateCheck (s : State) : Host.Outcome State Fault Refusal := done s (lateCheck s.m)

/-- BACKSTOP: an outstanding sample whose position base has reached its backstop position gets its record (R166, R301). -/
def backstop (idx : BitVec 48) (m : Mach) : Mach :=
  match m.prep.part idx with
  | none => m
  | some p => match m.recipeOf p.weave with
    | none => m
    | some r =>
      if p.accepted && decide ((r.d : Int) - marginOf r.vMax ≤ diff32 (m.pos32 r.tb4) p.pt) then
        m.commitRecord p Ballot.none (if p.ovs then .late else .slip)
      else m

def execBackstop (idx : BitVec 48) (s : State) : Host.Outcome State Fault Refusal := done s (backstop idx s.m)

/-! ### The snapshot (R309) -/

/-- The value of TBn (R303). -/
def Mach.tbase (m : Mach) (n : Nat) : BitVec 64 :=
  if n = 0 then BitVec.ofNat 64 m.tb0 else if n = 1 then BitVec.ofNat 64 m.tb1 else if n = 2 then BitVec.ofNat 64 m.tb2
  else BitVec.ofInt 64 (m.tbp (n == 4))

/-- POS_SNAP_CAPTURE. -/
def posSnapCapture (m : Mach) : Mach :=
  if !m.hostUp then m
  else (List.range 5).foldl (fun (n : Mach) k => n.setReg64 (rPosSnapTbLo k) (m.tbase k)) m

def execPosSnapCapture (s : State) : Host.Outcome State Fault Refusal := done s (posSnapCapture s.m)

end Sys2Proof.Machine
end

