-- ==== Sys2Proof/Machine/Field.lean ====
section
/-! DEFINITION. The isolated 24 V field section (R311-R336): the module side, the frames on the two channels, and the field-side
controller. -/
namespace Sys2Proof.Machine

/-! ### Frames (R323, R324, R328) -/

/-- The CRC-16 of a frame's bits 47 down to 0 (R323). -/
def crc16 (v : BitVec 48) : BitVec 16 :=
  (List.range 48).foldl (fun (r : BitVec 16) i =>
    if xor (bitAt r 15) (bitAt v (47 - i)) then (r <<< 1) ^^^ 0x1021#16 else r <<< 1) 0xFFFF#16

/-- A frame with its CRC. -/
def frameOf (v : Nat) : BitVec 64 :=
  let b := BitVec.ofNat 48 v
  crc16 b ++ b

/-- A frame's CRC is correct. -/
def frameOk (f : BitVec 64) : Bool := decide (bits f 63 48 = (crc16 (f.setWidth 48)).toNat)

/-- A configuration frame (R324). -/
def cfgFrame (w : BitVec 8 × BitVec 16) : BitVec 64 := frameOf (w.2.toNat * 2 ^ 32 + w.1.toNat * 2 ^ 24 + 2 ^ 23)

/-- S_k (R322). -/
def slotStart (k : Nat) : Nat := 400 * k

/-! ### The module side: commanded states and configuration writes (R320, R327, R334) -/

def Mach.setFldSt (m : Mach) (f : Fld) : Mach := { m with fld := f }

/-- The outputs that the spout scheduler commands, SPT_OUT bits 8-23 (R293). -/
def Pos.outMask (p : Pos) : BitVec 16 :=
  p.spouts.foldl (fun (a : BitVec 16) e => if e.2.outOn then a ||| (e.2.mask >>> 8).setWidth 16 else a) 0
/-- The strobe outputs that are on, SPT_OUT bits 0-7. -/
def Pos.stbMask (p : Pos) : BitVec 8 :=
  p.spouts.foldl (fun (a : BitVec 8) e => if e.2.stbOn then a ||| e.2.mask.setWidth 8 else a) 0

/-- The commanded state is taken anew; a change is a change instant in its cy(SPOUT) (R320, R326). -/
def Mach.commandOuts (m : Mach) : Mach :=
  let n := m.pos.outMask ||| (m.reg rFldOutHost).setWidth 16
  let f := m.fld
  if n = f.commanded then m
  else
    let t := m.tb1 / 5 * 5
    m.setFldSt { f with commanded := n, changes := f.changes.filter (fun c => c.1 != t) ++ [(t, n)] }

/-- A configuration write joins the queue, and CFG_PEND stays 1 until it is echoed (R327, R334). -/
def Mach.queueCfg (m : Mach) (a : Nat) (d : BitVec 16) : Mach :=
  let w := (BitVec.ofNat 8 a, d)
  (m.setFldSt { m.fld with cfgq := m.fld.cfgq ++ [w], awaiting := some w }).putBit rFldStat 5 true

/-- RESUME and FORCE_SAFE as configuration writes. -/
def Mach.queueResume (m : Mach) : Mach := m.queueCfg 0x20 0
def Mach.queueForceSafe (m : Mach) : Mach := m.queueCfg 0x21 0

/-- FORCE_SAFE ahead of every pending configuration write, as a scrub sends it (R333). -/
def Mach.forceSafeFirst (m : Mach) : Mach :=
  let w : BitVec 8 × BitVec 16 := (0x21, 0)
  let f := m.fld
  (m.setFldSt { f with cfgq := w :: f.cfgq, awaiting := if f.cfgq.isEmpty then some w else f.awaiting }).putBit rFldStat 5 true

/-- FLD_CMD_RESUME (R332). -/
def fldCmdResume (m : Mach) : Mach := if m.hostUp then m.queueResume else m

def execFldCmdResume (s : State) : Host.Outcome State Fault Refusal := done s (fldCmdResume s.m)

/-- FLD_CMD_FORCE_SAFE. -/
def fldCmdForceSafe (m : Mach) : Mach := if m.hostUp then m.queueForceSafe else m

def execFldCmdForceSafe (s : State) : Host.Outcome State Fault Refusal := done s (fldCmdForceSafe s.m)

/-- FLD_OC_CLEAR: latch bits clear, and an overcurrent clear is queued (R318). -/
def fldOcClear (v : W32) (m : Mach) : Mach :=
  if !m.hostUp then m
  else
    let k := v.setWidth 16
    let m := m.writeReg rFldOc v
    if k = 0 then m else m.queueCfg 0x15 k

def execFldOcClear (v : W32) (s : State) : Host.Outcome State Fault Refusal := done s (fldOcClear v s.m)

/-- FLD_OUT_HOST_WRITE (R320). -/
def fldOutHostWrite (v : W32) (m : Mach) : Mach := if m.hostUp then (m.writeReg rFldOutHost v).commandOuts else m

def execFldOutHostWrite (v : W32) (s : State) : Host.Outcome State Fault Refusal := done s (fldOutHostWrite v s.m)

/-- A safe-state word with 0b11 written as OFF (FLD_SAFE). -/
def safeWord (v : W32) : W32 :=
  (List.range 16).foldl (fun (a : W32) i => if bits a (2 * i + 1) (2 * i) = 3 then setBits a (2 * i + 1) (2 * i) 0 else a) v

/-- CONFIGURATION_WRITE: the register takes the value within its limits, and the write is queued (R327, R336). -/
def configurationWrite (r : FldCfgReg) (v : W32) (m : Mach) : Mach :=
  if !m.hostUp then m
  else match r with
    | .deb i =>
      let us := if bits v 15 0 = 0 then 1 else bits v 15 0
      (m.setReg (rFldDeb i) (BitVec.ofNat 32 us)).queueCfg i (BitVec.ofNat 16 us)
    | .safe =>
      let w := safeWord v
      ((m.setReg rFldSafe w).queueCfg 0x10 (w.setWidth 16)).queueCfg 0x11 ((w >>> 16).setWidth 16)
    | .timeout =>
      let us := max 2 (min 10000 (bits v 13 0))
      (m.setReg rFldTimeout (BitVec.ofNat 32 us)).queueCfg 0x12 (BitVec.ofNat 16 us)
    | .wben => (m.writeReg rFldWben v).queueCfg 0x13 (v.setWidth 16)

def execConfigurationWrite (r : FldCfgReg) (v : W32) (s : State) : Host.Outcome State Fault Refusal := done s (configurationWrite r v s.m)

/-! ### Down frames (R326, R327) -/

/-- OFF of a change instant in the frame of slot k (R326). -/
def offOf (k t : Nat) : Nat := (t + 400 - slotStart k) / 5

/-- The event frame of the change instants of a window, with the state that it leaves and whether changes were merged. -/
def eventOf (k : Nat) (framed : BitVec 16) : List (Nat × BitVec 16) → BitVec 64 × BitVec 16 × Bool
  | [] => (frameOf framed.toNat, framed, false)
  | [a] => (frameOf (offOf k a.1 * 2 ^ 16 + a.2.toNat), a.2, false)
  | a :: b :: rest =>
    let l := (b :: rest).getLast (by simp)
    (frameOf (2 ^ 47 + offOf k l.1 * 2 ^ 40 + l.2.toNat * 2 ^ 24 + offOf k a.1 * 2 ^ 16 + a.2.toNat), l.2, !rest.isEmpty)

/-- The configuration write that may go out: no RESUME during a scrub (R333). -/
def Mach.cfgNext (m : Mach) : Option (BitVec 8 × BitVec 16) :=
  match m.fld.cfgq with
  | w :: _ => if m.scrubbing ∧ w.1 = 0x20 then none else some w
  | [] => none

/-- The frames on the down channel with another one sent; a field side without power receives none. -/
def Fld.onWire (f : Fld) (p : Nat × BitVec 64) : List (Nat × BitVec 64) := if f.side.running then f.down ++ [p] else []

/-- DOWN_FRAME: slot k, the one that TB1 has reached, sends an event frame, or a configuration frame when its window holds no change
instant (R322, R326, R327). -/
def downFrame (m : Mach) : Mach :=
  let k := m.tb1 / 400
  let f := m.fld
  if !m.pwr.aligned || decide (k < f.slot) then m
  else
    let now := f.changes.filter fun c => decide (c.1 < slotStart k)
    let later := f.changes.filter fun c => !decide (c.1 < slotStart k)
    let m := m.putBit rFldStat 0 true
    match (if now.isEmpty then m.cfgNext else none) with
    | some w => m.setFldSt { f with cfgq := f.cfgq.drop 1, slot := k + 1, down := f.onWire (k, cfgFrame w) }
    | none =>
      let (fr, st, merged) := eventOf k f.framed now
      let m := m.setFldSt { f with changes := later, framed := st, slot := k + 1, down := f.onWire (k, fr) }
      if merged then m.raiseFld 4 else m

def execDownFrame (s : State) : Host.Outcome State Fault Refusal := done s (downFrame s.m)

/-! ### The field side: its outputs (R330, R331) -/

/-- The safe state of an output: 0 OFF, 1 ON, 2 HOLD. -/
def FieldSide.safeOf (x : FieldSide) (i : Nat) : Nat := bits x.safeCfg (2 * i + 1) (2 * i)

/-- The level of an output, by the first rule of R330 that applies. After a RESUME the outputs keep their level until a state has been
applied. -/
def FieldSide.level (x : FieldSide) (i : Nat) : Bool :=
  if !x.lplus then false
  else if bitAt x.oc i then false
  else if x.safe then
    (if x.safeOf i = 1 then true else if x.safeOf i = 2 then bitAt x.hold i else false)
  else if x.everApplied then bitAt x.applied i
  else bitAt x.hold i

/-- The field side with its outputs driven. -/
def FieldSide.drive (x : FieldSide) : FieldSide :=
  { x with outputs := BitVec.ofNat 16 ((List.range 16).foldl (fun a i => a + b2n (x.level i) * 2 ^ i) 0) }

/-- The readback levels at a time: an output's present level once it has stood for the stage's 2 µs, the level before until then (R319). -/
def FieldSide.readback (x : FieldSide) (now : Nat) : BitVec 16 :=
  BitVec.ofNat 16 ((List.range 16).foldl (fun a i =>
    a + b2n (if FMap.get (fun _ => 0) x.chg i + 2000 ≤ now ∨ FMap.get (fun _ => 0) x.chg i = 0 then bitAt x.outputs i else bitAt x.rb i) * 2 ^ i) 0)

/-- The outputs whose level differs between two words. -/
def changedOuts (a b : BitVec 16) : List Nat := (List.range 16).filter fun i => bitAt a i != bitAt b i

def Mach.side (m : Mach) : FieldSide := m.fld.side
/-- The field side changed and its outputs driven. An output that changes starts its readback filter and its mismatch time anew (R319). -/
def Mach.setSide (m : Mach) (x : FieldSide) : Mach :=
  let y := x.drive
  let l := changedOuts y.outputs m.fld.side.outputs
  m.setFldSt { m.fld with
    rbSince := m.fld.rbSince.filter fun p => !l.contains p.1
    side := { y with rb := m.fld.side.readback m.tb1, chg := l.foldl (fun c i => FMap.put (fun _ => 0) c i m.tb1) y.chg } }

/-- The module side notes something of the field side, unless it is in reset. -/
def Mach.fldNote (m : Mach) (f : Mach → Mach) : Mach := if m.pwr.inReset then m else f m

/-- The field side enters SAFE: HOLD outputs keep their level, states not yet applied are discarded; the entry counts, and sets
SILENCE when it comes from the timeout or a loss of lock (R330, R331). -/
def Mach.enterSafe (m : Mach) (silence : Bool) : Mach :=
  let x := m.side
  if x.safe then m
  else
    (m.setSide { x with safe := true, hold := x.outputs, todo := [] }).fldNote fun m =>
      let m := m.inc rFldSafeCnt
      if silence then m.raiseFld 3 else m

/-! ### Frames at the field side (R323-R327) -/

/-- The slot of a frame that arrives now: of the oldest frame sent whose F_k has not passed (R322); a frame that has not arrived by then is
lost. -/
def Fld.slotOf (f : Fld) (now : Nat) : Nat :=
  match f.down.find? fun p => decide (now ≤ slotStart p.1 + 800) with
  | some p => p.1
  | none => now / 400

/-- The oldest frame that may still arrive has arrived. -/
def Fld.downTaken (f : Fld) (now : Nat) : Fld := { f with down := (f.down.filter fun p => decide (now ≤ slotStart p.1 + 800)).drop 1 }

/-- The down receiver loses lock, and the field side enters SAFE (R323, R331). -/
def Mach.loseDown (m : Mach) : Mach :=
  if m.side.downLock then (m.setSide { m.side with downLock := false, goodRun := 0 }).enterSafe true else m

/-- A down frame arrives: k takes a valid one with its slot. Two good slots in a row give the receiver lock, the fourth bad one in a row takes
it; a frame is valid while the receiver is locked and its CRC is correct; others are counted (R323). -/
def Mach.downArrives (m : Mach) (fr : BitVec 64) (k : Nat → Mach → Mach) : Mach :=
  let x := m.side
  let slot := m.fld.slotOf m.tb1
  let m := m.setFldSt (m.fld.downTaken m.tb1)
  if !frameOk fr then
    let m := (m.setSide { x with goodRun := 0, badRun := x.badRun + 1, heardAt := some m.tb1 }).fldNote fun m => (m.inc rFldDcrcCnt).raiseFld 0
    if 3 ≤ x.badRun then m.loseDown else m
  else if x.downLock then k slot (m.setSide { x with goodRun := x.goodRun + 1, badRun := 0, heardAt := some m.tb1, validAt := some m.tb1 })
  else
    (m.setSide { x with goodRun := x.goodRun + 1, badRun := 0, heardAt := some m.tb1, downLock := decide (1 ≤ x.goodRun) }).fldNote fun m =>
      m.inc rFldDcrcCnt

/-- A frame of the kind that a command names is received by a running controller; a corrupted one may be of any kind. -/
def Mach.downOfKind (m : Mach) (fr : BitVec 64) (kind : Bool) (k : Nat → Mach → Mach) : Mach :=
  if m.side.running ∧ (kind ∨ !frameOk fr) then m.downArrives fr k else m

/-- EVENT_FRAME: the states are scheduled at F_k + 5 × OFF; an invalid combination of offsets is discarded, and so are the states of a
frame received in SAFE (R325, R330). -/
def eventFrame (fr : BitVec 64) (m : Mach) : Mach :=
  m.downOfKind fr (!bitAt fr 23) fun k m =>
    let x := m.side
    let offA := bits fr 22 16
    let offB := bits fr 46 40
    let two := bitAt fr 47
    if 79 < offA ∨ (two ∧ (79 < offB ∨ offB ≤ offA)) then m
    else if x.safe then m
    else
      let t := slotStart k + 800
      let b := if two then [(t + 5 * offB, BitVec.ofNat 16 (bits fr 39 24))] else []
      m.setSide { x with todo := x.todo ++ [(t + 5 * offA, BitVec.ofNat 16 (bits fr 15 0))] ++ b }

def execEventFrame (fr : W64) (s : State) : Host.Outcome State Fault Refusal := done s (eventFrame fr s.m)

/-- STATE_APPLY: the next state is applied at its instant (R317, R325). -/
def stateApply (m : Mach) : Mach :=
  let x := m.side
  match x.todo with
  | (t, st) :: rest => if t ≤ m.tb1 then m.setSide { x with applied := st, everApplied := true, todo := rest } else m
  | [] => m

def execStateApply (s : State) : Host.Outcome State Fault Refusal := done s (stateApply s.m)

/-- A configuration frame is applied: page 3 reports it (R328). -/
def FieldSide.applied3 (x : FieldSide) (a : BitVec 8) (d : BitVec 16) : FieldSide :=
  { x with cfgCount := x.cfgCount + 1, lastAddr := a, lastData := d }

/-- A new safe-state word: an output that changes to HOLD keeps its present level (R330). -/
def FieldSide.newSafe (x : FieldSide) (w : BitVec 32) : FieldSide :=
  let y := { x with safeCfg := w }
  let h := (List.range 16).foldl (fun a i =>
    a + b2n (if y.safeOf i = 2 ∧ x.safeOf i ≠ 2 then bitAt x.outputs i else bitAt x.hold i) * 2 ^ i) 0
  { y with hold := BitVec.ofNat 16 h }

/-- The effect of a setting at an address; none for a reserved one (R327). -/
def FieldSide.config (x : FieldSide) (a : Nat) (d : BitVec 16) : Option FieldSide :=
  if a < 0x10 then some { x with deb := FMap.put (fun _ => 10) x.deb a d }
  else if a = 0x10 then some (x.newSafe (setBits x.safeCfg 15 0 d.toNat))
  else if a = 0x11 then some (x.newSafe (setBits x.safeCfg 31 16 d.toNat))
  else if a = 0x12 then some { x with timeout := d }
  else if a = 0x13 then some { x with wben := d, wb := x.wb &&& d }
  else if a = 0x15 then some { x with oc := x.oc &&& ~~~d }
  else none

/-- CONFIGURATION_FRAME (R327). -/
def configurationFrame (fr : BitVec 64) (m : Mach) : Mach :=
  let a := BitVec.ofNat 8 (bits fr 31 24)
  m.downOfKind fr (bitAt fr 23 && a != 0x20 && a != 0x21) fun _ m =>
    let d := BitVec.ofNat 16 (bits fr 47 32)
    match m.side.config a.toNat d with
    | some x => m.setSide (x.applied3 a d)
    | none => m

def execConfigurationFrame (fr : W64) (s : State) : Host.Outcome State Fault Refusal := done s (configurationFrame fr s.m)

/-- RESUME: the field side leaves SAFE (R331). -/
def fldResume (fr : BitVec 64) (m : Mach) : Mach :=
  m.downOfKind fr (bitAt fr 23 && bits fr 31 24 == 0x20) fun _ m =>
    let x := m.side.applied3 0x20 (BitVec.ofNat 16 (bits fr 47 32))
    m.setSide { x with safe := false, hold := x.outputs }

def execFldResume (fr : W64) (s : State) : Host.Outcome State Fault Refusal := done s (fldResume fr s.m)

/-- FORCE_SAFE (R331). -/
def fldForceSafe (fr : BitVec 64) (m : Mach) : Mach :=
  m.downOfKind fr (bitAt fr 23 && bits fr 31 24 == 0x21) fun _ m =>
    (m.setSide (m.side.applied3 0x21 (BitVec.ofNat 16 (bits fr 47 32)))).enterSafe false

def execFldForceSafe (fr : W64) (s : State) : Host.Outcome State Fault Refusal := done s (fldForceSafe fr s.m)

/-! ### Events of the field side (R311-R318, R331) -/

/-- The field-side controller runs. -/
def Mach.sideRuns (m : Mach) (f : Mach → Mach) : Mach := if m.side.running then f m else m

/-- INPUT_EDGE (R315). -/
def inputEdge (i : Fin 16) (level : Bool) (m : Mach) : Mach :=
  m.sideRuns fun m =>
    let x := m.side
    if bitAt x.inputs i = level then m
    else m.setSide { x with inputs := x.inputs ^^^ BitVec.twoPow 16 i, edges := x.edges ++ [{ i := i, level := level, te := some m.tb1 }] }

def execInputEdge (i : Fin 16) (level : Bool) (s : State) : Host.Outcome State Fault Refusal := done s (inputEdge i level s.m)

/-- SILENCE_TIMEOUT: the timeout has passed since the last valid down frame (R331). -/
def silenceTimeout (m : Mach) : Mach :=
  m.sideRuns fun m =>
    if m.side.validAt.any fun t => decide (m.tb1 < t + 1000 * m.side.timeout.toNat) then m else m.enterSafe true

def execSilenceTimeout (s : State) : Host.Outcome State Fault Refusal := done s (silenceTimeout s.m)

/-- DOWN_LOCK_LOSS: with the bad frames received last, slots without a frame make four bad slots in a row (R323, R331). -/
def downLockLoss (m : Mach) : Mach :=
  m.sideRuns fun m =>
    if m.side.heardAt.any fun t => decide (m.tb1 < t + 400 * (4 - m.side.badRun)) then m else m.loseDown

def execDownLockLoss (s : State) : Host.Outcome State Fault Refusal := done s (downLockLoss s.m)

/-- CONTROLLER_START: the defaults of R312, in SAFE, which is an entry into SAFE (R331). -/
def controllerStart (m : Mach) : Mach :=
  if m.side.running then m
  else (m.setSide { FieldSide.off with running := true }).fldNote fun m => m.inc rFldSafeCnt

def execControllerStart (s : State) : Host.Outcome State Fault Refusal := done s (controllerStart s.m)

/-- LPLUS_UV: every output is off (R311). -/
def lplusUv (m : Mach) : Mach := m.sideRuns fun m => m.setSide { m.side with lplus := false }

def execLplusUv (s : State) : Host.Outcome State Fault Refusal := done s (lplusUv s.m)

/-- LPLUS_OK: the output stage is enabled (R311). -/
def lplusOk (m : Mach) : Mach := m.sideRuns fun m => m.setSide { m.side with lplus := true }

def execLplusOk (s : State) : Host.Outcome State Fault Refusal := done s (lplusOk s.m)

/-- LPLUS_LOSS: the controller stops and loses its settings (R312). -/
def lplusLoss (m : Mach) : Mach := m.setSide FieldSide.off

def execLplusLoss (s : State) : Host.Outcome State Fault Refusal := done s (lplusLoss s.m)

/-- OVERCURRENT: the output is latched off (R318). -/
def overcurrent (i : Fin 16) (m : Mach) : Mach := m.sideRuns fun m => m.setSide { m.side with oc := m.side.oc ||| BitVec.twoPow 16 i }

def execOvercurrent (i : Fin 16) (s : State) : Host.Outcome State Fault Refusal := done s (overcurrent i s.m)

/-- WIRE_BREAK, where detection is enabled (R316). -/
def wireBreak (i : Fin 16) (m : Mach) : Mach :=
  m.sideRuns fun m => if bitAt m.side.wben i then m.setSide { m.side with wb := m.side.wb ||| BitVec.twoPow 16 i } else m

def execWireBreak (i : Fin 16) (s : State) : Host.Outcome State Fault Refusal := done s (wireBreak i s.m)

/-- WIRE_BREAK_CLEAR (R316). -/
def wireBreakClear (i : Fin 16) (m : Mach) : Mach :=
  m.sideRuns fun m => m.setSide { m.side with wb := m.side.wb &&& ~~~BitVec.twoPow 16 i }

def execWireBreakClear (i : Fin 16) (s : State) : Host.Outcome State Fault Refusal := done s (wireBreakClear i s.m)

/-- FIELD_SIDE_OVERTEMP (R328). -/
def fieldSideOvertemp (on : Bool) (m : Mach) : Mach := m.sideRuns fun m => m.setSide { m.side with overtemp := on }

def execFieldSideOvertemp (on : Bool) (s : State) : Host.Outcome State Fault Refusal := done s (fieldSideOvertemp on s.m)

/-! ### Up frames (R328, R329) -/

/-- The diagnostic half of a page: bits [43:32] and DATA [31:16]. -/
def FieldSide.page (x : FieldSide) (p : Nat) : Nat :=
  if p = 0 then x.wb.toNat * 2 ^ 16
  else if p = 1 then x.oc.toNat * 2 ^ 16
  else if p = 2 then (b2n x.lplus + 2 * b2n x.safe + 4 * b2n x.overtemp) * 2 ^ 16
  else (x.cfgCount.toNat * 2 ^ 8 + x.lastAddr.toNat) * 2 ^ 32 + x.lastData.toNat * 2 ^ 16

/-- The edge report of frame j: the oldest edge detected before F_j, with its OFF and AGE, or as a late edge (R329). -/
def FieldSide.report (x : FieldSide) (j : Nat) : Nat × List FldEdge :=
  match x.edges with
  | [] => (0, [])
  | e :: rest =>
    let late := (3 * 2 ^ 46 + e.i.val * 2 ^ 42 + b2n e.level * 2 ^ 34, rest)
    match e.te with
    | none => late
    | some te =>
      let n := (te - 800) / 400
      if j ≤ n then (0, x.edges)
      else
        let age := j - 1 - n
        if age ≤ 3 ∧ 800 ≤ te then
          (2 ^ 46 + e.i.val * 2 ^ 42 + (te - 800 - 400 * n) / 5 * 2 ^ 35 + b2n e.level * 2 ^ 34 + age * 2 ^ 32, rest)
        else late

/-- UP_FRAME_SEND: the field side sends the frame of the slot whose F_k has come (R328). Edges wait while the module side's receiver has no
lock and are reported after it (R335; DEDUCED, log 130). -/
def upFrameSend (m : Mach) : Mach :=
  m.sideRuns fun m =>
    let x := m.side
    let k := (m.tb1 - 800) / 400
    if m.tb1 < 800 ∨ k < x.upK then m
    else
      let rb := x.readback m.tb1
      let rep := if k % 8 = 7 then (2 * 2 ^ 46 + k / 8 % 4 * 2 ^ 44 + x.page (k / 8 % 4), x.edges)
        else
          let r := if m.bit rFldStat 1 then x.report k else (0, x.edges)
          (r.1 + rb.toNat * 2 ^ 16, r.2)
      let m := m.setSide { x with edges := rep.2, upK := k + 1 }
      m.setFldSt { m.fld with up := m.fld.up ++ [(k, frameOf (rep.1 + x.inputs.toNat))] }

def execUpFrameSend (s : State) : Host.Outcome State Fault Refusal := done s (upFrameSend s.m)

/-- A mask register that follows a report, with an error bit when a bit is newly set. -/
def Mach.follow (m : Mach) (a bit : Nat) (v : Nat) : Mach :=
  let old := m.reg a
  let new := BitVec.ofNat 32 v
  let set := new &&& ~~~old
  let m := (List.range 16).foldl (fun (m : Mach) i => if bitAt set i then m.noteSet a i else m) (m.setReg a new)
  if set = 0 then m else m.raiseFld bit

/-- A diagnostic frame at the module side (R328, R334). -/
def Mach.diagnostic (m : Mach) (fr : BitVec 64) : Mach :=
  let p := bits fr 45 44
  let d := bits fr 31 16
  if p = 0 then m.follow rFldWb 7 d
  else if p = 1 then m.follow rFldOc 6 d
  else if p = 2 then
    let wasOk := m.bit rFldStat 3
    let wasHot := m.bit rFldStat 4
    let ok := bitAt fr 16
    let hot := bitAt fr 18
    let m := ((m.putBit rFldStat 3 ok).putBit rFldStat 2 (bitAt fr 17)).putBit rFldStat 4 hot
    let m := if wasOk && !ok then m.raiseFld 9 else m
    if hot && !wasHot then m.raiseFld 10 else m
  else
    match m.fld.awaiting with
    | none => m
    | some (a, x) =>
      if m.fld.cfgq.isEmpty ∧ bits fr 39 32 = a.toNat ∧ d = x.toNat then
        (m.setFldSt { m.fld with awaiting := none }).putBit rFldStat 5 false
      else m

/-- An edge report at the module side: counted and delivered to the part triggers with t_e and t_a (R329). -/
def Mach.edgeReport (m : Mach) (fr : BitVec 64) (j : Nat) : Mach :=
  let kind := bits fr 47 46
  if kind = 0 then m
  else
    let ta : Int := slotStart j + 1300
    let late := decide (kind = 3)
    let te : Int := if late then ta else 400 * ((j : Int) - 1 - (bits fr 33 32 : Nat)) + 800 + 5 * (bits fr 41 35 : Nat)
    let m := m.inc rFldEdgeCnt
    let m := if late then m.raiseFld 5 else m
    m.inputMarker (bits fr 45 42) (bitAt fr 34) te ta late

/-- Readback levels arrive: of each output that differs from its expected state the mismatch time starts, unless it runs; of the others it
ends (R319). -/
def Mach.compareRb (m : Mach) (rb : Nat) : Mach :=
  let bad := changedOuts (BitVec.ofNat 16 rb) m.side.outputs
  let f := m.fld
  m.setFldSt { f with rbSince := bad.map fun i => (i, (f.rbSince.lookup i).getD m.tb1) }

/-- The up receiver loses lock: the last values are kept, and the comparison of readback levels stops (R335). -/
def Mach.loseUp (m : Mach) : Mach :=
  if m.bit rFldStat 1 then ((m.setFldSt { m.fld with upGood := 0, rbSince := [] }).putBit rFldStat 1 false).raiseFld 2 else m

/-- The slot of an up frame that is received now, t_a after S_j: the oldest one sent. -/
def Fld.upSlot (f : Fld) (now : Nat) : Nat :=
  match f.up with
  | p :: _ => p.1
  | [] => (now - 1300) / 400

/-- UP_FRAME: received and checked at t_a. A valid frame updates the levels and delivers its report; one with a wrong CRC, or without lock, is
counted, and the fourth bad slot in a row ends lock (R322, R323, R328, R329). -/
def upFrame (fr : BitVec 64) (m : Mach) : Mach :=
  let j := m.fld.upSlot m.tb1
  if m.pwr.inReset || decide (m.tb1 < slotStart j + 1300) then m
  else
    let good := frameOk fr
    let f := m.fld
    let m := m.setFldSt { f with up := f.up.drop 1, upGood := if good then f.upGood + 1 else 0, upBad := if good then 0 else f.upBad + 1,
                                 upHeardAt := m.tb1 }
    if !good then
      let m := (m.inc rFldUcrcCnt).raiseFld 1
      if 3 ≤ f.upBad then m.loseUp else m
    else if !m.bit rFldStat 1 then m.inc rFldUcrcCnt
    else
      let m := m.setReg rFldIn (BitVec.ofNat 32 (bits fr 15 0))
      if bits fr 47 46 = 2 then m.diagnostic fr
      else ((m.setReg rFldRb (BitVec.ofNat 32 (bits fr 31 16))).compareRb (bits fr 31 16)).edgeReport fr j

def execUpFrame (fr : W64) (s : State) : Host.Outcome State Fault Refusal := done s (upFrame fr s.m)

/-- UP_LOCK: after two good slots; every field-side setting is queued, in address order (R323, R334). -/
def upLock (m : Mach) : Mach :=
  if m.pwr.inReset || m.bit rFldStat 1 || decide (m.fld.upGood < 2) then m
  else
    let m := m.putBit rFldStat 1 true
    let m := (List.range 16).foldl (fun (m : Mach) i => m.queueCfg i ((m.reg (rFldDeb i)).setWidth 16)) m
    let w := m.reg rFldSafe
    (((m.queueCfg 0x10 (w.setWidth 16)).queueCfg 0x11 ((w >>> 16).setWidth 16)).queueCfg 0x12 ((m.reg rFldTimeout).setWidth 16)).queueCfg
      0x13 ((m.reg rFldWben).setWidth 16)

def execUpLock (s : State) : Host.Outcome State Fault Refusal := done s (upLock s.m)

/-- UP_LOST: with the bad frames received last, slots without a frame make four bad slots in a row (R323, R335). -/
def upLost (m : Mach) : Mach := if m.tb1 < m.fld.upHeardAt + 400 * (4 - m.fld.upBad) then m else m.loseUp

def execUpLost (s : State) : Host.Outcome State Fault Refusal := done s (upLost s.m)

/-- RB_MIS: the readback level of an output has differed from its expected state for RBT µs without interruption (R319, R335). -/
def rbMis (i : Nat) (m : Mach) : Mach :=
  if m.bit rFldStat 1 && (m.fld.rbSince.lookup i).any fun t => decide (t + 1000 * m.rbits rFldRbt 15 0 ≤ m.tb1) then
    (m.putBit rFldRbMis i true).raiseFld 8
  else m

def execRbMis (i : Fin 16) (s : State) : Host.Outcome State Fault Refusal := done s (rbMis i s.m)

/-! ### Responses on the field section (R441) -/

/-- FIELD_SAFE. -/
def actFieldSafe (r : Nat) (m : Mach) : Mach := m.act r 1 fun _ m => (m.queueForceSafe, 0)

def execActFieldSafe (r : Fin 32) (s : State) : Host.Outcome State Fault Refusal := done s (actFieldSafe r s.m)

/-- The crossing is ready for RESUME: UP_LOCK = 1, LPLUS_OK = 1 and CFG_PEND = 0. -/
def Mach.crossingReady (m : Mach) : Bool := m.bit rFldStat 1 && m.bit rFldStat 3 && !m.bit rFldStat 5

/-- FIELD_RESUME: the wait starts, up to ARG ms; an ARG of 0 counts as 1 (R441, R442). -/
def actFieldResume (r : Nat) (m : Mach) : Mach :=
  match m.flt.startedOf r 2 with
  | none => m
  | some p =>
    let w := { p with till := m.tb1 + 1000000 * max 1 p.arg }
    { m with flt := { m.flt.dropStarted p with waits := m.flt.waits ++ [w] } }

def execActFieldResume (r : Fin 32) (s : State) : Host.Outcome State Fault Refusal := done s (actFieldResume r s.m)

/-- FIELD_RESUME_WAIT_END: the crossing is ready and RESUME is queued, or the time is over (R441). -/
def actFieldResumeWaitEnd (r : Nat) (m : Mach) : Mach :=
  match m.flt.waits.find? fun p => p.entry == r with
  | none => m
  | some p =>
    let drop : Mach := { m with flt := { m.flt with waits := m.flt.waits.erase p } }
    if m.crossingReady then drop.queueResume.endAction r 2 0
    else if p.till ≤ m.tb1 then drop.endAction r 2 1
    else m

def execActFieldResumeWaitEnd (r : Fin 32) (s : State) : Host.Outcome State Fault Refusal := done s (actFieldResumeWaitEnd r s.m)

end Sys2Proof.Machine
end

