-- ==== Sys2Proof/Machine/Lane.lean ====
section
/-! DEFINITION. Serial lanes: enabling and disabling camera ports, transmit presets, block lock and the start of
bring-up of camera ports and ring links (R195, R229, R231, R337-R352, R365). -/
namespace Sys2Proof.Machine

/-! ### Lanes and links by number -/

/-- The number of a lane: camera lane l of block d at 12 d + l, ring lane l of port p at 24 + 4 p + l. -/
def laneNo : LaneId → Nat
  | .cam d l => 12 * d.val + l.val
  | .ring p l => 24 + 4 * p.val + l.val

/-- The number of a link: camera port p of block d at 6 d + p, ring port p at 12 + p. -/
def linkNo : PortId → Nat
  | .cam d q => 6 * d.val + q.val
  | .ring p => 12 + p.val

/-- The link that uses a lane. -/
def Mach.linkOfLane (m : Mach) (j : Nat) : Option Nat :=
  if j < 24 then (List.range 12).find? fun k => m.portEn k && (m.lanesOf k).contains j else some (12 + (j - 24) / 4)

/-- SOURCE of a lane's and of a link's LNK events (R430). -/
def laneSource (j : Nat) : Nat := if j < 24 then 0x100 + j else (j - 24) / 4
def linkSource (k : Nat) : Nat := if k < 12 then 0x100 + 2 * k else k - 12

/-- CL_STAT fields of a camera lane. -/
def Mach.setCl (m : Mach) (j hi lo v : Nat) : Mach := if j < 24 then m.setFld (rClStat j) hi lo v else m
/-- The invalid-header counter of a lane (R338). -/
def Mach.addIhdr (m : Mach) (j n : Nat) : Mach := m.addReg (if j < 24 then rClIhdr j else rRpIhdr ((j - 24) / 4)) n
/-- The register of a lane's own taps. -/
def tapsReg (j : Nat) : Nat := if j < 24 then rClTaps j else rRpTaps ((j - 24) / 4) ((j - 24) % 4)
def Mach.taps (m : Mach) (j : Nat) : Nat × Nat := (m.rbits (tapsReg j) 3 0, m.rbits (tapsReg j) 12 8)
/-- The taps of a lane: MAIN is always 48 − PRE − POST (R342). -/
def Mach.setTaps (m : Mach) (j pre post : Nat) : Mach :=
  m.setReg (tapsReg j) (BitVec.ofNat 32 ((48 - pre - post) * 2 ^ 16 + post * 2 ^ 8 + pre))

/-- PRE and POST of presets P0 to P3 (R343). -/
def presetTaps : Nat → Nat × Nat
  | 0 => (0, 0)
  | 1 => (2, 6)
  | 2 => (3, 10)
  | _ => (4, 14)

/-- A cable or module that stays in low-power mode: its lanes do not lock (R509). -/
def cableLowPower : Cable → Bool
  | .highPower _ => true
  | _ => false

/-- The class of a lane: the one selected, or that of the cable; none for a CABLE fault (R344). -/
def laneClass (sel : Nat) (cable : Cable) : Option Nat :=
  if sel < 4 then some sel
  else match cable with
    | .passive n => if n ≤ 3 then some n else none
    | .active | .highPower none => some 0
    | .highPower (some n) => if n ≤ 3 then some n else none
    | .unreadable => none

/-- RP_STAT.STATE of ring port p: 0 DOWN, 1 LOCKING, 2 TRAINING, 3 VERSION, 4 ACTIVE, 5 VERSION_FAIL, 6 PORT_FAIL. -/
def Mach.rpState (m : Mach) (p : Nat) : Nat := m.rbits (rRpStat p) 2 0
def Mach.setRpState (m : Mach) (p s : Nat) : Mach := m.setFld (rRpStat p) 2 0 s
/-- The ring port is fitted and its weir is INSERTED (R10, R369). -/
def Mach.ringConnected (m : Mach) (p : Nat) : Bool := (decide (p < 2) || m.variant.io1) && m.bit rLnkWeir (4 + p / 2)

/-! ### The training block that a lane sends (R345, R347 step 1, R352 step 4) -/

/-- The lanes of a link send training frames: a camera port from the start of its bring-up until it is READY, a ring port while it
trains. -/
def Mach.trains (m : Mach) (k : Nat) : Bool :=
  match (m.link k).stage with
  | .locking => decide (k < 12)
  | .mapping => true
  | .quality => decide (k < 12)
  | .adapt => true
  | .ready => true
  | _ => false

/-- The octets of the block of lane i of a link: the requests of its receiver, the status of its taps, RX_READY, its number and what it
hears at its position (R345). -/
def Lane.block (x : Lane) (i : Nat) : W64 :=
  BitVec.ofNat 64 (leNat [0x4B, 0x5A, 0x96, BitVec.ofNat 8 (x.askPre.toNat + 4 * x.askPost.toNat),
    BitVec.ofNat 8 (x.stPre.toNat + 4 * x.stPost.toNat + 16 * b2n x.rxReady),
    BitVec.ofNat 8 (i + (if x.seen then 4 * x.laneNo.toNat + 16 + 32 * b2n x.inv else 0)), 0, 0])

/-- What each lane of a link sends follows its state. -/
def Mach.showTx (m : Mach) (k : Nat) : Mach :=
  let on := m.trains k
  ((m.lanesOf k).mapIdx fun i j => (i, j)).foldl (fun (m : Mach) e =>
    let x := m.lane e.2
    let tx := if on && x.preset.isSome then some (x.block e.1) else none
    if x.tx = tx then m else m.setLane e.2 { x with tx := tx }) m

/-! ### Step 1: lanes start at their presets (R344, R347, R352) -/

/-- A lane at the start of bring-up: the preset's taps, nothing heard. -/
def Mach.startLane (m : Mach) (j : Nat) : Mach :=
  let c := (m.lane j).preset
  let m := m.setLane j { Lane.quiet with preset := c, lowPower := (m.lane j).lowPower }
  match c with
  | none => if j < 24 then m.setReg (rClStat j) 4 else m
  | some c =>
    let t := presetTaps c
    let m := m.setTaps j t.1 t.2
    if j < 24 then m.setReg (rClStat j) (BitVec.ofNat 32 (c * 2 ^ 10 + 1)) else m

/-- A link at the start of bring-up; a ring port keeps its wrap and what it has sent. Lanes without a class are not started: a ring port
stays DOWN, a camera port has failed its first step (R344). -/
def Mach.startLink (m : Mach) (k : Nat) : Mach :=
  let m := (m.lanesOf k).foldl Mach.startLane m
  let x := m.link k
  let none_ := (m.lanesOf k).any fun j => (m.lane j).preset.isNone
  let st := if !none_ then .locking else if k < 12 then .failed else .off
  let m := m.setLink k { Link.off with stage := st, wrapped := x.wrapped, out := x.out }
  (if k < 12 then (m.setLstate k 1).setFld (rPortStat (k / 6) (k % 6)) 23 8 0
  else m.setReg (rRpStat (k - 12))
    (if none_ then 0 else BitVec.ofNat 32 ((((m.lane (24 + 4 * (k - 12))).preset).getD 0) * 2 ^ 8 + 1))).showTx k

/-- The classes of a link's lanes; a lane without one sets CABLE (R344). -/
def Mach.classify (m : Mach) (k : Nat) (sel : Nat → Nat) (cable : Cable) : Mach :=
  (m.lanesOf k).foldl (fun (m : Mach) j =>
    let c := laneClass (sel j) cable
    let m := m.setLane j { Lane.quiet with preset := c, lowPower := cableLowPower cable }
    if c.isNone then m.raiseLnk 8 (laneSource j) else m) m

/-- A bring-up step of a camera port fails: the fault named, and a retry after 100 ms (R347). -/
def Mach.failCam (m : Mach) (k bit : Nat) : Mach :=
  let m := (m.lanesOf k).foldl (fun (m : Mach) j => m.setCl j 2 0 4) m
  ((m.setLink k { m.link k with stage := .failed }).showTx k).raiseLnk bit (linkSource k)

/-! ### Ring links: fault, wrap and retry (R352, R365, R366) -/

/-- The other port of a ring port's plane. -/
def otherPort (p : Nat) : Nat := if p % 2 = 0 then p + 1 else p - 1

/-- A ring port is faulted: RP_DOWN, its transmitter stops, and blind bring-up starts again while EN is 1 (R365). -/
def Mach.downLink (m : Mach) (p : Nat) : Mach :=
  let m := m.raiseLnk 4 p
  let m := { m with ring := { m.ring with syncHops := m.ring.syncHops.filter fun x => x.1 != p } }
  if m.bit (rRpCtl p) 0 then m.startLink (12 + p)
  else
    let x := m.link (12 + p)
    ((m.setLink (12 + p) { Link.off with wrapped := x.wrapped, out := x.out }).showTx (12 + p)).setReg (rRpStat p) 0

/-- A ring port's bring-up fails without a fault of the link: a retry after 100 ms (R347, R352). -/
def Mach.failRing (m : Mach) (p bit : Nat) : Mach :=
  ((m.setLink (12 + p) { m.link (12 + p) with stage := .failed }).showTx (12 + p)).raiseLnk bit p

/-! ### Camera ports (R195, R229, R231) -/

/-- The lanes of an enabled port other than p. -/
def Mach.laneTaken (m : Mach) (p : Nat) : Bool :=
  (List.range 12).any fun k => k != p && m.portEn k && (m.lanesOf k).any fun j => (m.lanesOf p).contains j

/-- The checks for EN = 1: the lane choice (R195), the line's width for the pixel format (R201) and the history ring (R224). -/
def Mach.portOk (m : Mach) (p : Nat) : Bool :=
  let a := rPortCfg (p / 6) (p % 6)
  let w := m.portWidth p
  let fmt := m.rbits a 14 12
  let lanes := m.rbits a 2 1
  let next := lanes = 2 ∧ m.portEn (p + 1)
  let hist := decide (m.hlines p = 0) ||
    decide (m.rbits (rPortHist (p / 6) (p % 6)) 31 16 * 2 ^ 20 + m.hlines p * lineSlot w ≤ (m.reg (rRingSize (p / 6) 3)).toNat)
  decide (lanes < 3) && !(lanes == 2 && p % 2 == 1) && !decide next && !m.laneTaken p && decide (fmt < 5)
    && !((fmt == 1 || fmt == 3) && w % 4 != 0) && !(fmt == 2 && w % 2 != 0) && hist

/-- Acquisition is over and the port is off (R229). -/
def Mach.portOff (m : Mach) (p : Nat) : Mach :=
  if !m.portEn p then m
  else
    let lanes := m.lanesOf p
    let m := m.endAcquisition p
    let a := rPortFfc (p / 6) (p % 6)
    let m := (m.putBit a 2 (m.bit a 1)).putBit (rPortCfg (p / 6) (p % 6)) 0 false
    let m := lanes.foldl (fun (m : Mach) j => (m.setLane j Lane.quiet).setReg (rClStat j) 0) m
    (m.setLink p Link.off).setReg (rPortStat (p / 6) (p % 6)) 0

/-- The counters and the acquisition of a port at EN := 1: L, the frame number and the settings generation start afresh. -/
def Mach.freshPort (m : Mach) (p : Nat) : Mach :=
  let d := p / 6
  let q := p % 6
  let m := ((((m.setReg (rPortFrames d q) 0).setReg64 (rPortLidxLo d q) 0).setReg (rPortBadlines d q) 0).setReg (rPortDisc d q) 0).setFld
    (rPortExpCmd d q) 15 8 0
  m.setPort p { m.port p with lidx := 0, lastFn := none, sgen := 0, gapNext := false, ueGap := false, hist := [] }

/-- PORT_ENABLE: a PORT_CFG write with EN = 1 (R195, R201, R224, R231, R347). -/
def portEnable (p : Nat) (v : W32) (cable : Cable) (m : Mach) : Mach :=
  let a := rPortCfg (p / 6) (p % 6)
  if !m.hostUp || !m.variant.hasDie (p / 6) || !bitAt v 0 then m
  else
    let n := m.writeReg a v
    if m.portEn p then (if n.reg a = m.reg a then m else m.raisePort p 15)
    else
      let off := n.putBit a 0 false
      if !off.portOk p then off.raisePort p 15
      else ((n.freshPort p).classify p (fun j => n.rbits (rClCtl j) 2 0) cable).startLink p

def execPortEnable (die : Fin 2) (port : Fin 6) (v : W32) (cable : Cable) (s : State) : Host.Outcome State Fault Refusal :=
  done s (portEnable (6 * die + port) v cable s.m)

/-- PORT_DISABLE: a PORT_CFG write with EN = 0; with EN = 1 before, the other fields must keep their values (R229, R231). -/
def portDisable (p : Nat) (v : W32) (m : Mach) : Mach :=
  let a := rPortCfg (p / 6) (p % 6)
  if !m.hostUp || !m.variant.hasDie (p / 6) || bitAt v 0 then m
  else
    let n := m.writeReg a v
    if !m.portEn p then n
    else if n.reg a = (m.putBit a 0 false).reg a then m.portOff p
    else m.raisePort p 15

def execPortDisable (die : Fin 2) (port : Fin 6) (v : W32) (s : State) : Host.Outcome State Fault Refusal :=
  done s (portDisable (6 * die + port) v s.m)

/-! ### Block lock (R338, R347 steps 2 and 3, R350, R352) -/

/-- Every lane of a link has block lock. -/
def Mach.allLocked (m : Mach) (k : Nat) : Bool := (m.lanesOf k).all fun j => (m.lane j).lock

/-- What follows once every lane of a link is locked: a camera port maps its lanes, or, relocked with its present map, deskews; a ring
link deskews. -/
def Mach.onLocked (m : Mach) (k : Nat) : Mach :=
  if !m.allLocked k then m
  else
    let x := m.link k
    if k < 12 then m.setLink k { x with stage := if x.stage = .relock then .deskew else .mapping }
    else m.setLink k { x with stage := .deskew }

/-- BLOCK_LOCK: a lane in bring-up locks. On a ring lane the markers show the polarity, which is corrected, and the lane number, which
must be the lane's own; the other lanes of a port that has failed so still lock (R352, R372). -/
def blockLock (lane : LaneId) (marker : Option (BitVec 2)) (inv : Bool) (m : Mach) : Mach :=
  let j := laneNo lane
  match m.linkOfLane j with
  | none => m
  | some k =>
    let x := m.link k
    let late := 12 ≤ k ∧ x.stage = .failed
    if (x.stage ≠ .locking ∧ x.stage ≠ .relock ∧ ¬late) ∨ (m.lane j).preset.isNone ∨ (m.lane j).lowPower
        ∨ (12 ≤ k ∧ !m.ringConnected (k - 12)) then m
    else
      let m := (m.setLane j { m.lane j with lock := true }).setCl j 3 3 1
      let m := if 12 ≤ k ∧ m.allLocked k then m.putBit (rRpStat (k - 12)) 3 true else m
      if k < 12 then m.onLocked k
      else
        let p := k - 12
        let l := (j - 24) % 4
        let m := m.putBit (rRpStat p) (4 + l) inv
        if late then m else if marker.any fun n => n.toNat != l then m.failRing p 5 else m.onLocked k

def execBlockLock (lane : LaneId) (marker : Option (BitVec 2)) (inv : Bool) (s : State) : Host.Outcome State Fault Refusal :=
  done s (blockLock lane marker inv s.m)

/-- A camera port that was READY loses lock: its frame closes, and it tries to relock (R213, R350). -/
def Mach.relock (m : Mach) (k : Nat) : Mach :=
  let m := (m.closeFrame k .link).raisePort k 16
  let m := (m.lanesOf k).foldl (fun (m : Mach) j => ((m.setLane j { m.lane j with lock := false }).setCl j 3 3 0).setCl j 2 0 5) m
  let m := m.setLink k { m.link k with stage := .relock }
  if m.lstate k = 5 then m else m.setLstate k 6

/-- A camera port loses lock: READY or beyond, which the deskew is too, it relocks; in bring-up the step fails (R347, R350). -/
def Mach.camLost (m : Mach) (k : Nat) : Mach :=
  match (m.link k).stage with
  | .up => m.relock k
  | .deskew => m.relock k
  | .mapping => m.failCam k 1
  | .quality => m.failCam k 1
  | .adapt => m.failCam k 1
  | .ready => m.failCam k 1
  | _ => m

end Sys2Proof.Machine
end

