-- ==== Sys2Proof/Machine/Rill.lean ====
section
/-! DEFINITION. Rill frames: what a module sends, by which port, under which session; wraps and faults of ring links (R353-R355,
R358-R361, R363, R365-R367, R412-R414). -/
namespace Sys2Proof.Machine

/-! ### Members and status (R359-R361, R363) -/

/-- This module's number, and whether it takes part in the ring. -/
def Mach.modId (m : Mach) : Nat := m.rbits rLnkRingCfg 4 0
def Mach.ringOn (m : Mach) : Bool := m.bit rLnkRingCfg 8
def Mach.dupId (m : Mach) : Bool := m.bit rLnkRingStat 29
def Mach.setRing (m : Mach) (r : Ring) : Mach := { m with ring := r }

/-- The members: the modules heard of and the module itself (R360). -/
def Mach.memberNos (m : Mach) : List Nat :=
  if m.ringOn then (List.range 32).filter fun k => k == m.modId || m.ring.members.any fun x => x.1 == k else []
/-- The lowest member that is a TB2 candidate (R363). -/
def Mach.tb2Master (m : Mach) : Option Nat :=
  m.memberNos.find? fun k => if k = m.modId then m.bit rLnkRingCfg 10 else m.ring.cands.any fun c => c.1 == k && c.2

/-- Mastership of TB2 follows the members: a module that becomes master keeps its TB2, or takes TB1 when it has none; one that stops
starts the 100 µs rule afresh (R363). -/
def Mach.takeTb2 (m : Mach) : Mach :=
  let now := m.tb2Master == some m.modId && m.ringOn
  if now == m.ring.isTb2Master then m
  else if now then
    let off := if m.pos.tb2Set then m.pos.tb2 + m.slewed else 0
    ({ m with
      ring := { m.ring with isTb2Master := true },
      pos := { m.pos with tb2 := off, tb2Slew := 0, tb2Set := true } } : Mach).putBit rPosStat 5 true
  else
    let off := m.pos.tb2 + m.slewed
    { m with ring := { m.ring with isTb2Master := false, tb2T := m.tb1 }, pos := { m.pos with tb2 := off, tb2Slew := 0 } }

/-- The registers that show the members, the token and the TB2 master. -/
def Mach.showRing (m : Mach) : Mach :=
  let ms := m.memberNos
  let r := m.ring
  let m := m.setReg rLnkMembers (BitVec.ofNat 32 (ms.foldl (fun a k => a + 2 ^ k) 0))
  let m := (((m.putBit rLnkRingStat 28 r.tokenValid).setFld rLnkRingStat 21 16 ms.length).setFld rLnkRingStat 12 8 r.holder).setFld
    rLnkRingStat 4 0 ((m.tb2Master).getD 0)
  m.setReg rLnkTokenStat (BitVec.ofNat 32 (b2n r.held * 2 ^ 16 + r.gen.toNat))

/-- The ring's view after a change. -/
def Mach.ringView (m : Mach) : Mach := m.takeTb2.showRing

/-! ### Sending (R353-R355, R366, R414) -/

/-- The class of a frame type (R355): 1 is never paused. -/
def frameClass (ty : Nat) : Nat := if ty = 0x10 then 2 else if ty = 0x20 then 3 else if ty = 0x11 then 4 else if ty = 0x30 then 5 else 1

/-- A frame leaves by a link, or waits while its class is paused (R355). -/
def Mach.emitFrame (m : Mach) (p : Nat) (f : TxFrame) : Mach :=
  let x := m.link (12 + p)
  if x.paused.contains (frameClass f.type.toNat) then m.setLink (12 + p) { x with held := x.held ++ [f] }
  else m.setLink (12 + p) { x with out := x.out ++ [f] }

/-- The frame as it leaves by port p. -/
def RFrame.by (f : RFrame) (p : Nat) : RFrame := { f with west := p % 2 == 1 }

/-- A frame is to leave by port p, with its hops reduced unless it is sent here: by the port when it is ACTIVE; by the other port of the
plane, marked WRAPPED and its hops kept, when p is wrapped; otherwise it is dropped and counted (R355, R366). Nothing leaves
during a scrub (R419). -/
def Mach.sendBy (m : Mach) (p : Nat) (ty : BitVec 8) (f : RFrame) (hops : Nat) : Mach :=
  if m.scrubbing then m
  else if m.rpState p = 4 ∧ !(m.link (12 + p)).wrapped then
    if hops = 0 then m.raiseLnk 11 p else m.emitFrame p { type := ty, fr := RFrame.by { f with hops := hops } p }
  else if (m.link (12 + p)).wrapped ∧ m.rpState (otherPort p) = 4 then
    m.emitFrame (otherPort p) { type := ty, fr := RFrame.by { f with wrapped := true } (otherPort p) }
  else (m.inc (rRpLdrop p)).raiseLnk 12 p

/-- Hops to a module going west, and going east round the present members (R355, R360). -/
def Mach.hopsWest (m : Mach) (d : Nat) : Nat := (m.ring.dist.lookup d).getD 0
def Mach.hopsEast (m : Mach) (d : Nat) : Nat := m.memberNos.length - m.hopsWest d

/-- A wrap lies on the way to a module: at the E port of a module before it going east or the W port of one up to it, and the other way
round going west (R366). -/
def Mach.blockedWay (m : Mach) (plane : Nat) (west : Bool) (d : Nat) : Bool :=
  let hop := fun k => if k = m.modId then 0 else if west then m.hopsWest k else m.hopsEast k
  m.ring.wraps.any fun w =>
    let k := w / 4
    let p := w % 4
    p / 2 == plane && (if (p % 2 == 1) == west then decide (hop k < hop d) else k != m.modId && decide (hop k ≤ hop d))

/-- The port of a plane by which a frame leaves for a module: the way that no wrap blocks, then the one with fewer hops, E on a tie. -/
def Mach.routeTo (m : Mach) (plane d : Nat) : Nat :=
  let e := m.blockedWay plane false d
  let w := m.blockedWay plane true d
  let west := if e = w then decide (m.hopsWest d < m.hopsEast d) else e
  if d < 32 ∧ m.ring.dist.any (fun x => x.1 == d) ∧ west then 2 * plane + 1 else 2 * plane

/-- The hops that a frame of this module has left when it leaves. DESIGN CHOICE (log 41): the largest number. -/
def fullHops : Nat := 63

/-- The header of a frame of this module. -/
def Mach.header (m : Mach) (dst : Nat) (seq session : Nat) (spec : List Byte) (payload : List Slot) (enc : Bool) : RFrame :=
  { west := false, enc := enc, wrapped := false, src := BitVec.ofNat 8 m.modId, dst := BitVec.ofNat 8 dst, hops := fullHops,
    seq := BitVec.ofNat 32 seq, session := BitVec.ofNat 32 session, spec := BitVec.ofNat 128 (leNat (padTo 16 spec)), payload := payload, tag := 0 }

/-- The key of a count of sequence numbers: session, source, type and destination. -/
def seqKey (session src ty dst : Nat) : Nat := ((session * 256 + src) * 256 + ty) * 256 + dst

/-- The next sequence number for a type and destination under a session (R353). -/
def Mach.nextSeq (m : Mach) (session ty dst : Nat) : Nat := (m.ring.seqs.lookup (seqKey session m.modId ty dst)).getD 0
def Mach.tookSeq (m : Mach) (session ty dst : Nat) : Mach :=
  let k := seqKey session m.modId ty dst
  { m with ring := { m.ring with seqs := (k, m.nextSeq session ty dst + 1) :: m.ring.seqs.filter fun x => x.1 != k } }

/-- The module may send frames of a type: it takes part in the ring, and with a duplicate number only HELLO besides VER and ECHO
(R359). -/
def Mach.maySend (m : Mach) (ty : Nat) : Bool := m.ringOn && (!m.dupId || decide (ty = 1 ∨ ty = 2 ∨ ty = 3))

/-- A wrap is known on a plane. -/
def Mach.wrapKnown (m : Mach) (plane : Nat) : Bool := m.ring.wraps.any fun w => w % 4 / 2 == plane

/-- The ports by which a frame of this module leaves: the one chosen. A broadcast that goes round the ring reaches only one side of a wrap,
so while one is known on the plane HELLO, TOKEN and REMAP leave by each port of it that is not wrapped (R366, R368 step 6; DEDUCED, log
127). -/
def Mach.portsFor (m : Mach) (p ty dst : Nat) : List Nat :=
  let both := [2 * (p / 2), 2 * (p / 2) + 1].filter fun q => !(m.link (12 + q)).wrapped
  if dst = 0xFF ∧ (ty = 2 ∨ ty = 5 ∨ ty = 0x30) ∧ m.wrapKnown (p / 2) ∧ both ≠ [] then both else [p]

/-- A frame of this module sent. -/
def Mach.sendOut (m : Mach) (p ty dst : Nat) (f : RFrame) : Mach :=
  (m.portsFor p ty dst).foldl (fun (m : Mach) q => m.sendBy q (BitVec.ofNat 8 ty) f fullHops) m

/-- A frame without encryption sent by a port. -/
def Mach.sendClear (m : Mach) (p ty dst : Nat) (spec : List Byte) : Mach :=
  if m.maySend ty then (m.sendOut p ty dst (m.header dst (m.nextSeq 0 ty dst) 0 spec [] false)).tookSeq 0 ty dst else m

/-- The session that carries a type: the tool session for REMAP, that of the resident context for WRITE and VERDICT (R412). -/
def Mach.sessionFor (m : Mach) (ty : Nat) : Option Session :=
  let c := if ty = 0x30 then some 0xFFFF else m.sec.resident
  m.sec.sessions.find? fun x => c == some x.ctx

/-- The key of frames of a type to a destination (R414). -/
def frameKey (key : BitVec 256) (ty dst : Nat) : BitVec 256 :=
  BitVec.ofNat 256 (leNat (hkdf (zeros 32) (bytes32 key) (ascii "L9 RF" ++ [BitVec.ofNat 8 ty, BitVec.ofNat 8 dst]) 32))

/-- The nonce of a frame (R414). -/
def frameNonce (f : RFrame) : List Byte := leBytes 4 f.session.toNat ++ [f.src] ++ zeros 3 ++ leBytes 4 f.seq.toNat

/-- Octets 0 to 31 of a header as they are authenticated. DIR, WRAPPED and HOPS, which modules on the way change, count as 0: DESIGN CHOICE
(log 125). -/
def frameAad (f : RFrame) (ty : Nat) : List Byte :=
  [BitVec.ofNat 8 ty, 2, f.src, f.dst, 0, 0] ++ leBytes 2 f.payload.length ++ leBytes 4 f.seq.toNat ++ leBytes 4 f.session.toNat
    ++ leBytes 16 f.spec.toNat

/-- The frame sealed under a session (R353, R414). -/
def sealFrame (f : RFrame) (s : Session) (ty : Nat) : RFrame :=
  let c := gcmSeal (frameKey s.key ty f.dst.toNat) (frameNonce f) (frameAad f ty) (f.payload.flatMap slotBytes)
  { f with payload := (List.range f.payload.length).map fun i => bytesSlot (slice c.1 (64 * i) 64), tag := BitVec.ofNat 128 (leNat c.2) }

/-- The frame in clear, when its tag is right (R353, R414). -/
def openFrame (f : RFrame) (s : Session) (ty : Nat) : Option RFrame :=
  (gcmOpen (frameKey s.key ty f.dst.toNat) (frameNonce f) (frameAad f ty) (f.payload.flatMap slotBytes) (leBytes 16 f.tag.toNat)).map fun p =>
    { f with payload := (List.range f.payload.length).map fun i => bytesSlot (slice p (64 * i) 64), tag := 0 }

/-- An encrypted frame sent by a port; without a session or sequence numbers it is discarded and counted (R414). -/
def Mach.sendSealed (m : Mach) (p ty dst : Nat) (spec : List Byte) (payload : List Slot) : Mach :=
  if !m.maySend ty then m
  else
    let none_ := fun (m : Mach) => (m.inc (rRpSdrop p)).raiseSec 7
    match m.sessionFor ty with
    | none => none_ m
    | some s =>
      let n := m.nextSeq (s.num.toNat + 1) ty dst
      if 0xFFFFFFFF < n then none_ m
      else (m.sendOut p ty dst (sealFrame (m.header dst n s.num.toNat spec payload true) s ty)).tookSeq (s.num.toNat + 1) ty dst

/-! ### Wraps (R366, R367) -/

/-- A wrap of a module is known; WRAPN tells the others (R366). Hop counts of TB2SYNC are learned anew. -/
def Mach.noteWrap (m : Mach) (k p : Nat) (on : Bool) : Mach :=
  let w := 4 * k + p
  let l := m.ring.wraps.filter fun x => x != w
  { m with ring := { m.ring with wraps := if on then w :: l else l, syncHops := [] } }

/-- Port p wraps, or unwraps, and WRAPN leaves by the other port (R366, R367). -/
def Mach.setWrap (m : Mach) (p : Nat) (on : Bool) : Mach :=
  let m := (m.setLink (12 + p) { m.link (12 + p) with wrapped := on }).putBit rLnkRingStat (24 + p) on
  let m := (m.noteWrap m.modId p on).raiseLnk (if on then 13 else 14) p
  m.sendClear (otherPort p) 6 0xFF [BitVec.ofNat 8 m.modId, BitVec.ofNat 8 p, BitVec.ofNat 8 (b2n on)]

/-- A fault at ring port p: the link goes down, and an armed module wraps (R365, R366). -/
def Mach.faultLink (m : Mach) (p : Nat) : Mach :=
  let m := m.downLink p
  if m.bit rLnkWrap 0 && m.ringOn && !(m.link (12 + p)).wrapped then m.setWrap p true else m

/-- EN := 0 at ring port p (R441): a link that was in use is faulted and stays down. -/
def Mach.ringPortOff (m : Mach) (p : Nat) : Mach :=
  if !m.bit (rRpCtl p) 0 then m
  else
    let m := m.putBit (rRpCtl p) 0 false
    if m.rpState p = 4 then m.faultLink p
    else ((m.setLink (12 + p) { Link.off with wrapped := (m.link (12 + p)).wrapped, out := (m.link (12 + p)).out }).showTx (12 + p)).setReg (rRpStat p) 0

end Sys2Proof.Machine
end

