-- ==== Sys2Proof/Machine/Bringup.lean ====
section
/-! DEFINITION. The events of bring-up: loss of lock, windows, timeouts, training blocks and taps, the quality check, adaptive training,
deskew, retries, and the weirs (R338-R352, R369, R370). -/
namespace Sys2Proof.Machine

/-! ### Loss of lock (R338, R350, R365) -/

/-- A lane that has lock loses it: a camera lane sets CL_LOCK and its port relocks or fails; a ring link is faulted. -/
def Mach.laneLost (m : Mach) (j : Nat) : Mach :=
  if !(m.lane j).lock then m
  else
    let m := (m.setLane j { m.lane j with lock := false }).setCl j 3 3 0
    match m.linkOfLane j with
    | none => m
    | some k => if k < 12 then (m.raiseLnk 0 (laneSource j)).camLost k else m.faultLink (k - 12)

/-- The receiver of a lane is on: its link is in bring-up or up (R338). -/
def Mach.receives (m : Mach) (j : Nat) : Bool := (m.linkOfLane j).any fun k => (m.link k).stage != .off && (m.lane j).preset.isSome

/-- Invalid headers that a receiver meets; each is counted (R338). -/
def Mach.badHeaders (m : Mach) (j n : Nat) : Mach := if m.receives j then m.addIhdr j n else m

/-- BLOCK_LOCK_LOSS: 16 or more invalid headers within 64 blocks; the receiver slips, and a lock is lost (R338). -/
def blockLockLoss (lane : LaneId) (bad : Nat) (m : Mach) : Mach :=
  let j := laneNo lane
  if bad < 16 then m else (m.badHeaders j bad).laneLost j

def execBlockLockLoss (lane : LaneId) (bad : Nat) (s : State) : Host.Outcome State Fault Refusal := done s (blockLockLoss lane bad s.m)

/-- WINDOW_FAULT: a locked receiver's window ends. Its invalid headers are counted, and with 16 or more a ring link is faulted (R338, R365).
While the quality check runs, QUALITY_CHECK reports them (log 126). -/
def windowFault (lane : LaneId) (bad : Nat) (m : Mach) : Mach :=
  let j := laneNo lane
  if !(m.lane j).lock ∨ (m.linkOfLane j).any fun k => (m.link k).stage == .quality then m
  else
    let m := m.badHeaders j bad
    if bad < 16 ∨ j < 24 then m else m.faultLink ((j - 24) / 4)

def execWindowFault (lane : LaneId) (bad : Nat) (s : State) : Host.Outcome State Fault Refusal := done s (windowFault lane bad s.m)

/-- LOCK_TIMEOUT: a lane has not locked in its 10 ms. A camera port's bring-up fails; a ring port goes on to its next preset (R347,
R352). -/
def lockTimeout (port : PortId) (m : Mach) : Mach :=
  let k := linkNo port
  let x := m.link k
  if x.stage ≠ .locking ∨ m.allLocked k then m
  else if k < 12 then m.failCam k 1
  else m.setLink k { x with timedOut := true }

def execLockTimeout (port : PortId) (s : State) : Host.Outcome State Fault Refusal := done s (lockTimeout port s.m)

/-- PRESET_RETRY: presets P0 to P3 in turn, then RP_DOWN and the class preset again (R352). -/
def presetRetry (p : Nat) (m : Mach) : Mach :=
  let k := 12 + p
  let x := m.link k
  if !x.timedOut then m
  else if x.trial < 4 then
    let t := presetTaps x.trial
    let m := (m.lanesOf k).foldl (fun (m : Mach) j => m.setTaps j t.1 t.2) m
    m.setLink k { x with timedOut := false, trial := x.trial + 1 }
  else (m.raiseLnk 4 p).startLink k

def execPresetRetry (p : Fin 4) (s : State) : Host.Outcome State Fault Refusal := done s (presetRetry p s.m)

/-- BRINGUP_RETRY: 100 ms after a failed step the port is at step 1 again (R347, R352). -/
def bringupRetry (port : PortId) (m : Mach) : Mach :=
  let k := linkNo port
  if (m.link k).stage = .failed then m.startLink k else m

def execBringupRetry (port : PortId) (s : State) : Host.Outcome State Fault Refusal := done s (bringupRetry port s.m)

/-- RELOCK_TIMEOUT: the port has not relocked within 1 ms and is at step 1 again (R350). -/
def relockTimeout (p : Nat) (m : Mach) : Mach := if (m.link p).stage = .relock then m.startLink p else m

def execRelockTimeout (die : Fin 2) (port : Fin 6) (s : State) : Host.Outcome State Fault Refusal := done s (relockTimeout (6 * die + port) s.m)

/-! ### Training blocks and taps (R342, R345, R346) -/

/-- A training block's own octets (R345). -/
def trainingOk (o : W64) : Bool := bits o 23 0 == 0x965A4B && bits o 63 48 == 0

/-- A tap's step: INC or DEC within its range and PRE + POST ≤ 24, with the status that answers it; anything else changes nothing. -/
def tapStep (req : BitVec 2) (v other lim : Nat) (st : BitVec 2) : Nat × BitVec 2 :=
  if req = 1 then (if v < lim ∧ v + other < 24 then (v + 1, 1) else (v, 3))
  else if req = 2 then (if 0 < v then (v - 1, 1) else (v, 2))
  else (v, st)

/-- What a partner's training block says: its lane, what it hears, its readiness, the status of its taps, and its request. A new request is
taken once; a status returns to NOT_UPDATED when HOLD is seen (R345, R346). Frames count while both sides are ready (R347 step 7). -/
def Lane.hear (x : Lane) (o : W64) (inv : Bool) : Lane :=
  let pre := BitVec.ofNat 2 (bits o 25 24)
  let post := BitVec.ofNat 2 (bits o 27 26)
  let preset := if bitAt o 28 ∧ bits o 31 29 < 4 then some (BitVec.ofNat 3 (bits o 31 29)) else none
  let ready := bitAt o 36
  let x := { x with
    seen := true, inv := inv, laneNo := BitVec.ofNat 2 (bits o 41 40), heard := BitVec.ofNat 2 (bits o 43 42), heardValid := bitAt o 44,
    heardInv := bitAt o 45, peerReady := ready, readyCnt := if ready && x.rxReady then x.readyCnt + 1 else 0,
    peerPre := BitVec.ofNat 2 (bits o 33 32), peerPost := BitVec.ofNat 2 (bits o 35 34) }
  match preset with
  | some n => if x.reqSeen ∨ x.stPre ≠ 0 ∨ x.stPost ≠ 0 then x else { x with reqSeen := true, reqPreset := some n }
  | none =>
    let newPre := (pre = 1 ∨ pre = 2) ∧ x.stPre = 0
    let newPost := (post = 1 ∨ post = 2) ∧ x.stPost = 0
    let x := { x with stPre := if pre = 0 then 0 else x.stPre, stPost := if post = 0 then 0 else x.stPost }
    if x.reqSeen ∨ (!newPre ∧ !newPost) then x
    else { x with reqSeen := true, reqPreset := none, reqPre := if newPre then pre else 0, reqPost := if newPost then post else 0 }

/-- A receiver's own part of the handshake in adaptive training (R346): a request stands until the partner's status for that tap leaves
NOT_UPDATED, and then returns to HOLD; once both statuses are NOT_UPDATED the receiver asks for a step of one tap or is satisfied. Which, the
spec leaves to the receiver: `n`, a free value, 0 to 3 INC and DEC of pre and of post, 4 to 7 satisfied. -/
def Lane.ask (x : Lane) (n : BitVec 3) : Lane :=
  if x.askPre ≠ 0 then (if x.peerPre = 0 then x else { x with askPre := 0 })
  else if x.askPost ≠ 0 then (if x.peerPost = 0 then x else { x with askPost := 0 })
  else if x.rxReady ∨ x.peerPre ≠ 0 ∨ x.peerPost ≠ 0 then x
  else if n = 0 then { x with askPre := 1 }
  else if n = 1 then { x with askPre := 2 }
  else if n = 2 then { x with askPost := 1 }
  else if n = 3 then { x with askPost := 2 }
  else { x with rxReady := true }

/-- The receiver of a lane whose link is in adaptive training takes its next step. -/
def Mach.askPartner (m : Mach) (k j : Nat) : Mach :=
  if (m.link k).stage = .adapt then
    { m.setLane j ((m.lane j).ask (Config.freeBits 3 m.freeCtr)) with freeCtr := m.freeCtr + 1 }
  else m

/-- ADAPT_EN of a lane: that of the lane on a camera port, that of the port on a ring link (R346). -/
def Mach.adaptOn (m : Mach) (k j : Nat) : Bool := if k < 12 then m.bit (rClCtl j) 3 else m.bit (rRpCtl (k - 12)) 4

/-- Adaptive training begins: a receiver without ADAPT_EN asks for nothing and is satisfied (R346). -/
def Mach.beginAdapt (m : Mach) (k : Nat) : Mach :=
  let x := m.link k
  let m := (m.lanesOf k).foldl (fun (m : Mach) j =>
    m.setLane j { m.lane j with askPre := 0, askPost := 0, rxReady := decide (12 ≤ k) && !m.adaptOn k j, readyCnt := 0 }) m
  let m := m.setLink k { x with stage := .adapt, retried := true }
  if k < 12 then (m.lanesOf k).foldl (fun (m : Mach) j => m.setCl j 2 0 2) m
  else (m.setRpState (k - 12) 2).putBit (rRpStat (k - 12)) 11 true

/-- Step 3 and step 4 of a camera port's bring-up: polarity, and the lane map, which must be a permutation (R347). -/
def Mach.mapLanes (m : Mach) (k : Nat) : Mach :=
  let ls := m.lanesOf k
  if (m.link k).stage ≠ .mapping ∨ !(ls.all fun j => (m.lane j).seen) then m
  else
    let m := ls.foldl (fun (m : Mach) j => m.setCl j 4 4 (b2n (m.lane j).inv)) m
    if (List.range ls.length).all fun n => ls.any fun j => (m.lane j).laneNo.toNat == n then
      let m := ls.foldl (fun (m : Mach) j => m.setCl j 7 6 (m.lane j).laneNo.toNat) m
      m.setLink k { m.link k with stage := .quality }
    else m.failCam k 2

/-- The device's transmit lanes as the head hears them: the lane that reaches each head lane, and its inversion (R348). -/
def Mach.pairLanes (m : Mach) (k : Nat) : Mach :=
  (m.lanesOf k).foldl (fun (m : Mach) j =>
    let x := m.lane j
    let t := 2 * k + x.heard.toNat
    if x.heardValid ∧ (m.lanesOf k).contains t then (m.setCl t 9 8 x.laneNo.toNat).setCl t 5 5 (b2n x.heardInv) else m) m

/-- Step 7: both sides have been ready on every lane for 16 frames in a row (R347). -/
def Mach.bothReady (m : Mach) (k : Nat) : Mach :=
  let ls := m.lanesOf k
  if (m.link k).stage = .ready ∧ ls.all fun j => decide (16 ≤ (m.lane j).readyCnt) then
    let m := ls.foldl (fun (m : Mach) j => m.setCl j 2 0 3) m
    m.setLink k { m.link k with stage := .deskew }
  else m

/-- A ring port whose partner trains, before it is ACTIVE, trains with it (R352 step 4). -/
def Mach.trainAlong (m : Mach) (k : Nat) : Mach :=
  let st := (m.link k).stage
  if st = .quality ∨ (st = .up ∧ m.rpState (k - 12) = 3) then m.beginAdapt k else m

/-- TRAINING_BLOCK: heard on a locked lane (R345, R346). A partner's requests are taken in every stage; what it hears and that it is ready
counts until training ends. -/
def trainingBlock (lane : LaneId) (o : W64) (inv : Bool) (m : Mach) : Mach :=
  let j := laneNo lane
  match m.linkOfLane j with
  | none => m
  | some k =>
    if !trainingOk o ∨ !(m.lane j).lock ∨ (m.link k).stage = .off then m
    else
      let m := if k < 12 then m else m.trainAlong k
      let m := (m.setLane j ((m.lane j).hear o inv)).askPartner k j
      let m := if k < 12 then (m.mapLanes k) else m
      let m := if k < 12 ∧ (m.link k).stage = .ready then (m.pairLanes k).bothReady k else m
      m.showTx k

def execTrainingBlock (lane : LaneId) (octets : W64) (inv : Bool) (s : State) : Host.Outcome State Fault Refusal :=
  done s (trainingBlock lane octets inv s.m)

/-- The request taken on a lane takes effect, and its status answers it (R342, R346). -/
def Mach.updateTaps (m : Mach) (j : Nat) : Mach :=
  let x := m.lane j
  match x.reqPreset with
  | some n =>
    let t := presetTaps n.toNat
    (m.setLane j { x with reqSeen := false, reqPreset := none, stPre := 1, stPost := 1 }).setTaps j t.1 t.2
  | none =>
    let t := m.taps j
    let a := tapStep x.reqPre t.1 t.2 8 x.stPre
    let b := tapStep x.reqPost t.2 a.1 20 x.stPost
    (m.setLane j { x with reqSeen := false, stPre := a.2, stPost := b.2 }).setTaps j a.1 b.1

/-- TAP_UPDATE: a request takes effect within 2 µs of being taken. -/
def tapUpdate (lane : LaneId) (m : Mach) : Mach :=
  let j := laneNo lane
  if !(m.lane j).reqSeen then m
  else match m.linkOfLane j with
    | none => m.updateTaps j
    | some k => (m.updateTaps j).showTx k

def execTapUpdate (lane : LaneId) (s : State) : Host.Outcome State Fault Refusal := done s (tapUpdate lane s.m)

/-! ### Quality check, adaptive training, deskew (R340, R346-R348, R352) -/

/-- The lanes of a link with how many invalid headers its check met on each. -/
def Mach.checked (m : Mach) (k : Nat) (bad : List Nat) : List (Nat × Nat) := (m.lanesOf k).mapIdx fun i j => (j, bad.getD i 0)

/-- The quality check has passed: RX_READY on every lane of a camera port, and the frames of step 7 count from here; a ring link goes on to
its versions (R347 step 6, R352). -/
def Mach.checkPassed (m : Mach) (k : Nat) : Mach :=
  let x := m.link k
  if k < 12 then
    let m := (m.lanesOf k).foldl (fun (m : Mach) j => m.setLane j { m.lane j with rxReady := true, readyCnt := 0 }) m
    ((m.pairLanes k).setLink k { x with stage := .ready }).showTx k
  else (m.setLink k { x with stage := .up, verSeen := false, hops := 0 }).setRpState (k - 12) 3

/-- QUALITY_CHECK: the 65 536 blocks of each lane are over, with so many invalid headers on each (R347 steps 5 and 6, R352 step 4). A lane
that failed takes part in adaptive training when its ADAPT_EN is 1, once; otherwise the step fails. -/
def qualityCheck (port : PortId) (bad : List Nat) (m : Mach) : Mach :=
  let k := linkNo port
  let x := m.link k
  if x.stage ≠ .quality then m
  else
    let l := m.checked k bad
    let m := l.foldl (fun (m : Mach) e => m.badHeaders e.1 e.2) m
    if l.all fun e => e.2 == 0 then m.checkPassed k
    else if (l.all fun e => e.2 == 0 || m.adaptOn k e.1) && !x.retried then (m.beginAdapt k).showTx k
    else if k < 12 then m.failCam k 1
    else m.failRing (k - 12) 4

def execQualityCheck (port : PortId) (bad : List Nat) (s : State) : Host.Outcome State Fault Refusal := done s (qualityCheck port bad s.m)

/-- ADAPTIVE_TRAINING_END: the quality check is repeated; on a ring link both sides must report RX_READY (R346, R347, R352). -/
def adaptiveTrainingEnd (port : PortId) (m : Mach) : Mach :=
  let k := linkNo port
  let x := m.link k
  if x.stage ≠ .adapt ∨ (12 ≤ k ∧ !(m.lanesOf k).all fun j => (m.lane j).peerReady && (m.lane j).rxReady) then m
  else
    let m := (m.lanesOf k).foldl (fun (m : Mach) j => m.setLane j { m.lane j with askPre := 0, askPost := 0 }) m
    let m := (m.setLink k { x with stage := .quality }).showTx k
    if k < 12 then (m.lanesOf k).foldl (fun (m : Mach) j => m.setCl j 2 0 1) m else m

def execAdaptiveTrainingEnd (port : PortId) (s : State) : Host.Outcome State Fault Refusal := done s (adaptiveTrainingEnd port s.m)

/-- DESKEW_DONE: within 48 blocks a camera port goes on to its version agreement and a ring link to its quality check; beyond, DESKEW
is set and the port stays in bring-up (R340, R347 step 8, R350, R352). -/
def deskewDone (port : PortId) (skew : Nat) (m : Mach) : Mach :=
  let k := linkNo port
  let x := m.link k
  if x.stage ≠ .deskew then m
  else if 48 < skew then (if k < 12 then m.failCam k 3 else m.failRing (k - 12) 3)
  else if k < 12 then
    let m := (m.lanesOf k).foldl (fun (m : Mach) j => m.setCl j 2 0 3) m
    let m := m.setLink k { x with stage := .up }
    if m.lstate k = 5 then m else m.enterVersion k
  else m.setLink k { x with stage := .quality }

def execDeskewDone (port : PortId) (skew : Nat) (s : State) : Host.Outcome State Fault Refusal := done s (deskewDone port skew s.m)

/-! ### Ring ports and weirs (R352, R365, R369, R370, R441) -/

/-- RP_CTL as a write leaves it: reserved classes are AUTO, RETRAIN is no stored bit. -/
def rpCtlOf (v : W32) : W32 :=
  let c := bits v 3 1
  BitVec.ofNat 32 (b2n (bitAt v 4) * 16 + (if 4 ≤ c then 7 else c) * 2 + b2n (bitAt v 0))

/-- RING_LINK_ENABLE: a write of RP_CTL; EN 0 to 1 starts blind bring-up, EN 1 to 0 takes the link down (R352). -/
def ringLinkEnable (p : Nat) (v : W32) (cable : Cable) (m : Mach) : Mach :=
  if !m.hostUp || m.variant.absentReg (rRpCtl p) then m
  else
    let was := m.bit (rRpCtl p) 0
    let w := rpCtlOf v
    if was && !bitAt w 0 then (m.ringPortOff p).setReg (rRpCtl p) w
    else
      let m := m.setReg (rRpCtl p) w
      if was || !bitAt w 0 then m else (m.classify (12 + p) (fun _ => bits w 3 1) cable).startLink (12 + p)

def execRingLinkEnable (p : Fin 4) (v : W32) (cable : Cable) (s : State) : Host.Outcome State Fault Refusal := done s (ringLinkEnable p v cable s.m)

/-- RETRAIN: the link is faulted and brought up again (R365). -/
def ringRetrain (p : Nat) (m : Mach) : Mach := if m.hostUp && m.bit (rRpCtl p) 0 then m.faultLink p else m

def execRingRetrain (p : Fin 4) (s : State) : Host.Outcome State Fault Refusal := done s (ringRetrain p s.m)

/-- RING_LINK_FAULT: a lane loses its marker alignment, or the port leaves ACTIVE (R365). -/
def ringLinkFault (p : Nat) (m : Mach) : Mach :=
  if m.bit (rRpCtl p) 0 && (m.link (12 + p)).stage != .locking && (m.link (12 + p)).stage != .off then m.faultLink p else m

def execRingLinkFault (p : Fin 4) (s : State) : Host.Outcome State Fault Refusal := done s (ringLinkFault p s.m)

/-- WEIR_INSERT: the switches of a plane whose INSERT differs from its state begin to switch (R370). -/
def weirInsert (v : W32) (m : Mach) : Mach :=
  if !m.hostUp then m
  else
    let w := bits v 1 0 % (if m.variant.io1 then 4 else 2)
    let m := m.setFld rLnkWeir 1 0 w
    m.putBit rLnkWeir 6 (w != m.rbits rLnkWeir 5 4)

def execWeirInsert (v : W32) (s : State) : Host.Outcome State Fault Refusal := done s (weirInsert v s.m)

/-- WEIR_SWITCH_DONE: the state is reached, or has not been within 60 µs (R370). -/
def weirSwitchDone (plane : Nat) (settled : Bool) (m : Mach) : Mach :=
  if !m.bit rLnkWeir 6 ∨ m.bit rLnkWeir plane = m.bit rLnkWeir (4 + plane) then m
  else
    let other := 1 - plane
    let m := if settled then m.putBit rLnkWeir (4 + plane) (m.bit rLnkWeir plane) else m.raiseLnk 20 0xFFFF
    m.putBit rLnkWeir 6 (m.bit rLnkWeir other != m.bit rLnkWeir (4 + other))

def execWeirSwitchDone (plane : Fin 2) (settled : Bool) (s : State) : Host.Outcome State Fault Refusal := done s (weirSwitchDone plane settled s.m)

/-- The port that a PORT_OFF or RING_PORT_OFF names: ARG, or with 0xFFFF the event's source when the event has such a port (R441). -/
def offPort (p : Rsp) (block lim : Nat) : Option Nat :=
  if p.arg = 0xFFFF then (if p.ev.block = block ∧ p.ev.source < lim then some p.ev.source else none)
  else if p.arg < lim then some p.arg
  else none

/-- PORT_OFF. -/
def actPortOff (r : Nat) (m : Mach) : Mach :=
  m.act r 3 fun p m =>
    match offPort p 6 12 with
    | some k => (m.portOff k, 0)
    | none => (m, 2)

def execActPortOff (r : Fin 32) (s : State) : Host.Outcome State Fault Refusal := done s (actPortOff r s.m)

/-- RING_PORT_OFF. -/
def actRingPortOff (r : Nat) (m : Mach) : Mach :=
  m.act r 4 fun p m =>
    match offPort p 0xB 4 with
    | some k => (m.ringPortOff k, 0)
    | none => (m, 2)

def execActRingPortOff (r : Fin 32) (s : State) : Host.Outcome State Fault Refusal := done s (actRingPortOff r s.m)

end Sys2Proof.Machine
end

