-- ==== Sys2Proof/Machine/Bundle.lean ====
section
/-! DEFINITION. The commands by which a tile's sequencer is given the operations of its bundles. The operations of one bundle come
in the order of its slots; an operation whose slot does not lie behind the slot of the one before begins the next bundle, and
the CTL operation ends its own (R40, R41). Log 21. -/
namespace Sys2Proof.Machine

/-- A hold that time alone ends, by a bank or by the array, passes. -/
def Mach.settle (m : Mach) (t : TileIdx) : Nat → Mach
  | 0 => m
  | n + 1 =>
    let u := m.bundleUnmet t
    if (m.tile t).closed && u.bank && !u.tag && !u.lat && !u.que then m.tick.settle t n else m

/-- How many slots the bundle in hand has passed. -/
def Tile.passed (x : Tile) : Nat :=
  match x.bundle.getLast? with
  | none => 0
  | some i => slotNo (slotOf i) + 1

/-- The sequencer stands where an operation of a slot can join a bundle: the start cycle has come, a bundle whose slots are passed
has ended, and at most one bundle issues per cycle. -/
def Mach.room (m : Mach) (t : TileIdx) (sl : SlotName) : Mach :=
  let m := m.advanceTo (m.tile t).startCycle
  let m := if slotNo sl < (m.tile t).passed then (m.offer t (.nop t .ctl)).endBundle t else m
  let m := m.settle t 16
  if (m.tile t).issuedAt = m.cyc + 1 then m.tick else m

/-- An operation is presented to its tile. An operation that the loader would refuse, one for a tile that issues nothing, and one
for a tile that still presents a held bundle is not taken. -/
def Mach.present (m : Mach) (t : TileIdx) (i : Instr) : Mach :=
  if !wellFormed i || !m.issuing t then m
  else
    let m := m.room t (slotOf i)
    if (m.tile t).closed then m
    else
      let m := m.offer t i
      if slotOf i = .ctl then m.endBundle t else m

/-- SLIP (R159): the slip of the bundle that a tile holds, in the cycle in which its slack budget is used up (R158). -/
def execSlip (t : TileIdx) (s : State) : Host.Outcome State Fault Refusal := done s (s.m.slip t)

def execNop (t : TileIdx) (sl : SlotName) (s : State) : Host.Outcome State Fault Refusal :=
  done s (s.m.present t (.nop t sl))
def execMacMm (t : TileIdx) (p : Pred) (f : MmF) (s : State) : Host.Outcome State Fault Refusal :=
  done s (s.m.present t (.macMm t p f))
def execMacWld (t : TileIdx) (p : Pred) (f : WldF) (s : State) : Host.Outcome State Fault Refusal :=
  done s (s.m.present t (.macWld t p f))
def execMacXld (t : TileIdx) (p : Pred) (f : XldF) (s : State) : Host.Outcome State Fault Refusal :=
  done s (s.m.present t (.macXld t p f))
def execMacAclr (t : TileIdx) (p : Pred) (row : BitVec 6) (cnt : BitVec 6) (s : State) : Host.Outcome State Fault Refusal :=
  done s (s.m.present t (.macAclr t p row cnt))
def execVecAdd (t : TileIdx) (p : Pred) (f : VecF) (s : State) : Host.Outcome State Fault Refusal :=
  done s (s.m.present t (.vecAdd t p f))
def execVecSub (t : TileIdx) (p : Pred) (f : VecF) (s : State) : Host.Outcome State Fault Refusal :=
  done s (s.m.present t (.vecSub t p f))
def execVecMul (t : TileIdx) (p : Pred) (f : VecF) (s : State) : Host.Outcome State Fault Refusal :=
  done s (s.m.present t (.vecMul t p f))
def execVecFma (t : TileIdx) (p : Pred) (f : VecF) (s : State) : Host.Outcome State Fault Refusal :=
  done s (s.m.present t (.vecFma t p f))
def execVecMin (t : TileIdx) (p : Pred) (f : VecF) (s : State) : Host.Outcome State Fault Refusal :=
  done s (s.m.present t (.vecMin t p f))
def execVecMax (t : TileIdx) (p : Pred) (f : VecF) (s : State) : Host.Outcome State Fault Refusal :=
  done s (s.m.present t (.vecMax t p f))
def execVecAbs (t : TileIdx) (p : Pred) (f : VecF) (s : State) : Host.Outcome State Fault Refusal :=
  done s (s.m.present t (.vecAbs t p f))
def execVecNeg (t : TileIdx) (p : Pred) (f : VecF) (s : State) : Host.Outcome State Fault Refusal :=
  done s (s.m.present t (.vecNeg t p f))
def execVecClt (t : TileIdx) (p : Pred) (f : VecF) (s : State) : Host.Outcome State Fault Refusal :=
  done s (s.m.present t (.vecClt t p f))
def execVecCeq (t : TileIdx) (p : Pred) (f : VecF) (s : State) : Host.Outcome State Fault Refusal :=
  done s (s.m.present t (.vecCeq t p f))
def execVecSel (t : TileIdx) (p : Pred) (f : VecF) (s : State) : Host.Outcome State Fault Refusal :=
  done s (s.m.present t (.vecSel t p f))
def execVecAnd (t : TileIdx) (p : Pred) (f : VecF) (s : State) : Host.Outcome State Fault Refusal :=
  done s (s.m.present t (.vecAnd t p f))
def execVecOr (t : TileIdx) (p : Pred) (f : VecF) (s : State) : Host.Outcome State Fault Refusal :=
  done s (s.m.present t (.vecOr t p f))
def execVecXor (t : TileIdx) (p : Pred) (f : VecF) (s : State) : Host.Outcome State Fault Refusal :=
  done s (s.m.present t (.vecXor t p f))
def execVecShl (t : TileIdx) (p : Pred) (f : VecF) (s : State) : Host.Outcome State Fault Refusal :=
  done s (s.m.present t (.vecShl t p f))
def execVecShr (t : TileIdx) (p : Pred) (f : VecF) (s : State) : Host.Outcome State Fault Refusal :=
  done s (s.m.present t (.vecShr t p f))
def execVecSra (t : TileIdx) (p : Pred) (f : VecF) (s : State) : Host.Outcome State Fault Refusal :=
  done s (s.m.present t (.vecSra t p f))
def execVecRcp (t : TileIdx) (p : Pred) (f : VecF) (s : State) : Host.Outcome State Fault Refusal :=
  done s (s.m.present t (.vecRcp t p f))
def execVecRsq (t : TileIdx) (p : Pred) (f : VecF) (s : State) : Host.Outcome State Fault Refusal :=
  done s (s.m.present t (.vecRsq t p f))
def execVecExp2 (t : TileIdx) (p : Pred) (f : VecF) (s : State) : Host.Outcome State Fault Refusal :=
  done s (s.m.present t (.vecExp2 t p f))
def execVecLog2 (t : TileIdx) (p : Pred) (f : VecF) (s : State) : Host.Outcome State Fault Refusal :=
  done s (s.m.present t (.vecLog2 t p f))
def execVecRsum (t : TileIdx) (p : Pred) (f : VecF) (s : State) : Host.Outcome State Fault Refusal :=
  done s (s.m.present t (.vecRsum t p f))
def execVecRmax (t : TileIdx) (p : Pred) (f : VecF) (s : State) : Host.Outcome State Fault Refusal :=
  done s (s.m.present t (.vecRmax t p f))
def execVecShuf (t : TileIdx) (p : Pred) (f : VecF) (s : State) : Host.Outcome State Fault Refusal :=
  done s (s.m.present t (.vecShuf t p f))
def execVecRot (t : TileIdx) (p : Pred) (f : VecF) (s : State) : Host.Outcome State Fault Refusal :=
  done s (s.m.present t (.vecRot t p f))
def execVecBcst (t : TileIdx) (p : Pred) (f : VecF) (s : State) : Host.Outcome State Fault Refusal :=
  done s (s.m.present t (.vecBcst t p f))
def execVecCvt (t : TileIdx) (p : Pred) (f : VecF) (s : State) : Host.Outcome State Fault Refusal :=
  done s (s.m.present t (.vecCvt t p f))
def execVecQnt (t : TileIdx) (p : Pred) (f : VecF) (s : State) : Host.Outcome State Fault Refusal :=
  done s (s.m.present t (.vecQnt t p f))
def execVecSrnd (t : TileIdx) (p : Pred) (f : VecF) (s : State) : Host.Outcome State Fault Refusal :=
  done s (s.m.present t (.vecSrnd t p f))
def execVecGen (t : TileIdx) (p : Pred) (f : VecF) (s : State) : Host.Outcome State Fault Refusal :=
  done s (s.m.present t (.vecGen t p f))
def execVecRdac (t : TileIdx) (p : Pred) (f : VecF) (s : State) : Host.Outcome State Fault Refusal :=
  done s (s.m.present t (.vecRdac t p f))
def execVecWrac (t : TileIdx) (p : Pred) (f : VecF) (s : State) : Host.Outcome State Fault Refusal :=
  done s (s.m.present t (.vecWrac t p f))
def execVecMovv (t : TileIdx) (p : Pred) (f : VecF) (s : State) : Host.Outcome State Fault Refusal :=
  done s (s.m.present t (.vecMovv t p f))
def execMovLdv (t : TileIdx) (p : Pred) (f : LdvF) (s : State) : Host.Outcome State Fault Refusal :=
  done s (s.m.present t (.movLdv t p f))
def execMovStv (t : TileIdx) (p : Pred) (f : LdvF) (s : State) : Host.Outcome State Fault Refusal :=
  done s (s.m.present t (.movStv t p f))
def execMovCpy (t : TileIdx) (p : Pred) (f : CpyF) (s : State) : Host.Outcome State Fault Refusal :=
  done s (s.m.present t (.movCpy t p f))
def execMovPut (t : TileIdx) (p : Pred) (f : PutF) (s : State) : Host.Outcome State Fault Refusal :=
  done s (s.m.present t (.movPut t p f))
def execMovGld (t : TileIdx) (p : Pred) (f : GldF) (s : State) : Host.Outcome State Fault Refusal :=
  done s (s.m.present t (.movGld t p f))
def execMovGst (t : TileIdx) (p : Pred) (f : GldF) (s : State) : Host.Outcome State Fault Refusal :=
  done s (s.m.present t (.movGst t p f))
def execMovSeta (t : TileIdx) (p : Pred) (n : BitVec 4) (imm : BitVec 13) (s : State) : Host.Outcome State Fault Refusal :=
  done s (s.m.present t (.movSeta t p n imm))
def execMovTags (t : TileIdx) (p : Pred) (n : BitVec 4) (inc : Bool) (tag : Bool) (off : BitVec 11) (s : State) : Host.Outcome State Fault Refusal :=
  done s (s.m.present t (.movTags t p n inc tag off))
def execMovVout (t : TileIdx) (n : BitVec 4) (tm : BitVec 2) (inc : Bool) (s : State) : Host.Outcome State Fault Refusal :=
  done s (s.m.present t (.movVout t n tm inc))
def execSyncLwait (t : TileIdx) (n : BitVec 4) (imm : BitVec 8) (s : State) : Host.Outcome State Fault Refusal :=
  done s (s.m.present t (.syncLwait t n imm))
def execSyncLsig (t : TileIdx) (n : BitVec 4) (imm : BitVec 8) (s : State) : Host.Outcome State Fault Refusal :=
  done s (s.m.present t (.syncLsig t n imm))
def execSyncNext (t : TileIdx) (n : BitVec 4) (s : State) : Host.Outcome State Fault Refusal :=
  done s (s.m.present t (.syncNext t n))
def execSyncPass (t : TileIdx) (n : BitVec 4) (s : State) : Host.Outcome State Fault Refusal :=
  done s (s.m.present t (.syncPass t n))
def execSyncWopn (t : TileIdx) (w : BitVec 3) (s : State) : Host.Outcome State Fault Refusal :=
  done s (s.m.present t (.syncWopn t w))
def execSyncWcls (t : TileIdx) (w : BitVec 3) (s : State) : Host.Outcome State Fault Refusal :=
  done s (s.m.present t (.syncWcls t w))
def execCtlLoop (t : TileIdx) (level : BitVec 2) (n : BitVec 4) (s : State) : Host.Outcome State Fault Refusal :=
  done s (s.m.present t (.ctlLoop t level n))
def execCtlEndl (t : TileIdx) (level : BitVec 2) (s : State) : Host.Outcome State Fault Refusal :=
  done s (s.m.present t (.ctlEndl t level))
def execCtlStep (t : TileIdx) (s : State) : Host.Outcome State Fault Refusal :=
  done s (s.m.present t (.ctlStep t))
def execCtlArst (t : TileIdx) (kind : BitVec 3) (index : BitVec 4) (s : State) : Host.Outcome State Fault Refusal :=
  done s (s.m.present t (.ctlArst t kind index))
def execCtlTaly (t : TileIdx) (stream : BitVec 3) (s : State) : Host.Outcome State Fault Refusal :=
  done s (s.m.present t (.ctlTaly t stream))
def execCtlHalt (t : TileIdx) (s : State) : Host.Outcome State Fault Refusal :=
  done s (s.m.present t (.ctlHalt t))
end Sys2Proof.Machine
end

