-- ==== Sys2Proof/Machine/Power.lean ====
section
/-! DEFINITION. Power, resets and clocks (R464-R474, R491, R492, R501): the power-up order, the sources of module reset, clock
alignment, and the events of the CLK block. -/
namespace Sys2Proof.Machine

/-- Power domains that the variant has: the six stacks' domains by variant, those of IO1 on I2 parts (R465). -/
def Variant.domains (v : Variant) : BitVec 36 :=
  BitVec.ofNat 36 (0xFFFF + v.stackMask * 2 ^ 16 + 0xF * 2 ^ 22 + (if v.io1 then 0xF * 2 ^ 26 else 0) + 0x3F * 2 ^ 30)

/-- Clock domains that run from REF and lock at power-up, without those of an absent IO1 (R464, R10). -/
def Variant.clocks (v : Variant) : BitVec 25 :=
  BitVec.ofNat 25 (if v.io1 then 0x17E07FF else 0x17E02FF)

/-- Module reset (R467): every block, every context and every key; flash, the field side and the levels at the encoder inputs
keep what they hold. The cause is recorded at the release. -/
def Mach.moduleReset (m : Mach) (cause : Nat) (p : Pwr) : Mach :=
  { Mach.reset with
    freeCtr := m.freeCtr, variant := m.variant, flash := m.flash, fld := Fld.reset m.fld.side.carry,
    pos := { Pos.zero with
      enc0 := { Enc.zero with a := m.pos.enc0.a, b := m.pos.enc0.b },
      enc1 := { Enc.zero with a := m.pos.enc1.a, b := m.pos.enc1.b } },
    pwr := { p with inReset := true, cause := cause, aligned := false, tries := 0, ddrReady := false, bootOk := false,
                    excursion := false, thermWarn := false } }

/-- POWER_ON (R469 steps 1 to 5): the fitted domains come up and the PLLs lock; module reset stays held. -/
def powerOn (m : Mach) : Mach :=
  if m.pwr.vin then m
  else { m with pwr := { m.pwr with
    vin := true, inReset := true, lockedOut := false, cause := 0, good := m.variant.domains, locks := m.variant.clocks,
    refOk := true } }

def execPowerOn (s : State) : Host.Outcome State Fault Refusal := done s (powerOn s.m)

/-- POWER_LOSS (R470): reset, the weirs to BYPASS, the domains down. -/
def powerLoss (m : Mach) : Mach :=
  if m.pwr.vin then m.moduleReset 0 { m.pwr with vin := false, good := 0, locks := 0, refOk := false } else m

def execPowerLoss (s : State) : Host.Outcome State Fault Refusal := done s (powerLoss s.m)

/-- MRST (R466, R467): reset with the rails kept on; domains that a protection switched off come up again. -/
def mrst (m : Mach) : Mach :=
  if m.pwr.vin then
    m.moduleReset 1 { m.pwr with lockedOut := false, good := m.variant.domains, locks := m.variant.clocks, refOk := true }
  else m

def execMrst (s : State) : Host.Outcome State Fault Refusal := done s (mrst s.m)

/-- GLB_RST (R467): a host write with KEY 0x4C39 and MODULE 1. -/
def glbRst (v : W32) (m : Mach) : Mach :=
  if m.hostUp && bits v 31 16 == 0x4C39 && bitAt v 0 then m.moduleReset 2 m.pwr else m

def execGlbRst (v : W32) (s : State) : Host.Outcome State Fault Refusal := done s (glbRst v s.m)

/-- DEXZON_RESET (R467): a connected Dexzon client asks for a reset. -/
def dexzonReset (m : Mach) : Mach := if m.sec.dexUp && !m.pwr.inReset then m.moduleReset 3 m.pwr else m

def execDexzonReset (s : State) : Host.Outcome State Fault Refusal := done s (dexzonReset s.m)

/-- A sensor of a fitted die, stack or plate (PWR_TEMP). -/
def Variant.hasSensor (v : Variant) (i : Nat) : Bool := i != 5 || v.io1
/-- A sensor's reading, in 1/16 °C. -/
def Mach.setTemp (m : Mach) (i : Nat) (t : BitVec 16) : Mach := m.setReg (rPwrTemp i) (BitVec.ofNat 32 t.toNat)

/-- THERMAL_TRIP (R466, R467): a die sensor at 120 °C resets the module and switches the package domains, 0 to 33, off until MRST#
or a power cycle (log 16). -/
def thermalTrip (sensor : Nat) (t : BitVec 16) (m : Mach) : Mach :=
  if m.pwr.vin && m.variant.hasSensor sensor && decide ((1920 : Int) ≤ t.toInt) then
    (m.moduleReset 4 { m.pwr with lockedOut := true, good := m.pwr.good &&& 0xC00000000#36, locks := m.pwr.locks &&& 0x1#25 }).setTemp
      sensor t
  else m

def execThermalTrip (sensor : Fin 7) (temp : BitVec 16) (s : State) : Host.Outcome State Fault Refusal :=
  done s (thermalTrip sensor temp s.m)

/-- REGULATOR_FAULT (R467): every domain except 35 goes off. -/
def regulatorFault (m : Mach) : Mach :=
  if m.pwr.vin then
    m.moduleReset 5 { m.pwr with lockedOut := true, good := m.pwr.good &&& 0x800000000#36, locks := m.pwr.locks &&& 0x1#25 }
  else m

def execRegulatorFault (s : State) : Host.Outcome State Fault Refusal := done s (regulatorFault s.m)

/-- RESET_RELEASE (R469 step 5): every fitted domain good, the PLLs locked; the cause is recorded. -/
def resetRelease (m : Mach) : Mach :=
  if m.pwr.vin && m.pwr.inReset && !m.pwr.lockedOut && m.pwr.good == m.variant.domains && m.pwr.locks == m.variant.clocks then
    { m with pwr := { m.pwr with inReset := false } }.setReg rGlbRstCause (BitVec.ofNat 32 (2 ^ m.pwr.cause))
  else m

def execResetRelease (s : State) : Host.Outcome State Fault Refusal := done s (resetRelease s.m)

/-- CLOCK_ALIGNMENT (R471): attempts are counted; after a success ALIGNED is set and TB1 starts from 0, after a third failure
ALIGN_FAIL is reported. -/
def clockAlignment (fails : Nat) (m : Mach) : Mach :=
  if m.pwr.inReset || m.pwr.aligned || m.pwr.tries != 0 then m
  else if fails < 3 then { m with cyc := 0, pwr := { m.pwr with tries := fails + 1, aligned := true } }
  else { m with pwr := { m.pwr with tries := 3 } }.raiseClk 2 0xFFFF

def execClockAlignment (fails : Fin 4) (s : State) : Host.Outcome State Fault Refusal := done s (clockAlignment fails s.m)

/-- A bank table with an invalid copy rewritten from the one in force (R480). -/
def BankSet.repair (b : BankSet) : BankSet := if b.a.ok && b.b.ok then b else { a := b.cur, b := b.cur }

/-- DDR_READY (R469 step 8): DDR4 is trained, and bank tables are read and repaired. -/
def ddrReady (m : Mach) : Mach :=
  if !m.endpointOn || m.pwr.ddrReady then m
  else
    let torn := m.flash.sets.any fun p => !(p.2.a.ok && p.2.b.ok)
    let m := { m with
      pwr := { m.pwr with ddrReady := true },
      flash := { m.flash with sets := m.flash.sets.map fun p => (p.1, p.2.repair) } }
    if torn then m.putBit rGlbStat 3 true else m

def execDdrReady (s : State) : Host.Outcome State Fault Refusal := done s (ddrReady s.m)

/-- The module runs: not in reset. -/
def Mach.up (m : Mach) : Bool := !m.pwr.inReset

/-- REF_LOSS (R474). -/
def refLoss (m : Mach) : Mach :=
  if m.up && m.pwr.refOk then { m with pwr := { m.pwr with refOk := false } }.raiseClk 0 0xFFFF else m

def execRefLoss (s : State) : Host.Outcome State Fault Refusal := done s (refLoss s.m)

/-- REF_RESTORED: CLK_STAT.REF_OK is set again. -/
def refRestored (m : Mach) : Mach := if m.up then { m with pwr := { m.pwr with refOk := true } } else m

def execRefRestored (s : State) : Host.Outcome State Fault Refusal := done s (refRestored s.m)

/-- A clock domain's lock bit. -/
def Mach.setLock (m : Mach) (d : Nat) (b : Bool) : Mach :=
  { m with pwr := { m.pwr with locks := setBits m.pwr.locks d d (b2n b) } }

/-- PLL_UNLOCK (R474): the event's SOURCE is the domain, and it is FATAL for an aligned one. -/
def pllUnlock (d : Nat) (m : Mach) : Mach :=
  if m.up && m.pwr.locks.getLsbD d then (m.setLock d false).raiseClk 1 d else m

def execPllUnlock (d : Fin 25) (s : State) : Host.Outcome State Fault Refusal := done s (pllUnlock d s.m)

/-- PLL_RELOCK: the lock bit is set again. -/
def pllRelock (d : Nat) (m : Mach) : Mach :=
  if m.up && m.variant.clocks.getLsbD d then m.setLock d true else m

def execPllRelock (d : Fin 25) (s : State) : Host.Outcome State Fault Refusal := done s (pllRelock d s.m)

/-- PHASE_DRIFT of an aligned crossing (R472, R474). -/
def phaseDrift (m : Mach) : Mach := if m.up && m.pwr.aligned then m.raiseClk 3 0xFFFF else m

def execPhaseDrift (s : State) : Host.Outcome State Fault Refusal := done s (phaseDrift s.m)

/-- PG_FAULT (R474): a power domain loses its good state. -/
def pgFault (d : Nat) (m : Mach) : Mach :=
  if m.up && m.pwr.good.getLsbD d then
    { m with pwr := { m.pwr with good := setBits m.pwr.good d d 0 } }.raiseClk 4 d
  else m

def execPgFault (d : Fin 36) (s : State) : Host.Outcome State Fault Refusal := done s (pgFault d s.m)

/-- A reading has reached a threshold given in °C. -/
def tempReaches (t : BitVec 16) (deg : Nat) : Bool := decide ((16 * deg : Int) ≤ t.toInt)

/-- THERM_WARN (R492): a sensor reaches PWR_THERM.WARN. -/
def thermWarn (sensor : Nat) (t : BitVec 16) (m : Mach) : Mach :=
  if m.up && m.variant.hasSensor sensor && tempReaches t (m.rbits rPwrTherm 7 0) then
    ({ m with pwr := { m.pwr with thermWarn := true } }.setTemp sensor t).raiseClk 7 sensor
  else m

def execThermWarn (sensor : Fin 8) (temp : BitVec 16) (s : State) : Host.Outcome State Fault Refusal :=
  done s (thermWarn sensor temp s.m)

/-- THERM_CRIT (R492): a sensor reaches PWR_THERM.CRIT; a sensor at or above WARN shows in CLK_STAT too. -/
def thermCrit (sensor : Nat) (t : BitVec 16) (m : Mach) : Mach :=
  if m.up && m.variant.hasSensor sensor && tempReaches t (m.rbits rPwrTherm 15 8) then
    ({ m with pwr := { m.pwr with thermWarn := m.pwr.thermWarn || tempReaches t (m.rbits rPwrTherm 7 0) } }.setTemp
      sensor t).raiseClk 8 sensor
  else m

def execThermCrit (sensor : Fin 8) (temp : BitVec 16) (s : State) : Host.Outcome State Fault Refusal :=
  done s (thermCrit sensor temp s.m)

/-- Eight readings into PWR_TEMP0-7; an absent die reads 0. -/
def Mach.setTemps (m : Mach) (ts : List (BitVec 16)) : Mach :=
  (List.range 8).foldl (fun m i => if m.variant.hasSensor i then m.setTemp i (ts.getD i 0) else m) m

/-- THERM_WARN_CLEAR: with every sensor below WARN, CLK_STAT.THERM_WARN clears. -/
def thermWarnClear (ts : List (BitVec 16)) (m : Mach) : Mach :=
  if m.up && (List.range 8).all fun i => !m.variant.hasSensor i || !tempReaches (ts.getD i 0) (m.rbits rPwrTherm 7 0) then
    { m with pwr := { m.pwr with thermWarn := false } }.setTemps ts
  else m

def execThermWarnClear (temps : List (BitVec 16)) (s : State) : Host.Outcome State Fault Refusal :=
  done s (thermWarnClear temps s.m)

/-- The measured input voltage, in 10 mV. -/
def Mach.setVin (m : Mach) (v : BitVec 16) : Mach := m.setFld rPwrVin 15 0 v.toNat

/-- VIN_UV (R501): the input has stayed below 40 V for 1 ms; each excursion is reported once. -/
def vinUv (v : BitVec 16) (m : Mach) : Mach :=
  if m.up && !m.pwr.excursion && decide (v.toNat < 4000) then
    ({ m with pwr := { m.pwr with excursion := true } }.setVin v).raiseClk 5 0xFFFF
  else m

def execVinUv (vin : BitVec 16) (s : State) : Host.Outcome State Fault Refusal := done s (vinUv vin s.m)

/-- VIN_OV (R501): the input has stayed above 60 V for 1 ms. -/
def vinOv (v : BitVec 16) (m : Mach) : Mach :=
  if m.up && !m.pwr.excursion && decide (6000 < v.toNat) then
    ({ m with pwr := { m.pwr with excursion := true } }.setVin v).raiseClk 6 0xFFFF
  else m

def execVinOv (vin : BitVec 16) (s : State) : Host.Outcome State Fault Refusal := done s (vinOv vin s.m)

/-- VIN_IN_RANGE ends an excursion (R501). -/
def vinInRange (v : BitVec 16) (m : Mach) : Mach :=
  if m.up && decide (4000 ≤ v.toNat) && decide (v.toNat ≤ 6000) then
    { m with pwr := { m.pwr with excursion := false } }.setVin v
  else m

def execVinInRange (vin : BitVec 16) (s : State) : Host.Outcome State Fault Refusal := done s (vinInRange vin s.m)

/-- The package limit of R22 in 0.1 W. -/
def Variant.packageLimit (v : Variant) : Nat := 2910 + 120 * (v.nstk - 2) + (if v.io1 then 210 else 0)
/-- The module limit of R22 in 0.1 W. -/
def Variant.moduleLimit (v : Variant) : Nat := 3390 + 120 * (v.nstk - 2) + (if v.io1 then 330 else 0)

/-- OVERPOWER (R22, R492): package or module power above its limit for 1 ms. -/
def overpower (pkg mod : BitVec 16) (m : Mach) : Mach :=
  if m.up && (decide (m.variant.packageLimit < pkg.toNat) || decide (m.variant.moduleLimit < mod.toNat)) then
    (m.setReg rPwrPower (mod ++ pkg)).raiseClk 9 0xFFFF
  else m

def execOverpower (pkg : BitVec 16) (mod : BitVec 16) (s : State) : Host.Outcome State Fault Refusal :=
  done s (overpower pkg mod s.m)

/-- Every engine in QUEUE mode leaves it, with its descriptors in flight. -/
def Mach.freeQueueEngines (m : Mach) : Mach :=
  (m.engines.filter fun p => p.2.mode == .queue).foldl (fun (m : Mach) p => m.setEngine p.1 { p.2 with mode := .free }) m

/-- The HIF registers and queues as a function-level reset leaves them: every queue and vector disabled; the lot and the samples
in flight stay (R19, R397, R468). -/
def Mach.hifReset (m : Mach) : Mach :=
  { m with
    regs := FMap.clear m.regs fun a => decide (0x01E00000 ≤ a) && decide (a < 0x01F00000),
    hif := { Hif.reset with lot := m.hif.lot, vouts := m.hif.vouts } }.freeQueueEngines

/-- PERST (R468). -/
def perst (m : Mach) : Mach := if m.up then m.hifReset else m

def execPerst (s : State) : Host.Outcome State Fault Refusal := done s (perst s.m)

/-- FUNCTION_LEVEL_RESET (R397), by configuration space, which the endpoint serves in D3hot too (R373). -/
def functionLevelReset (m : Mach) : Mach := if m.endpointOn then m.hifReset else m

def execFunctionLevelReset (s : State) : Host.Outcome State Fault Refusal := done s (functionLevelReset s.m)

/-- D3HOT (R373): the endpoint stops or resumes its answers to memory requests. -/
def d3hot (enter : Bool) (m : Mach) : Mach :=
  if m.endpointOn then { m with hif := { m.hif with d3 := enter } } else m

def execD3hot (enter : Bool) (s : State) : Host.Outcome State Fault Refusal := done s (d3hot enter s.m)

end Sys2Proof.Machine
end

