-- ==== Sys2Proof/Machine/Ring.lean ====
section
/-! DEFINITION. Received Rill frames and what a ring module does in time: versions, hop times, members, the token, TB2, wraps, ring
writes and drops, ring plans, ring messages, and the verdict path (R353-R367, R389-R392, R414). -/
namespace Sys2Proof.Machine

/-! ### Receiving (R353-R355, R359, R414, R419) -/

/-- n octets of the type-specific part of a header, from octet o of the header. -/
def oct (f : RFrame) (o n : Nat) : Nat := fieldAt (leBytes 16 f.spec.toNat) (o - 16) n

/-- A frame that arrives during a scrub is discarded and counted in the switch's result (R419). -/
def Mach.scrubbed (m : Mach) : Mach :=
  match m.sec.switching with
  | some x => { m with sec := { m.sec with switching := some { x with frames := x.frames + 1 } } }
  | none => m

/-- The sequence numbers that a receiver remembers under a key: the newest 65 that it accepted. -/
def Mach.seenOf (m : Mach) (key : Nat) : List Nat := (m.ring.seen.filter fun x => x.1 == key).map (·.2)

/-- A sequence number that R414 lets in: newer than the newest accepted, or within the 64 below it and not seen. -/
def seqFresh (seen : List Nat) (n : Nat) : Bool :=
  let top := seen.foldl max 0
  seen.isEmpty || decide (top < n) || (decide (top ≤ n + 64) && !seen.contains n)

/-- The receiver remembers an accepted number and forgets those more than 64 below the newest. -/
def Mach.noteSeen (m : Mach) (key n : Nat) : Mach :=
  let top := (n :: m.seenOf key).foldl max 0
  { m with ring := { m.ring with
      seen := (key, n) :: m.ring.seen.filter fun x => x.1 != key || decide (top ≤ x.2 + 64) } }

/-- A frame in clear, when its encryption fits its type, its session is held, its sequence number is let in and its tag is right (R354,
R414). -/
def Mach.authentic (m : Mach) (ty : Nat) (f : RFrame) : Option RFrame :=
  if ty = 0x10 ∨ ty = 0x20 ∨ ty = 0x30 then
    (m.sessionFor ty).bind fun s =>
      if f.enc && s.num == f.session && seqFresh (m.seenOf (seqKey (f.session.toNat + 1) f.src.toNat ty f.dst.toNat)) f.seq.toNat then openFrame f s ty
      else none
  else if f.enc then none else some f

/-- A frame consumed here, in clear: one that is not authentic is discarded with AUTH. -/
def Mach.consume (m : Mach) (p ty : Nat) (f : RFrame) (k : RFrame → Mach → Mach) : Mach :=
  match m.authentic ty f with
  | none => m.raiseLnk 21 p
  | some g => k g (if f.enc then m.noteSeen (seqKey (f.session.toNat + 1) f.src.toNat ty f.dst.toNat) f.seq.toNat else m)

/-- The frame goes on out of the opposite port with one hop fewer (R355). -/
def Mach.forward (m : Mach) (p ty : Nat) (f : RFrame) : Mach :=
  if m.maySend ty then m.sendBy (otherPort p) (BitVec.ofNat 8 ty) f (f.hops - 1) else m

/-- The port receives Rill frames. -/
def Mach.ringHears (m : Mach) (p : Nat) : Bool := m.up && m.ringConnected p && m.rpState p == 4 && m.ringOn

/-- A frame of a type arrives at an ACTIVE port (R355): its own, a broadcast of its own, another broadcast, or one for somebody else.
`onward` says whether a broadcast is forwarded as it is. -/
def Mach.receive (m : Mach) (p ty : Nat) (f : RFrame) (onward : Bool) (k : RFrame → Mach → Mach) : Mach :=
  if !m.ringHears p || decide (64 < f.payload.length) then m
  else if m.scrubbing then m.scrubbed
  else if f.dst.toNat = m.modId then m.consume p ty f k
  else if f.dst = 0xFF then
    if f.src.toNat = m.modId then m
    else (if onward then m.forward p ty f else m).consume p ty f k
  else m.forward p ty f

/-- FRAME_CRC_FAIL: counted in RP_CRC, or a tag failure (R353, R414). -/
def frameCrcFail (p : Nat) (k : FrameFault) (m : Mach) : Mach :=
  if !m.up || !m.ringConnected p || m.rpState p < 3 then m
  else match k with
    | .crc => (m.inc (rRpCrc p)).raiseLnk 10 p
    | .tag => m.raiseLnk 21 p
    | .seq => m.raiseLnk 21 p

def execFrameCrcFail (p : Fin 4) (k : FrameFault) (s : State) : Host.Outcome State Fault Refusal := done s (frameCrcFail p k s.m)

/-! ### Pausing (R355) -/

/-- XOFF: a class of 2 to 5 waits. Class 1 is never paused. -/
def ringXoff (p cls : Nat) (m : Mach) : Mach :=
  let x := m.link (12 + p)
  if m.ringHears p && decide (2 ≤ cls) && !x.paused.contains cls then m.setLink (12 + p) { x with paused := cls :: x.paused } else m

def execRingXoff (p : Fin 4) (cls : Fin 6) (s : State) : Host.Outcome State Fault Refusal := done s (ringXoff p cls s.m)

/-- XON: the class goes on, and its waiting frames leave, forwarded ones before those of this module (R355). -/
def ringXon (p cls : Nat) (m : Mach) : Mach :=
  let x := m.link (12 + p)
  if !m.ringHears p then m
  else
    let mine := fun (f : TxFrame) => frameClass f.type.toNat == cls
    let own := fun (f : TxFrame) => f.fr.src.toNat == m.modId
    m.setLink (12 + p)
      { x with paused := x.paused.filter fun c => c != cls, held := x.held.filter fun f => !mine f,
               out := x.out ++ (x.held.filter fun f => mine f && !own f) ++ x.held.filter fun f => mine f && own f }

def execRingXon (p : Fin 4) (cls : Fin 6) (s : State) : Host.Outcome State Fault Refusal := done s (ringXon p cls s.m)

/-! ### Versions and hop times (R352, R358, R362) -/

/-- A frame for the neighbour: it needs no member and passes no other module. -/
def Mach.sendNear (m : Mach) (p ty : Nat) (spec : List Byte) : Mach :=
  if m.scrubbing then m
  else
    let f := RFrame.by (m.header 0xFF (m.nextSeq 0 ty 0xFF) 0 spec [] false) p
    (m.emitFrame p { type := BitVec.ofNat 8 ty, fr := { f with hops := 1 } }).tookSeq 0 ty 0xFF

/-- RILL_VER_SEND: every 10 µs until a VER has been received (R358). -/
def rillVerSend (p : Nat) (m : Mach) : Mach :=
  let st := m.rpState p
  if m.up && m.ringConnected p && (st == 3 || st == 5) && !(m.link (12 + p)).verSeen then
    m.sendNear p 1 [1, 0, 0, BitVec.ofNat 8 p, BitVec.ofNat 8 m.modId]
  else m

def execRillVerSend (p : Fin 4) (s : State) : Host.Outcome State Fault Refusal := done s (rillVerSend p s.m)

/-- TB1 with four fraction bits, in 1/16 ns. -/
def Mach.tb1x (m : Mach) : Nat := m.cyc * 80 / 7

/-- The request of one hop measurement. -/
def Mach.askEcho (m : Mach) (p : Nat) : Mach := m.sendNear p 3 (leBytes 8 m.tb1x)

/-- RILL_VER: the versions and the ports agree, and the hop time is measured, or the link fails (R358). -/
def rillVer (p : Nat) (f : RFrame) (m : Mach) : Mach :=
  if !m.up || !m.ringConnected p || m.rpState p != 3 || (m.link (12 + p)).verSeen then m
  else if m.scrubbing then m.scrubbed
  else
    let m := m.setLink (12 + p) { m.link (12 + p) with verSeen := true, hops := 0, minH := 0, maxH := 0 }
    let m := (m.setFld (rRpStat p) 30 29 (oct f 19 1 % 4)).setFld (rRpStat p) 28 24 (oct f 20 1 % 32)
    if oct f 16 1 ≠ 1 ∨ oct f 18 1 ≠ 0 then (m.setRpState p 5).raiseLnk 7 p
    else if oct f 19 1 ≠ otherPort p then (m.setRpState p 6).raiseLnk 6 p
    else (m.setFld (rRpStat p) 23 16 0).askEcho p

def execRillVer (p : Fin 4) (fr : RFrame) (s : State) : Host.Outcome State Fault Refusal := done s (rillVer p fr s.m)

/-- One hop measurement, in 1/16 ns: ((t4 − t1) − (t3 − t2)) / 2. -/
def hopOf (t1 t2 t3 t4 : Nat) : Nat := (((t4 : Int) - t1) - (wrap 32 ((t3 : Int) - t2) : Nat)).toNat / 2

/-- The link enters ACTIVE with the smallest hop time and the spread of the 64 (R362). -/
def Mach.ringActive (m : Mach) (p : Nat) : Mach :=
  let x := m.link (12 + p)
  let spread := x.maxH - x.minH
  let m := m.setReg (rRpHop p) (BitVec.ofNat 32 (min 0xFF spread * 2 ^ 20 + min 0xFFFFF x.minH))
  let m := if 32 < spread then m.raiseLnk 9 p else m
  (m.setLink (12 + p) { m.link (12 + p) with activeAt := m.tb1 }).setRpState p 4

/-- RILL_ECHO: a request (t2 and t3 are 0) is answered; an answer is one of 64 measurements (R362). -/
def rillEcho (p : Nat) (f : RFrame) (t : W64) (m : Mach) : Mach :=
  let st := m.rpState p
  if !m.up || !m.ringConnected p || !(st == 3 || st == 4) then m
  else if m.scrubbing then m.scrubbed
  else if oct f 24 8 = 0 then m.sendNear p 3 (leBytes 8 (oct f 16 8) ++ leBytes 4 t.toNat ++ leBytes 4 m.tb1x)
  else
    let x := m.link (12 + p)
    if st ≠ 3 ∨ !x.verSeen then m
    else
      let h := hopOf (oct f 16 8) (oct f 24 4) (oct f 28 4) t.toNat
      let x := { x with hops := x.hops + 1, minH := if x.hops = 0 then h else min x.minH h, maxH := max x.maxH h }
      let m := m.setLink (12 + p) x
      if x.hops < 64 then m.askEcho p else m.ringActive p

def execRillEcho (p : Fin 4) (fr : RFrame) (t : W64) (s : State) : Host.Outcome State Fault Refusal := done s (rillEcho p fr t s.m)

/-! ### Members (R354, R359, R360) -/

/-- HELLO_SEND: every 50 µs on each plane in use. -/
def helloSend (m : Mach) : Mach :=
  let status := b2n (m.bit rLnkRingCfg 10) + 2 * b2n (m.rbits rLnkRingStat 27 24 != 0) + 4 * b2n m.ring.held
  let send := fun (m : Mach) (plane : Nat) => m.sendClear (2 * plane) 2 0xFF [BitVec.ofNat 8 status, BitVec.ofNat 8 plane]
  let m := if m.up then send m 0 else m
  if m.up && m.bit rLnkRingCfg 9 then send m 1 else m

def execHelloSend (s : State) : Host.Outcome State Fault Refusal := done s (helloSend s.m)

/-- A HELLO with this module's number that left another module's port: it goes west unwrapped while no wrap is known, on the wrong plane,
or with a sequence number this module has not sent (DEDUCED, log 42). -/
def Mach.foreignHello (m : Mach) (p : Nat) (f : RFrame) : Bool :=
  (f.west && !f.wrapped && !m.wrapKnown (p / 2)) || oct f 17 1 != p / 2 || decide (m.nextSeq 0 2 0xFF ≤ f.seq.toNat)

/-- The sender of a HELLO is a member; an unwrapped one that came from the west shows its distance (R355, R360). -/
def Mach.noteMember (m : Mach) (p : Nat) (f : RFrame) : Mach :=
  let k := f.src.toNat
  let r := m.ring
  let put := fun {α : Type} (l : List (Nat × α)) (v : α) => (k, v) :: l.filter fun x => x.1 != k
  let dist := if !f.west && !f.wrapped && p % 2 == 1 then put r.dist (fullHops + 1 - f.hops) else r.dist
  m.setRing { r with members := put r.members m.tb1, cands := put r.cands (oct f 16 1 % 2 == 1), dist := dist }

/-- HELLO. -/
def ringHello (p : Nat) (f : RFrame) (m : Mach) : Mach :=
  if m.ringHears p && !m.scrubbing && f.src.toNat == m.modId && m.foreignHello p f then
    (m.putBit rLnkRingStat 29 true).raiseLnk 15 p
  else m.receive p 2 f true fun f m => if f.src.toNat < 32 then (m.noteMember p f).ringView else m

def execRingHello (p : Fin 4) (fr : RFrame) (s : State) : Host.Outcome State Fault Refusal := done s (ringHello p fr s.m)

/-- MEMBER_EXPIRY: 200 µs of TB1 without a HELLO. -/
def memberExpiry (k : Nat) (m : Mach) : Mach :=
  match m.ring.members.lookup k with
  | none => m
  | some t =>
    if m.tb1 < t + 200000 then m
    else
      let drop := fun {α : Type} (l : List (Nat × α)) => l.filter fun x => x.1 != k
      (m.setRing { m.ring with members := drop m.ring.members, cands := drop m.ring.cands, dist := drop m.ring.dist }).ringView

def execMemberExpiry (m : Fin 32) (s : State) : Host.Outcome State Fault Refusal := done s (memberExpiry m s.m)

/-! ### The token (R361) -/

/-- A TOKEN broadcast by this module with a NEXT. -/
def Mach.sendToken (m : Mach) (next : Nat) : Mach :=
  m.sendClear 0 5 0xFF (leBytes 2 m.ring.gen.toNat ++ [BitVec.ofNat 8 m.modId, BitVec.ofNat 8 next])

/-- TOKEN_SEND: the holder sends TOKEN every 10 µs, and its own lease goes on (log 43). -/
def tokenSend (m : Mach) : Mach :=
  if m.up && m.ringOn && m.ring.held then
    let m := m.sendToken 0xFF
    (m.setRing { m.ring with tokenT := m.tb1, tokenValid := true }).showRing
  else m

def execTokenSend (s : State) : Host.Outcome State Fault Refusal := done s (tokenSend s.m)

/-- The token is accepted (R361): newer by signed 16-bit difference, or as new with a lower holder. A TOKEN of the holder last accepted
is accepted again, since its lease would otherwise end, and so is any TOKEN before the first (DEDUCED, log 43). -/
def Ring.takes (r : Ring) (gen : BitVec 16) (holder : Nat) : Bool :=
  !r.tokenAny || decide (0 < (gen - r.gen).toInt) || (gen == r.gen && decide (holder ≤ r.holder))

/-- TOKEN. -/
def ringToken (p : Nat) (f : RFrame) (m : Mach) : Mach :=
  m.receive p 5 f true fun f m =>
    let gen := BitVec.ofNat 16 (oct f 16 2)
    let holder := oct f 18 1 % 32
    let next := oct f 19 1
    if m.ring.takes gen holder then
      let h := if next < 32 then next else holder
      (m.setRing { m.ring with gen := gen, holder := h, held := h == m.modId, tokenT := m.tb1, tokenValid := true, tokenAny := true }).showRing
    else m

def execRingToken (p : Fin 4) (fr : RFrame) (s : State) : Host.Outcome State Fault Refusal := done s (ringToken p fr s.m)

/-- TOKEN_EXPIRY: TERM µs without an accepted TOKEN; the armed lowest member regenerates it (R361). A lease that was current when EN was
cleared still runs out. -/
def tokenExpiry (m : Mach) : Mach :=
  if !m.up || !(m.ringOn || m.ring.tokenValid) || decide (m.tb1 < m.ring.tokenT + m.rbits rLnkToken 15 0 * 1000) then m
  else
    let m := (m.setRing { m.ring with tokenValid := false, tokenT := m.tb1 }).raiseLnk 16 0
    if m.ringOn && m.bit rLnkToken 16 && m.memberNos.head? == some m.modId then
      let m := (m.setRing { m.ring with gen := m.ring.gen + 1, holder := m.modId, held := true, tokenValid := true, tokenAny := true }).raiseLnk 17 0
      m.showRing
    else m.showRing

def execTokenExpiry (s : State) : Host.Outcome State Fault Refusal := done s (tokenExpiry s.m)

/-- TOKEN_PASS: 1 written to LNK_TOKEN.PASS; PASS_TO names the next holder. -/
def tokenPass (m : Mach) : Mach :=
  if m.hostUp && m.ringOn && m.ring.held then
    let next := m.rbits rLnkToken 22 18
    let m := m.sendToken next
    (m.setRing { m.ring with holder := next, held := next == m.modId, tokenT := m.tb1, tokenValid := true }).showRing
  else m

def execTokenPass (s : State) : Host.Outcome State Fault Refusal := done s (tokenPass s.m)

/-! ### Ring time (R363) -/

/-- TB2SYNC with this module's TB2 at departure, out of a port of plane 0. -/
def Mach.tb2Spec (m : Mach) (hops : Nat) : List Byte := leBytes 8 m.tb2 ++ [BitVec.ofNat 8 hops]

/-- TB2SYNC_SEND: the master, every 10 µs out of both ports. -/
def tb2syncSend (m : Mach) : Mach :=
  if m.up && m.ringOn && m.ring.isTb2Master then (m.sendClear 0 4 0xFF (m.tb2Spec 0)).sendClear 1 4 0xFF (m.tb2Spec 0) else m

def execTb2syncSend (s : State) : Host.Outcome State Fault Refusal := done s (tb2syncSend s.m)

/-- The direction of a TB2SYNC is the one with fewer hops, east on a tie: an eastbound frame arrives at a W port. -/
def Ring.nearer (r : Ring) (p hops : Nat) : Bool :=
  match r.syncHops.lookup (otherPort p) with
  | none => true
  | some h => decide (hops < h) || (hops == h && p % 2 == 1)

/-- TB2 stepped or slewed by an offset in 1/16 ns (R363): at most 100 ppm, 1 ns over the 10 µs. -/
def Mach.adjustTb2 (m : Mach) (off : Int) : Mach :=
  let base := m.pos.tb2 + m.slewed
  let step := decide (16000 < off) || decide (off < -16000) || !m.bit rPosStat 5
  ({ m with
    ring := { m.ring with tb2T := m.tb1 },
    pos := { m.pos with
      tb2 := if step then base + off else base, tb2Slew := if step then 0 else max (-16) (min 16 off), tb2Set := true } } : Mach).putBit
    rPosStat 5 true

/-- TB2SYNC. It is not forwarded as it is: an accepted one goes onward with this module's TB2 and one hop more. -/
def tb2sync (p : Nat) (f : RFrame) (m : Mach) : Mach :=
  m.receive p 4 f false fun f m =>
    if m.ring.isTb2Master || decide (2 ≤ p) then m
    else
      let hops := oct f 24 1
      let m := m.setRing { m.ring with syncHops := (p, hops) :: m.ring.syncHops.filter fun x => x.1 != p }
      if !m.ring.nearer p hops then m
      else
        let off : Int := 16 * (oct f 16 8 : Nat) + (m.rbits (rRpHop p) 19 0 : Nat) - m.tb2x
        let m := m.adjustTb2 off
        m.forward p 4 { f with spec := BitVec.ofNat 128 (leNat (padTo 16 (m.tb2Spec (hops + 1)))) }

def execTb2sync (p : Fin 4) (fr : RFrame) (s : State) : Host.Outcome State Fault Refusal := done s (tb2sync p fr s.m)

/-- TB2_LOST: 100 µs without an accepted TB2SYNC. TB2 runs on. -/
def tb2Lost (m : Mach) : Mach :=
  if m.up && !m.ring.isTb2Master && m.bit rPosStat 5 && decide (m.ring.tb2T + 100000 ≤ m.tb1) then
    ((m.setRing { m.ring with syncHops := [] }).putBit rPosStat 5 false).raiseLnk 19 0
  else m

def execTb2Lost (s : State) : Host.Outcome State Fault Refusal := done s (tb2Lost s.m)

/-! ### Wraps (R366, R367) -/

/-- WRAPN: routes follow the wraps that are known. -/
def ringWrapn (p : Nat) (f : RFrame) (m : Mach) : Mach :=
  m.receive p 6 f true fun f m => m.noteWrap (oct f 16 1 % 32) (oct f 17 1 % 4) (oct f 18 1 % 2 == 1)

def execRingWrapn (p : Fin 4) (fr : RFrame) (s : State) : Host.Outcome State Fault Refusal := done s (ringWrapn p fr s.m)

/-- A wrapped port whose link has been ACTIVE for HOLDOFF ms. -/
def Mach.mayUnwrap (m : Mach) (p : Nat) : Bool :=
  (m.link (12 + p)).wrapped && m.rpState p == 4 && decide ((m.link (12 + p)).activeAt + m.rbits rLnkWrap 31 16 * 1000000 ≤ m.tb1)

/-- UNWRAP_HOLDOFF. -/
def unwrapHoldoff (p : Nat) (m : Mach) : Mach := if m.up && m.bit rLnkWrap 1 && m.mayUnwrap p then m.setWrap p false else m

def execUnwrapHoldoff (p : Fin 4) (s : State) : Host.Outcome State Fault Refusal := done s (unwrapHoldoff p s.m)

/-- UNWRAP: 1 written to LNK_WRAP.UNWRAP. -/
def unwrap (m : Mach) : Mach :=
  if m.hostUp then (List.range 4).foldl (fun (m : Mach) p => if m.mayUnwrap p then m.setWrap p false else m) m else m

def execUnwrap (s : State) : Host.Outcome State Fault Refusal := done s (unwrap s.m)

/-! ### Ring writes and drops (R356, R357) -/

/-- The target of granule k of a WRITE frame. -/
def writeTarget (f : RFrame) (k : Nat) : WTarget :=
  if oct f 18 1 % 2 = 1 then .gran (oct f 16 2 % 8) (oct f 20 4 + k) else .slot (oct f 16 2 % 1024) (oct f 20 4 + k)

/-- WRITE: each granule is a remote write with writer ID 0x8000 + SRC. -/
def ringWrite (p : Nat) (f : RFrame) (m : Mach) : Mach :=
  m.receive p 0x10 f true fun f m =>
    let flight := fun (k : Nat × Slot) =>
      ({ writer := BitVec.ofNat 16 (0x8000 + f.src.toNat), target := writeTarget f k.1, data := some k.2, ovr := (oct f 18 1).testBit 1,
         gen := some (oct f 24 2), issue := m.cyc, due := m.cyc, blocked := false, owner := .ring f.src.toNat f.seq.toNat } : Flight)
    { m with flights := m.flights ++ ((List.range f.payload.length).zip f.payload).map flight }

def execRingWrite (p : Fin 4) (fr : RFrame) (s : State) : Host.Outcome State Fault Refusal := done s (ringWrite p fr s.m)

/-- The octets of a DROP frame. -/
def RingDrop.spec (d : RingDrop) : List Byte :=
  let (target, addr) := match d.target with
    | .slot t s => (t, s)
    | .gran st g => (st, g)
  leBytes 4 d.seq ++ leBytes 1 d.reason ++ leBytes 2 d.n ++ [0] ++ leBytes 4 addr ++ leBytes 2 target

/-- A WRITE frame of which granules were dropped and none is still on its way is answered with DROP (R357). -/
def Mach.answerDrops (m : Mach) : Mach :=
  let isOpen := fun (d : RingDrop) => m.flights.any fun f => f.owner == .ring d.src d.seq
  let ovr := m.ring.drops.filter fun d => !isOpen d
  let m := m.setRing { m.ring with drops := m.ring.drops.filter isOpen }
  ovr.foldl (fun (m : Mach) d => m.sendClear (m.routeTo 0 d.src) 0x11 d.src d.spec) m

/-- REMOTE_WRITE_ARRIVAL: write i of those in flight reaches its target (R120); a dropped write of PREP's makes its sample a void. -/
def remoteWriteArrival (i : Nat) (m : Mach) : Mach := (m.arriveFlight i).answerDrops.prepDrops

def execRemoteWriteArrival (i : Nat) (s : State) : Host.Outcome State Fault Refusal := done s (remoteWriteArrival i s.m)

/-- The KIND of a WRITE frame that this module sent: that of the frame with the DROP's SEQ. -/
def Mach.sentKind (m : Mach) (dst seq : Nat) : Nat :=
  let sent := (List.range 4).flatMap fun p => (m.link (12 + p)).out
  match sent.find? fun f => f.type == 0x10 && f.fr.dst.toNat == dst && f.fr.seq.toNat == seq with
  | some f => oct f.fr 18 1 % 2
  | none => 0

/-- DROP: counted, the first logged. -/
def ringDrop (p : Nat) (f : RFrame) (m : Mach) : Mach :=
  m.receive p 0x11 f true fun f m =>
    let m := (m.incFld rLnkDropStat 15 0).raiseLnk 18 p
    if m.bit rLnkDropStat 31 then m
    else
      let info := oct f 28 2 % 1024 * 2 ^ 16 + m.sentKind f.src.toNat (oct f 16 4) * 2 ^ 15 + oct f 20 1 % 8 * 2 ^ 9 + f.src.toNat % 32
      ((m.setReg rLnkDropInfo (BitVec.ofNat 32 info)).setReg rLnkDropAddr (BitVec.ofNat 32 (oct f 24 4 % 2 ^ 22))).putBit
        rLnkDropStat 31 true

def execRingDrop (p : Fin 4) (fr : RFrame) (s : State) : Host.Outcome State Fault Refusal := done s (ringDrop p fr s.m)

/-! ### Ring plans (R356) -/

/-- The transfer stays in its memories at both ends. -/
def ringInRange (d : SluDesc) : Bool :=
  let fits := fun (lim : Int) (a : Int) => decide (0 ≤ a) && decide (a + d.len ≤ lim)
  d.op == 0 || (fits (2 ^ 22) d.sgran && (if d.op = 8 then fits 8192 d.fslot else fits (2 ^ 22) d.fslot))

/-- One pass further. -/
def RingDesc.advance (d : RingDesc) : RingDesc := { d with d := d.d.advance }

/-- The engine has taken descriptor d. -/
def RingEng.took (x : RingEng) (d : RingDesc) : RingEng :=
  if d.d.last ∨ x.plan.length ≤ x.next + 1 then { x with next := 0, pass := x.pass + 1, plan := x.plan.map RingDesc.advance }
  else { x with next := x.next + 1 }

/-- The descriptor's next one, if the engine of a plane may start one: a started weave has a ring plan. -/
def Mach.nextRing (m : Mach) (plane : Nat) : Option RingDesc :=
  let x := m.ringEng plane
  if !(m.wv.running.any fun w => w.started && w.hdr.ringplan) || decide (4 ≤ x.inflight.length)
    || (x.passes != 0 && decide (x.passes ≤ x.pass)) then none
  else x.plan[x.next]?

/-- The writer ID of a ring engine's completion record and signal: this module as a ring peer (PRESUMED, log 44). -/
def Mach.ringWriter (m : Mach) : BitVec 16 := BitVec.ofNat 16 (0x8000 + m.modId)

/-- The octets of a WRITE frame that starts at granule k. -/
def ringSpec (d : SluDesc) (gen k : Nat) : List Byte :=
  leBytes 2 d.ftile ++ leBytes 1 (b2n (d.op == 9) + 2 * b2n d.ovr) ++ [0] ++ leBytes 4 (d.fslot.toNat + k) ++ leBytes 2 gen

/-- The next sequence number of WRITE frames to a module. -/
def Mach.writeSeq (m : Mach) (dst : Nat) : Nat :=
  match m.sessionFor 0x10 with
  | some s => m.nextSeq (s.num.toNat + 1) 0x10 dst
  | none => 0

/-- The WRITE frames of a descriptor whose granules have been read, up to 64 for each frame, set out. -/
def Mach.ringFrames (m : Mach) (plane : Nat) (r : RingRun) : Mach :=
  let d := r.run.desc
  (List.range ((d.len + 63) / 64)).foldl (fun (m : Mach) i =>
    m.sendSealed (m.routeTo plane r.dmod) 0x10 r.dmod (ringSpec d r.run.gen (64 * i))
      ((List.range (min 64 (d.len - 64 * i))).map fun k => (r.got.lookup (64 * i + k)).getD 0)) m

/-- A change of the descriptor in flight of a ring engine. -/
def Mach.modRing (m : Mach) (plane index pass : Nat) (f : RingRun → RingRun) : Mach :=
  let x := m.ringEng plane
  m.setRingEng plane { x with inflight := x.inflight.map fun r => if r.run.index = index ∧ r.run.pass = pass then f r else r }

/-- Descriptors whose granules have all been read send their frames, in the order of the plan; one that still reads holds those behind it. -/
def Mach.ringFlush (m : Mach) (plane : Nat) : List RingRun → Mach
  | [] => m
  | r :: rest =>
    if r.sent then m.ringFlush plane rest
    else if r.run.left ≠ 0 then m
    else
      let first := m.writeSeq r.dmod
      let m := if r.run.range ∨ r.run.desc.op = 0 then m else m.ringFrames plane r
      (m.modRing plane r.run.index r.run.pass fun x => { x with sent := true, got := [], first := first, last := m.writeSeq r.dmod }).ringFlush plane rest

/-- A granule that a ring engine read arrives. -/
def Mach.ringGot (m : Mach) (plane index pass k st g : Nat) : Mach :=
  let l := m.granErrors st g
  let v := m.gran st g
  let m := m.modRing plane index pass fun r =>
    { r with got := r.got ++ [(k, v)], run := { r.run with
      left := r.run.left - 1, ue := r.run.ue || l.contains .ue, ce := r.run.ce || ceCount l != 0 } }
  m.ringFlush plane (m.ringEng plane).inflight

/-- A descriptor starts: its granules are asked for, asynchronous requests at their channels (R103), or, out of range, it moves nothing
(R125, R127). -/
def Mach.launchRing (m : Mach) (plane : Nat) (d : RingDesc) (index pass : Nat) : Mach :=
  let bad := !ringInRange d.d
  let gen := if d.d.gen = 0 then sampledGen (m.win d.d.wtile d.d.win) else d.d.gen
  let cgen := ((m.cover (.slot d.d.ctile d.d.cslot)).map fun p => sampledGen p.2).getD 0
  let n := if bad ∨ d.d.op = 0 then 0 else d.d.len
  let run : SluRun :=
    { desc := d.d, index := index, pass := pass, gen := gen, cgen := cgen, left := n, drops := if bad then d.d.len else 0,
      ue := false, ce := false, windrop := false, ddrRange := false, range := bad }
  let x := m.ringEng plane
  let m : Mach := { m with chanQ := m.chanQ ++ (List.range n).map fun k =>
    { stack := d.d.sstack, gran := d.d.sgran.toNat + k, requester := m.ringWriter.toNat, sched := false, due := m.cyc,
      read := some (.ring plane index pass k), write := none } }
  let m := m.setRingEng plane { x with inflight := x.inflight ++ [⟨run, d.dmod, [], false, 0, 0⟩], st := .move }
  m.ringFlush plane (m.ringEng plane).inflight

/-- RING_PLAN_DESCRIPTOR: the gate is asked for, or has been granted and the descriptor starts. -/
def ringPlanDescriptor (plane : Nat) (m : Mach) : Mach :=
  match m.nextRing plane with
  | none => m
  | some d =>
    let m := m.advanceTo (m.ringEng plane).start
    let (m, ok) := if d.d.gate then m.gate (.ring plane) d.d.glatch d.d.gcnt else (m, true)
    let x := m.ringEng plane
    if !ok then m.setRingEng plane { x with st := if x.inflight.isEmpty then .gate else .move }
    else (m.setRingEng plane (x.took d)).launchRing plane d x.next x.pass

def execRingPlanDescriptor (plane : Fin 2) (s : State) : Host.Outcome State Fault Refusal := done s (ringPlanDescriptor plane s.m)

/-- A WRITE frame of a descriptor still waits at a port of its plane. -/
def Mach.waitsAt (m : Mach) (plane : Nat) (r : RingRun) : Bool :=
  [2 * plane, 2 * plane + 1].any fun p => (m.link (12 + p)).held.any fun f =>
    f.type == 0x10 && f.fr.src.toNat == m.modId && f.fr.dst.toNat == r.dmod && decide (r.first ≤ f.fr.seq.toNat)
      && decide (f.fr.seq.toNat < r.last)

/-- RING_PLAN_COMPLETE: the oldest descriptor, once its last frame has left: record, then latch. -/
def ringPlanComplete (plane : Nat) (m : Mach) : Mach :=
  let x := m.ringEng plane
  match x.inflight with
  | [] => m
  | r :: rest =>
    if !r.sent || m.waitsAt plane r then m
    else
      let d := r.run.desc
      let ovr := x.passes ≠ 0 ∧ x.passes ≤ x.pass
      let m := m.setRingEng plane
        { x with inflight := rest, st := if !rest.isEmpty then .move else if ovr then .done else .gate }
      let m :=
        if d.crec then
          { m with flights := m.flights ++
              [{ writer := m.ringWriter, target := .slot d.ctile d.cslot, data := some (bytesSlot r.run.record), ovr := false,
                 gen := some r.run.cgen, issue := m.cyc, due := m.cyc, blocked := false, owner := .crec (32 + plane) }] }
        else m
      if d.csig then m.sendSignal d.clatch d.ccnt m.ringWriter else m

def execRingPlanComplete (plane : Fin 2) (s : State) : Host.Outcome State Fault Refusal := done s (ringPlanComplete plane s.m)

/-! ### Ring messages (R354, R361, R389) -/

/-- RING_TX: a message leaves as a REMAP frame; a malformed one ends with RANGE (DESIGN CHOICE, log 45). -/
def ringTx (q : Nat) (msg : List Slot) (m : Mach) : Mach :=
  let bytes := msg.flatMap slotBytes
  let l := fieldAt bytes 4 4
  let n := max 1 ((min l 4096 + 16 + 63) / 64)
  if !m.qReady q 0xD || decide ((m.queue q).held < n) || msg.length != n then m
  else
    let idx := (m.queue q).ci
    let m := (List.range n).foldl (fun (m : Mach) _ => m.qTake q) m
    let dst := fieldAt bytes 0 1
    let tag := fieldAt bytes 2 2
    let bad := l = 0 ∨ 4096 < l ∨ fieldAt bytes 1 1 ≠ 0 ∨ fieldAt bytes 8 8 ≠ 0 ∨ (32 ≤ dst ∧ dst ≠ 0xFF)
    let gen := leBytes 2 m.ring.gen.toNat
    let status := if bad then 5 else if !m.ring.held then 6 else 0
    let units := (l + 63) / 64
    let body := (bytes.drop 16).take l
    let payload := (List.range units).map fun i => bytesSlot (padTo 64 (slice body (64 * i) 64))
    let m := if status = 0 then m.sendSealed (if dst = 0xFF then 0 else m.routeTo 0 dst) 0x30 dst gen payload else m
    match m.queueOfType 3 with
    | some d => m.qPush d (leBytes 1 5 ++ leBytes 1 status ++ leBytes 2 tag ++ leBytes 4 idx.toNat ++ leBytes 8 m.tb1 ++ padTo 8 gen ++ zeros 8)
    | none => m

def execRingTx (q : Fin 8192) (msg : List Slot) (s : State) : Host.Outcome State Fault Refusal := done s (ringTx q msg s.m)

/-- REMAP: one of the current generation is delivered to the RING_RX queue (R354, R361, R389). -/
def ringRemap (p : Nat) (f : RFrame) (m : Mach) : Mach :=
  m.receive p 0x30 f true fun f m =>
    if oct f 16 2 ≠ m.ring.gen.toNat then m
    else
      let bytes := leBytes 1 f.src.toNat ++ zeros 3 ++ leBytes 4 (64 * f.payload.length) ++ leBytes 2 (oct f 16 2) ++ zeros 6
        ++ f.payload.flatMap slotBytes
      match m.queueOfType 0xE with
      | none => m
      | some q =>
        let n := (bytes.length + 63) / 64
        (List.range n).foldl (fun (m : Mach) i => m.qPush q (padTo 64 (slice bytes (64 * i) 64))) m

def execRingRemap (p : Fin 4) (fr : RFrame) (s : State) : Host.Outcome State Fault Refusal := done s (ringRemap p fr s.m)

/-! ### The verdict path (R390-R392) -/

/-- VERDICT: the unit is handled as a local VOUT with REMOTE. -/
def ringVerdict (p : Nat) (f : RFrame) (m : Mach) : Mach :=
  m.receive p 0x20 f true fun f m =>
    match f.payload with
    | [u] =>
      let b := slotBytes u
      { m with hif := { m.hif with vouts := m.hif.vouts ++
          [{ idx := BitVec.ofNat 48 (fieldAt b 32 6), flags := BitVec.ofNat 16 (fieldAt b 38 2), payload := bytesSlot (padTo 64 (b.take 32)),
             remote := true }] } }
    | _ => m

def execRingVerdict (p : Fin 4) (fr : RFrame) (s : State) : Host.Outcome State Fault Refusal := done s (ringVerdict p fr s.m)

/-- The unit of a VERDICT frame. -/
def Vout.unit (v : Vout) : Slot :=
  bytesSlot (padTo 64 (padTo 32 (slotBytes v.payload) ++ leBytes 6 v.idx.toNat ++ leBytes 2 v.flags.toNat))

/-- What a record takes from a VOUT (R392): TOP and SCORES are copied, except for PAYLOAD. -/
def Mach.ballotOf (m : Mach) (v : Vout) : Ballot :=
  let b := slotBytes v.payload
  let copy := voutReason v.flags v.payload ≠ .payload
  { decision := fieldAt b 0 1, top := if copy then fieldAt b 1 1 else 0, scores := if copy then slice b 4 16 else zeros 16,
    tally := m.reported v.idx.toNat 0xFFFF (m.flt.recordTally v.idx.toNat), keyed := m.sec.conf, remote := v.remote, flags := v.flags }

/-- VERDICT_COMMIT: the first VOUT payload that waits is routed to its collector, or its sample's record is committed, or, without an
outstanding sample, it is discarded (R390-R392). -/
def verdictCommit (m : Mach) : Mach :=
  match m.hif.vouts with
  | [] => m
  | v :: rest =>
    let m : Mach := { m with hif := { m.hif with vouts := rest } }
    let b := slotBytes v.payload
    let dmod := fieldAt b 25 1
    if !v.remote ∧ fieldAt b 24 1 = 1 ∧ dmod ≠ m.modId then
      { m with flt := m.flt.dropTallies v.idx.toNat }.sendSealed (m.routeTo 0 dmod) 0x20 dmod [] [v.unit]
    else if bitAt v.flags 1 then m
    else match m.prep.part v.idx, m.prep.injected.find? fun x => x.idx == v.idx with
      | some x, _ => m.commitRecord x (m.ballotOf v) (voutReason v.flags v.payload)
      | none, some x => m.commitInjected x (m.ballotOf v) (voutReason v.flags v.payload)
      | none, none =>
        let m := m.inc rHifCntVdisc
        if v.remote then m.raiseHif 7 0 else { m with flt := m.flt.dropTallies v.idx.toNat }

def execVerdictCommit (s : State) : Host.Outcome State Fault Refusal := done s (verdictCommit s.m)

end Sys2Proof.Machine
end

