-- ==== Sys2Proof/Machine/Channel.lean ====
section
/-! DEFINITION. A stack channel serves one request (R102-R104, R154): writes take effect, and reads answer a GLD, a sluice engine, an ROI
sampler, sample preparation or a ring send engine. -/
namespace Sys2Proof.Machine

/-- A request is served: a write takes effect, a read's data starts back. A GLD reply is in the inbound buffer one cycle before it is
visible, and later by what its request waited beyond one cycle (R152, R154). -/
def Mach.serve (m : Mach) (q : ChanReq) : Mach :=
  let m := match q.write with
    | none => m
    | some f => match f.data with
      | some v => m.setGran q.stack q.gran v
      | none => m
  match q.read with
  | none => m
  | some (.gld t s tm off visible) =>
    let m := m.stackRead q.stack q.gran q.requester (some (m.tile t).smp)
    { m with gldReplies := m.gldReplies ++
        [{ tile := t, slot := s, tm := tm, data := if off then none else some (m.gran q.stack q.gran),
           due := visible - 1 + (m.cyc - (q.due + 1)), ue := m.stackEcc q.stack q.gran == .ue }] }
  | some (.sluice e index pass k) =>
    (m.stackRead q.stack q.gran q.requester none).sluiceGot e index pass k q.stack q.gran
  | some (.roi d) => (m.stackRead q.stack q.gran q.requester none).roiGot d q.stack q.gran
  | some (.prep idx) => (m.stackRead q.stack q.gran q.requester (some idx)).prepGot idx q.stack q.gran
  | some (.ring plane index pass k) => (m.stackRead q.stack q.gran q.requester none).ringGot plane index pass k q.stack q.gran

/-- STACK_CHANNEL_ACCESS: the channel serves one waiting request (R103, R154). -/
def stackChannelAccess (st ch : Nat) (m : Mach) : Mach :=
  let mine := m.chanQ.filter fun q => q.at st ch
  match mine.map (·.due) with
  | [] => m
  | d :: ds =>
    let m := (m.advanceTo (ds.foldl min d)).awaitChannel st ch 4
    match sortBy ChanReq.le (m.chanQ.filter fun q => q.at st ch && decide (q.due ≤ m.cyc)) with
    | [] => m
    | q :: _ =>
      { m with
        chanQ := m.chanQ.erase q,
        chanLast := FMap.put (fun _ => 0) m.chanLast (32 * st + ch) (m.cyc + 1) }.serve q

def execStackChannelAccess (stack : Fin 6) (ch : Fin 32) (s : State) : Host.Outcome State Fault Refusal :=
  done s (stackChannelAccess stack ch s.m)

end Sys2Proof.Machine
end

