-- ==== Sys2Proof/Machine/Ptp.lean ====
section
/-! DEFINITION. TB0 and PTP on the management port (R303-R308). -/
namespace Sys2Proof.Machine

/-- PTP_STAT.STATE: 0 DISABLED, 1 LISTENING, 2 UNCALIBRATED, 3 SLAVE, 4 HOLDOVER, 5 FAULTY. -/
def Mach.ptpState (m : Mach) : Nat := m.rbits rPtpStat 2 0
def Mach.setPtpState (m : Mach) (s : Nat) : Mach := m.setFld rPtpStat 2 0 s
def Mach.ptpOn (m : Mach) : Bool := m.bit rPtpCfg 0
def Mach.setPtp (m : Mach) (p : Ptp) : Mach := { m with pos := { m.pos with ptp := p } }
/-- PTP messages flow: PTP is on and the management link is up. -/
def Mach.ptpHears (m : Mach) : Bool := m.ptpOn && m.pos.ptp.mgmtUp
/-- The message's domain is PTP_CFG.DOMAIN. -/
def Mach.ptpDomain (m : Mach) (d : BitVec 8) : Bool := m.rbits rPtpCfg 15 8 == d.toNat

/-- The master selected, shown in PTP_GM; of another one, or with none, nothing of an exchange is kept, and whether it is two-step shows with
its first Sync. -/
def Mach.selectMaster (m : Mach) (a : Option AnnounceMsg) : Mach :=
  ((m.setPtp { m.pos.ptp with master := a, t1 := none }).putBit rPtpStat 3 false).setReg64 rPtpGmLo (match a with
    | some x => x.gm
    | none => 0)

/-- No foreign master is known any more. -/
def Mach.dropForeign (m : Mach) : Mach := m.setPtp { m.pos.ptp with foreign := [] }

/-- The port enters HOLDOVER; a change of grandmaster is reported besides (R308). -/
def Mach.holdOver (m : Mach) (gmChange : Bool) : Mach :=
  let m := ((m.setPtpState 4).putBit rPosStat 4 true).raisePos 10
  if gmChange then m.raisePos 12 else m

/-- PTP_ENABLE: fields other than EN are written only while EN is 0 (R304). -/
def ptpEnable (v : W32) (m : Mach) : Mach :=
  if !m.hostUp then m
  else
    let was := m.ptpOn
    let m := if was then m.putBit rPtpCfg 0 (bitAt v 0) else m.writeReg rPtpCfg v
    if was = bitAt v 0 then m
    else ((m.dropForeign.selectMaster none).setReg rPtpStat (if bitAt v 0 then 1 else 0)).putBit rPosStat 4 false

def execPtpEnable (v : W32) (s : State) : Host.Outcome State Fault Refusal := done s (ptpEnable v s.m)

/-- The order of clockIdentity, octet 0 first. -/
def gmOrder (g : W64) : Nat := beNat (leBytes 8 g.toNat)

/-- What the default best master clock algorithm compares of two grandmasters, and of two ways to one, in order (R304). PRESUMED (log 131):
IEEE 1588-2019. -/
def gmKey (a : AnnounceMsg) : List Nat :=
  [a.priority1.toNat, a.clockClass.toNat, a.accuracy.toNat, a.variance.toNat, a.priority2.toNat, gmOrder a.gm]
def wayKey (a : AnnounceMsg) : List Nat := [a.stepsRemoved.toNat, gmOrder a.src.clock, a.src.port.toNat]

/-- One announced data set is better than another. -/
def better (a b : AnnounceMsg) : Bool :=
  if a.gm = b.gm then decide (List.Lex (· < ·) (wayKey a) (wayKey b)) else decide (List.Lex (· < ·) (gmKey a) (gmKey b))

/-- Four announce intervals in ns: the window in which a foreign master must have announced itself twice. -/
def announceWindow (a : AnnounceMsg) : Nat :=
  let i := a.interval.toInt
  if 0 ≤ i then 4000000000 * 2 ^ i.toNat else 4000000000 / 2 ^ (-i).toNat

/-- A foreign master is qualified: two Announce messages within the window, at most 254 steps from its grandmaster. PRESUMED (log 131): IEEE
1588-2019. -/
def Foreign.qualified (f : Foreign) (now : Nat) : Bool :=
  decide (f.msg.stepsRemoved.toNat < 255) && f.prev.any fun t => decide (now ≤ t + announceWindow f.msg)

/-- The best of the qualified foreign masters and the parent, whose own Announce messages always count. -/
def Ptp.best (p : Ptp) (now : Nat) : Option AnnounceMsg :=
  let l := p.foreign.filter fun f => f.qualified now || p.master.any fun a => a.src == f.msg.src
  l.foldl (fun (b : Option AnnounceMsg) f => match b with
    | none => some f.msg
    | some x => if better f.msg x then some f.msg else b) none

/-- An Announce message is noted for its sender. -/
def Ptp.heard (p : Ptp) (a : AnnounceMsg) (now : Nat) : Ptp :=
  let old := p.foreign.find? fun f => f.msg.src == a.src
  { p with foreign := (p.foreign.filter fun f => f.msg.src != a.src) ++ [{ msg := a, last := now, prev := old.map (·.last) }] }

/-- The best master is selected. With the parent it had, its data set follows; another parent starts afresh; another grandmaster is HOLDOVER
(R304, R308). -/
def Mach.chooseMaster (m : Mach) : Mach :=
  match m.pos.ptp.master, m.pos.ptp.best m.tb1 with
  | _, none => m
  | none, some b =>
    let m := m.selectMaster (some b)
    if m.ptpState = 1 then m.setPtpState 2 else m
  | some a, some b =>
    let n := if a.src = b.src then (m.setPtp { m.pos.ptp with master := some b }).setReg64 rPtpGmLo b.gm else m.selectMaster (some b)
    if a.gm = b.gm then n else n.holdOver true

/-- ANNOUNCE (R304, R308). -/
def ptpAnnounce (a : AnnounceMsg) (m : Mach) : Mach :=
  if !m.ptpHears || !m.ptpDomain a.domain then m else (m.setPtp (m.pos.ptp.heard a m.tb1)).chooseMaster

def execPtpAnnounce (a : AnnounceMsg) (s : State) : Host.Outcome State Fault Refusal := done s (ptpAnnounce a s.m)

/-- A message comes from the selected master's port (R304). -/
def Mach.fromParent (m : Mach) (src : PtpPort) : Bool := m.pos.ptp.master.any fun a => a.src == src

/-- SYNC of the selected master: stamped with TB0 and TB1 on reception, corrected by PTP_RXLAT to the MDI (R306). -/
def ptpSync (x : SyncMsg) (m : Mach) : Mach :=
  if !m.ptpHears || !m.ptpDomain x.domain || !m.fromParent x.src then m
  else
    let lat := (m.reg rPtpRxlat).toNat
    let t2 := BitVec.ofInt 64 ((m.tb0 : Int) - lat)
    let t2b := BitVec.ofInt 64 ((m.tb1 : Int) - lat)
    (m.setPtp { m.pos.ptp with syncSeq := x.seq, t2 := t2, t2b := t2b, t1 := if x.twoStep then none else some x.t1 }).putBit rPtpStat 3 x.twoStep

def execPtpSync (x : SyncMsg) (s : State) : Host.Outcome State Fault Refusal := done s (ptpSync x s.m)

/-- FOLLOW_UP of the selected master: the origin time of the two-step Sync with its sequenceId (R304). -/
def ptpFollowUp (src : PtpPort) (seq : BitVec 16) (t1 : W64) (m : Mach) : Mach :=
  if m.ptpHears && m.fromParent src && m.bit rPtpStat 3 && m.pos.ptp.syncSeq == seq && m.pos.ptp.t1.isNone then
    m.setPtp { m.pos.ptp with t1 := some t1 }
  else m

def execPtpFollowUp (id : PtpId) (t1 : W64) (s : State) : Host.Outcome State Fault Refusal :=
  done s (ptpFollowUp id.src id.seq t1 s.m)

/-- DELAY_REQ: its transmit stamp, corrected by PTP_TXLAT, joins the queue, or is dropped when the queue is full (R306, R307). -/
def ptpDelayReq (seq : BitVec 16) (m : Mach) : Mach :=
  if !m.ptpHears || m.pos.ptp.master.isNone then m
  else
    let lat := (m.reg rPtpTxlat).toNat
    let st : PtpStamp := { mtype := 1, seq := seq, tb0 := BitVec.ofNat 64 (m.tb0 + lat), tb1 := BitVec.ofNat 64 (m.tb1 + lat) }
    if 16 ≤ m.pos.ptp.queue.length then ((m.incFld rPtpTsqStat 31 16).putBit rPtpTsqStat 8 true).raisePos 13
    else m.setPtp { m.pos.ptp with queue := m.pos.ptp.queue ++ [st] }

def execPtpDelayReq (seq : BitVec 16) (s : State) : Host.Outcome State Fault Refusal := done s (ptpDelayReq seq s.m)

/-- The port is calibrated on a selected master and is SLAVE (R305, R308). -/
def Mach.ptpSlave (m : Mach) : Mach := ((m.setPtpState 3).putBit rPosStat 4 false).putBit rPosStat 3 true

/-- The largest ADJ of a slew: 500 ppm in units of 2^-40 (R308). -/
def adjMax : Int := 500 * 2 ^ 40 / 1000000

/-- The servo slews TB0: an ADJ within 500 ppm that the spec does not fix, a free value (log 40). -/
def Mach.slew (m : Mach) : Mach :=
  let v := m.fresh 32
  v.2.setReg rPtpAdj (BitVec.ofInt 32 (max (-adjMax) (min adjMax v.1.toInt)))

/-- DELAY_RESP of the selected master: the steward reads the request's stamp and measures the offset; within STEPTH the servo slews and the port is SLAVE,
beyond it a TB0_STEP is due (R304, R307, R308). -/
def ptpDelayResp (src : PtpPort) (seq : BitVec 16) (t4 : W64) (m : Mach) : Mach :=
  let p := m.pos.ptp
  match p.queue.find? fun k => k.mtype == 1 && k.seq == seq with
  | none => m
  | some k =>
    if !m.ptpHears || !m.fromParent src then m
    else
      let m := m.setPtp { p with queue := p.queue.erase k }
      match p.t1 with
      | none => m
      | some t1 =>
        let off : Int := ((p.t2 - t1).toInt - (t4 - k.tb0).toInt) / 2
        let m := m.setReg rPtpOffset (BitVec.ofInt 32 (max (-(2 ^ 31)) (min (2 ^ 31 - 1) off)))
        if 1000 * m.rbits rPtpCfg 31 16 < off.natAbs then m else m.slew.ptpSlave

def execPtpDelayResp (id : PtpId) (t4 : W64) (s : State) : Host.Outcome State Fault Refusal :=
  done s (ptpDelayResp id.src id.seq t4 s.m)

/-- TB0_STEP: the servo adds a signed value to TB0 in one cycle; a port that was calibrating is SLAVE (R305, R308). -/
def tb0Step (v : W64) (m : Mach) : Mach :=
  if !m.ptpOn || m.pos.ptp.master.isNone then m
  else
    let m := ({ m with pos := { m.pos with tb0 := m.pos.tb0 + v.toInt * 2 ^ 40 } } : Mach).raisePos 11
    if m.ptpState = 2 ∨ m.ptpState = 4 then m.ptpSlave else m

def execTb0Step (v : W64) (s : State) : Host.Outcome State Fault Refusal := done s (tb0Step v s.m)

/-- The parent is forgotten, and the best of the other masters is selected if there is one. -/
def Mach.loseParent (m : Mach) : Mach :=
  let p := m.pos.ptp
  ((m.setPtp { p with foreign := p.foreign.filter fun f => !(p.master.any fun a => a.src == f.msg.src) }).selectMaster none).chooseMaster

/-- HOLDOVER: the announce receipt timeout of the parent expires, or the grandmaster has changed (R308). -/
def holdover (gmChange : Bool) (m : Mach) : Mach :=
  if !m.ptpOn then m
  else
    let n := if gmChange then m else m.loseParent
    let other := (m.pos.ptp.master.bind fun a => n.pos.ptp.master.map fun b => a.gm != b.gm).getD false
    n.holdOver (gmChange || other)

def execHoldover (gmChange : Bool) (s : State) : Host.Outcome State Fault Refusal := done s (holdover gmChange s.m)

/-- MGMT_LINK_DOWN (R308). -/
def mgmtLinkDown (m : Mach) : Mach :=
  if !m.pos.ptp.mgmtUp then m
  else
    let m := m.setPtp { m.pos.ptp with mgmtUp := false }
    if m.ptpOn then (m.dropForeign.selectMaster none).holdOver false else m.dropForeign

def execMgmtLinkDown (s : State) : Host.Outcome State Fault Refusal := done s (mgmtLinkDown s.m)

/-- MGMT_LINK_UP (R308). -/
def mgmtLinkUp (m : Mach) : Mach := m.setPtp { m.pos.ptp with mgmtUp := true }

def execMgmtLinkUp (s : State) : Host.Outcome State Fault Refusal := done s (mgmtLinkUp s.m)

end Sys2Proof.Machine
end

