-- ==== Sys2Proof/Machine/Spout.lean ====
section
/-! DEFINITION. The spout table: arming, firing, pulses, cancels, spout rules and the flush of a scrub (R287-R297). -/
namespace Sys2Proof.Machine

/-- The spout table's entry n, when it is outstanding. -/
def Mach.spout (m : Mach) (n : Nat) : Option Spout := m.pos.spouts.lookup n
def Mach.setSpout (m : Mach) (n : Nat) (x : Spout) : Mach :=
  { m with pos := { m.pos with spouts := FMap.ins n x (FMap.erase m.pos.spouts n) } }
def Mach.freeSpout (m : Mach) (n : Nat) : Mach := { m with pos := { m.pos with spouts := FMap.erase m.pos.spouts n } }

/-- An entry's mask selects strobes, or isolated outputs (R287). -/
def Spout.hasStb (x : Spout) : Bool := bits x.mask 7 0 != 0
def Spout.hasOut (x : Spout) : Bool := bits x.mask 23 8 != 0
/-- An entry has fired: one of its pulses has begun. -/
def Spout.fired (x : Spout) : Bool := x.stbOn || x.stbDone || x.outOn || x.outDone
/-- Every pulse of an entry has ended. -/
def Spout.ovr (x : Spout) : Bool := (!x.hasStb || x.stbDone) && (!x.hasOut || x.outDone)

/-- The 32-byte completion record (R290). -/
def spoutRecord (entry : Nat) (armseq tag : Nat) (status src : Nat) (smp : Nat) (pos : BitVec 32) (t : Nat) : List Byte :=
  leBytes 2 entry ++ leBytes 2 armseq ++ leBytes 2 tag ++ leBytes 1 status ++ leBytes 1 src ++ leBytes 6 smp ++ zeros 2
    ++ leBytes 4 pos.toNat ++ zeros 4 ++ leBytes 8 t

/-- The final record of an entry, which frees it (R290). -/
def Mach.endSpout (m : Mach) (n : Nat) (x : Spout) (status : Nat) : Mach :=
  (m.freeSpout n).commandOuts.qPush x.doneq
    (spoutRecord n x.armseq.toNat x.tag.toNat status x.src.toNat x.smp.toNat x.posFire x.tFire)

/-- The lead of a base, in units of 2^-40 ct (R292). -/
def Mach.lead (m : Mach) (b : Bool) : Int := max 0 (m.pos.enc b).u * 12 / 2 ^ m.encDiv b

/-! ### Arming (R287, R289) -/

/-- The status of an arm request: the first check of R289 that applies. -/
def Mach.armStatus (m : Mach) (reserved : Bool) (b : Bool) (target : BitVec 32) (mask : BitVec 24) (width : Nat) : Nat :=
  let d := diff32 (m.pos32 b) target
  let lead := if bits mask 23 8 = 0 then 0 else m.lead b
  if reserved ∨ mask = 0 ∨ width = 0 then 5
  else if (2 ^ 30 : Nat) < (diff32 target (m.pos32 b)).natAbs then 5
  else if 0 ≤ d * 2 ^ 40 + lead then 2
  else if 4096 ≤ m.pos.spouts.length then 4
  else 0

/-- The lowest-numbered free entry (R289). -/
def Pos.freeEntry (p : Pos) : Nat := ((List.range 4096).find? fun n => (p.spouts.lookup n).isNone).getD 0

/-- What an arm request names. -/
structure ArmReq where
  reserved : Bool
  tb4 : Bool
  ct : Bool
  tag : BitVec 16
  target : BitVec 32
  mask : BitVec 24
  width : Nat
  smp : BitVec 48
  src : BitVec 8
  doneq : Nat
deriving DecidableEq, Repr

/-- An arm request: the ARMSEQ counter advances, the checks of R289 decide, and an accepted request takes its entry. The ARMED record is
written for the host's requests only (R296). -/
def Mach.arm (m : Mach) (a : ArmReq) : Mach :=
  let seq := m.pos.armseq + 1
  let m := { m with pos := { m.pos with armseq := seq } }
  let st := m.armStatus a.reserved a.tb4 a.target a.mask a.width
  let rec_ := fun (m : Mach) (n : Nat) => m.qPush a.doneq (spoutRecord n seq.toNat a.tag.toNat st a.src.toNat a.smp.toNat 0 0)
  if st = 0 then
    let n := m.pos.freeEntry
    let x : Spout :=
      { tb4 := a.tb4, ct := a.ct, tag := a.tag, target := a.target, mask := a.mask, width := a.width, smp := a.smp, armseq := seq,
        src := a.src, doneq := a.doneq, stbOn := false, stbDone := false, outOn := false, outDone := false, tStb := 0, tOut := 0,
        posFire := 0, tFire := 0, maxon := false }
    let m := m.setSpout n x
    if a.src = 0 then rec_ m n else m
  else
    let m := if st = 2 then (m.inc rSptPast).raisePos 4 else if st = 4 then m.raisePos 5 else m
    rec_ m 0xFFFF

/-- A record of the spout queue is taken: k handles the OP that a command names; a reserved OP ends with RANGE (R288). -/
def Mach.spoutTake (m : Mach) (q : Nat) (ent : BitVec 256) (op other : Nat) (k : List Byte → Nat → Mach → Mach) : Mach :=
  let b := leBytes 32 ent.toNat
  let o := fieldAt b 0 1
  if !m.qReady q 0xB ∨ o = other then m
  else
    let m := m.qTake q
    let done := m.rbits (rQLink q) 12 0
    if o = op then k b done m else m.qPush done (spoutRecord 0xFFFF 0 (fieldAt b 2 2) 5 0 (fieldAt b 16 6) 0 0)

/-- ARM (R288, R289). -/
def spoutArm (q : Nat) (ent : BitVec 256) (m : Mach) : Mach :=
  m.spoutTake q ent 1 2 fun b done m =>
    let fl := fieldAt b 1 1
    m.arm
      { reserved := decide (4 ≤ fl) || fieldAt b 11 1 != 0 || fieldAt b 15 1 != 0 || fieldAt b 22 10 != 0, tb4 := fl.testBit 0,
        ct := fl.testBit 1, tag := BitVec.ofNat 16 (fieldAt b 2 2), target := BitVec.ofNat 32 (fieldAt b 4 4),
        mask := BitVec.ofNat 24 (fieldAt b 8 3), width := fieldAt b 12 3, smp := BitVec.ofNat 48 (fieldAt b 16 6), src := 0, doneq := done }

def execSpoutArm (q : Fin 8192) (ent : BitVec 256) (s : State) : Host.Outcome State Fault Refusal := done s (spoutArm q ent s.m)

/-- CANCEL: an entry that has not fired ends CANCELLED; of one that has, the pulses end at once. The entry's final record comes first
(R294). -/
def spoutCancel (q : Nat) (ent : BitVec 256) (m : Mach) : Mach :=
  m.spoutTake q ent 2 1 fun b done m =>
    let n := fieldAt b 24 2
    let seq := fieldAt b 22 2
    let own := fun (m : Mach) st => m.qPush done (spoutRecord n seq (fieldAt b 2 2) st 0 (fieldAt b 16 6) 0 0)
    if fieldAt b 1 1 ≠ 0 ∨ fieldAt b 4 18 ≠ 0 ∨ fieldAt b 26 6 ≠ 0 ∨ 4095 < n then own m 5
    else match m.spout n with
      | some x =>
        if x.armseq.toNat = seq then
          own (m.endSpout n x (if !x.fired then 3 else if x.maxon then 8 else 1)) 3
        else own (m.raisePos 6) 6
      | none => own (m.raisePos 6) 6

def execSpoutCancel (q : Fin 8192) (ent : BitVec 256) (s : State) : Host.Outcome State Fault Refusal := done s (spoutCancel q ent s.m)

/-- The arm request of a spout rule for a record (R296). -/
def ruleArm (r : RuleReq) (k : Nat) (x : SpoutRule) : ArmReq :=
  { reserved := false, tb4 := r.tb4, ct := x.wunit, tag := 0, target := r.pt + BitVec.ofInt 32 x.offset, mask := x.mask, width := x.width,
    smp := r.smp, src := BitVec.ofNat 8 (k + 1), doneq := x.doneq }

/-- SPOUT_RULE_ARM: the oldest record that became VALID meets the rules in order 0 to 7 (R296). -/
def spoutRuleArm (m : Mach) : Mach :=
  match m.pos.rules with
  | [] => m
  | r :: rest =>
    (List.range 8).foldl (fun (m : Mach) k =>
      match r.rules.lookup k with
      | some x => if x.cond.testBit r.decision then m.arm (ruleArm r k x) else m
      | none => m) { m with pos := { m.pos with rules := rest } }

def execSpoutRuleArm (s : State) : Host.Outcome State Fault Refusal := done s (spoutRuleArm s.m)

/-! ### Firing and pulses (R291-R293) -/

/-- A pulse of an entry begins; the first one is the firing, with its position and time (R290). -/
def Mach.fire (m : Mach) (n : Nat) (x : Spout) (f : Spout → Spout) : Mach :=
  if x.fired then m.setSpout n (f x)
  else (m.setSpout n (f { x with posFire := m.pos32 x.tb4, tFire := m.tb1 })).inc rSptFired

/-- STROBE_FIRE: p has reached TARGET and the strobes switch on; nothing fires during a scrub (R291, R295). -/
def strobeFire (n : Nat) (m : Mach) : Mach :=
  match m.spout n with
  | none => m
  | some x =>
    if x.hasStb && !x.stbOn && !x.stbDone && !m.scrubbing && decide (0 ≤ diff32 (m.pos32 x.tb4) x.target) then
      m.fire n x fun x => { x with stbOn := true, tStb := m.tb1 }
    else m

def execStrobeFire (e : Fin 4096) (s : State) : Host.Outcome State Fault Refusal := done s (strobeFire e s.m)

/-- The estimate with its lead, or p itself, has reached a target: the isolated outputs are commanded (R292). -/
def Mach.commandAt (m : Mach) (b : Bool) (target : BitVec 32) : Bool :=
  decide (0 ≤ diff32 (BitVec.ofInt 32 ((m.xq b m.tb1 + m.lead b) / 2 ^ 40)) target) || decide (0 ≤ diff32 (m.pos32 b) target)

/-- COMMAND_INSTANT (R292, R320). -/
def commandInstant (n : Nat) (m : Mach) : Mach :=
  match m.spout n with
  | none => m
  | some x =>
    if x.hasOut && !x.outOn && !x.outDone && !m.scrubbing && m.commandAt x.tb4 x.target then
      (m.fire n x fun x => { x with outOn := true, tOut := m.tb1 }).commandOuts
    else m

def execCommandInstant (e : Fin 4096) (s : State) : Host.Outcome State Fault Refusal := done s (commandInstant e s.m)

/-- An entry after pulses have ended: the final record once all have (R290, R293). -/
def Mach.afterPulse (m : Mach) (n : Nat) (x : Spout) : Mach :=
  if x.ovr then m.endSpout n x (if x.maxon then 8 else 1) else (m.setSpout n x).commandOuts

/-- The width of a pulse that began at t has run out: in time, or at TARGET + WIDTH (R293). -/
def Mach.widthOver (m : Mach) (x : Spout) (t : Nat) (out : Bool) : Bool :=
  let stop := x.target + BitVec.ofNat 32 x.width
  if !x.ct then decide (t + 10 * x.width ≤ m.tb1)
  else if out then m.commandAt x.tb4 stop
  else decide (0 ≤ diff32 (m.pos32 x.tb4) stop)

/-- An entry with the pulses ended that the two conditions name. -/
def Spout.stop (x : Spout) (stb out : Bool) : Spout :=
  { x with stbOn := x.stbOn && !stb, stbDone := x.stbDone || stb, outOn := x.outOn && !out, outDone := x.outDone || out }

/-- PULSE_END: the pulses whose width has run out end (R293). -/
def pulseEnd (n : Nat) (m : Mach) : Mach :=
  match m.spout n with
  | none => m
  | some x =>
    let stb := x.stbOn && m.widthOver x x.tStb false
    let out := x.outOn && m.widthOver x x.tOut true
    if stb || out then m.afterPulse n (x.stop stb out) else m

def execPulseEnd (e : Fin 4096) (s : State) : Host.Outcome State Fault Refusal := done s (pulseEnd e s.m)

/-- PULSE_MAXON: the pulses that have lasted SPT_CFG.MAXON ms end (R293). -/
def pulseMaxon (n : Nat) (m : Mach) : Mach :=
  match m.spout n with
  | none => m
  | some x =>
    let long := fun (t : Nat) => decide (t + 1000000 * m.rbits rSptCfg 15 0 ≤ m.tb1)
    let stb := x.stbOn && long x.tStb
    let out := x.outOn && long x.tOut
    if stb || out then (m.raisePos 7).afterPulse n { x.stop stb out with maxon := true } else m

def execPulseMaxon (e : Fin 4096) (s : State) : Host.Outcome State Fault Refusal := done s (pulseMaxon e s.m)

/-- A scrub flushes the table: records still to be matched are matched first, then every entry ends FLUSHED, in entry order (R295). -/
def Mach.flushSpouts (m : Mach) : Mach :=
  let m := m.pos.rules.foldl (fun (m : Mach) _ => spoutRuleArm m) m
  m.pos.spouts.foldl (fun (m : Mach) e => m.endSpout e.1 e.2 7) m

end Sys2Proof.Machine
end

