-- ==== Sys2Proof/Machine/Views.lean ====
section
/-! DEFINITION. What a read of a BAR0 register returns (R10, R14-R17): the stored bits, with the fields that show other state of the
block put in, and the windows that are closed or that confidential mode hides. Fields not named here are stored. -/
namespace Sys2Proof.Machine

/-- A register value from fields: low bit and value. -/
def packFields (l : List (Nat × Nat)) : W32 := BitVec.ofNat 32 ((l.map fun p => p.2 * 2 ^ p.1).foldl (· + ·) 0)
/-- The lower half of a 64-bit value. -/
def loHalf (n : Nat) : W32 := BitVec.ofNat 32 n
/-- The upper half of a 64-bit value. -/
def hiHalf (n : Nat) : W32 := BitVec.ofNat 32 (n / 2 ^ 32)
/-- A stored register with fields put in: high bit, low bit and value. -/
def Mach.regWith (m : Mach) (a : Nat) (l : List (Nat × Nat × Nat)) : W32 :=
  l.foldl (fun v f => setBits v f.1 f.2.1 f.2.2) (m.reg a)

/-! ### GLB, CLK and PWR (R491) -/

/-- GLB_STAT.WSTATE. -/
def Mach.wstate (m : Mach) : Nat :=
  let idle := !m.weaveRuns
  match m.wv.cmd with
  | none => b2n m.weaveRuns * 2
  | some c =>
    match c.phase with
    | .loading => if idle then 1 else 3
    | .reloading => 1
    | .waitSwitch => 3
    | .loaded => if idle then 4 else 3
    | .overlap => 2
    | .waitStop => 4
    | .draining => 4

/-- The bank b of the reachable table: 0 ACTIVE, 1 PREVIOUS, 2 STAGED. -/
def Mach.bankOf (m : Mach) (b : Nat) : Option BankImg :=
  if b = 0 then m.banks.active else if b = 1 then m.banks.previous else m.banks.staged

/-- The bank registers. -/
def Mach.viewBank (m : Mach) (b o : Nat) : W32 :=
  match m.bankOf b with
  | none => 0
  | some x =>
    let dig := fieldAt (bytes32 x.digest) 0 8
    if o = 0 then packFields [(31, 1), (30, b2n (weaveHdr x.img).ctx), (16, fieldAt x.img 5 1), (0, fieldAt x.img 4 1)]
    else if o = 4 then loHalf x.img.length
    else if o = 8 then loHalf dig
    else hiHalf dig

/-- GLB. -/
def Mach.viewGlb (m : Mach) (a : Nat) : W32 :=
  let v := m.variant
  if a = rGlbId then
    m.regWith a [(13, 13, b2n v.io1), (9, 8, if v.ddr = 32 then 0 else if v.ddr = 64 then 1 else 2), (5, 0, v.stackMask)]
  else if a = rGlbStat then
    m.regWith a [(6, 4, m.wstate), (2, 2, b2n (decide (2 ≤ (m.wv.running.filter (·.started)).length))), (1, 1, b2n m.pwr.ddrReady),
      (0, 0, b2n m.pwr.aligned)]
  else if a = rGlbFlash then packFields [(16, m.flash.sets.length), (0, (bankArea - m.flash.used) / 2 ^ 20)]
  else if rBankStat 0 ≤ a ∧ a < rBankStat 3 then m.viewBank ((a - rBankStat 0) / 16) (a % 16)
  else m.reg a

/-- CLK and PWR. -/
def Mach.viewClk (m : Mach) (a : Nat) : W32 :=
  let p := m.pwr
  if a = rClkStat then
    packFields [(3, b2n p.thermWarn), (2, b2n (p.locks == m.variant.clocks)), (1, b2n p.refOk), (0, b2n p.aligned)]
  else if a = rClkLock then loHalf p.locks.toNat
  else if a = rClkAlign then loHalf p.tries
  else if a = rPwrGoodLo then loHalf p.good.toNat
  else if a = rPwrGoodHi then hiHalf p.good.toNat
  else m.reg a

/-! ### Tiles (R70) -/

/-- TILE_STAT.STATE; a frozen fabric shows HALT (R462). -/
def Mach.tileState (m : Mach) (x : Tile) : Nat :=
  if m.flt.frozen && x.assigned then 6
  else match x.mode with
    | .idle => 0
    | .halt => 6
    | .fault => 7
    | .run => match x.held with
      | none => 1
      | some .tag => 2
      | some .latch => 3
      | some .bank => 4
      | some .queue => 5

/-- TILE_STAT. -/
def Mach.tileStat (m : Mach) (x : Tile) : W32 :=
  packFields [(16, x.stage.toNat), (4, b2n x.assigned), (3, b2n x.adapt), (0, m.tileState x)]

/-- TILE_PC. -/
def Tile.pcWord (x : Tile) : W32 := packFields [(11, x.depth), (0, x.pc.toNat)]

/-- The tile registers. -/
def Mach.viewTile (m : Mach) (a : Nat) : W32 :=
  let t := (a - rTileId 0) / 0x4000
  let x := m.tile t
  let clear := !m.sec.conf
  let shown := fun (n : Nat) => if clear then loHalf n else 0
  match (a - rTileId 0) % 0x4000 with
  | 0x00 => packFields [(18, t / 144), (14, t / 12 % 12), (10, t % 12), (0, t)]
  | 0x04 => m.tileStat x
  | 0x08 => shown x.pcWord.toNat
  | 0x0C => loHalf x.step.toNat
  | 0x10 => hiHalf x.step.toNat
  | 0x14 => shown x.smp.toNat
  | 0x18 => shown (x.smp.toNat / 2 ^ 32 + x.flags.toNat * 2 ^ 16)
  | 0x24 => loHalf x.slips
  | 0x2C => shown x.cntIssue
  | 0x30 => shown (x.cntIssue / 2 ^ 32)
  | 0x34 => shown x.cntHtag
  | 0x38 => shown x.cntHlat
  | 0x3C => shown x.cntHbank
  | 0x40 => shown x.cntHque
  | 0x44 => shown x.cntPred
  | _ => m.reg a

/-! ### MEM (R138) -/

/-- Latch states as MEM_LAT_OWN.STATE codes them. -/
def LatchSt.code : LatchSt → Nat
  | .free => 0
  | .held => 1
  | .revoked => 2

/-- Engine modes as MEM_SLU_CTL.MODE codes them. -/
def SluMode.code : SluMode → Nat
  | .free => 0
  | .plan => 1
  | .queue => 2

/-- Engine states as MEM_SLU_STAT.STATE codes them. -/
def SluState.code : SluState → Nat
  | .idle => 0
  | .gate => 1
  | .move => 2
  | .done => 3
  | .fault => 4
  | .revoked => 5

/-- The sluice registers of an engine. -/
def Mach.viewSlu (m : Mach) (e o a : Nat) : W32 :=
  let x := m.engine e
  match o with
  | 0x00 => packFields [(16, x.passes), (2, (m.engineMode e).code)]
  | 0x04 => packFields [(16, (x.inflight.head?.map (·.index)).getD 0), (0, x.st.code)]
  | 0x08 => loHalf x.pass
  | 0x10 =>
    match m.engineMode e with
    | .free => 0
    | .plan => packFields [(16, b2n (m.live (.engine (Fin.ofNat 32 e)))), (0, 0x4000 + e)]
    | .queue => packFields [(16, b2n (m.qEn ((m.engineQueue e).getD 0))), (0, (m.engineQueue e).getD 0)]
  | 0x14 => if m.sec.conf then 0 else loHalf x.plan.length
  | _ => m.reg a

/-- MEM. -/
def Mach.viewMem (m : Mach) (a : Nat) : W32 :=
  let v := m.variant
  let clear := !m.sec.conf
  let l := m.rbits rMemLatSel 13 0
  let w := m.win (m.rbits rMemWinSel 9 0) (m.rbits rMemWinSel 12 10)
  if a = rMemCfg then
    packFields [(16, if v.io1 then 0xFF else 0x0F), (14, b2n (v.ddr != 32)), (0, v.stackMask)]
  else if a = rMemLeaseStat then m.regWith a [(2, 2, b2n (!m.revoking.isEmpty))]
  else if a = rMemWdropAddr then if clear then m.reg a else 0
  else if a = rMemDdrStat then m.regWith a [(15, 8, if m.pwr.ddrReady then (if v.io1 then 0xFF else 0x0F) else 0)]
  else if a = rMemLatCnt then if clear then (m.latch l).count else 0
  else if a = rMemLatOwn then
    if clear then
      packFields [(17, (m.latch l).st.code), (16, b2n (m.waits.any fun x => x.latch == l && x.granted.isNone)),
        (0, if (m.latch l).st = .free then 0 else (m.latch l).owner.toNat)]
    else 0
  else if a = rMemWinStat then
    if clear then packFields [(31, b2n w.isOpen), (30, b2n w.kind), (27, w.stack), (15, w.gen)] else 0
  else if a = rMemWinBase then if clear then loHalf w.base else 0
  else if a = rMemWinLimit then if clear then loHalf w.limit else 0
  else if rMemSluCtl 0 ≤ a ∧ a < rMemSluCtl 32 then m.viewSlu ((a - rMemSluCtl 0) / 0x40) (a % 0x40) a
  else m.reg a

/-! ### Stem, ROI and intake (R194, R216) -/

/-- Sampler states as ROI_STAT.STATE codes them. -/
def RoiState.code : RoiState → Nat
  | .idle => 0
  | .gate => 1
  | .read => 2
  | .write => 3
  | .fault => 4

/-- STEM_PORT. -/
def StemCfg.word (c : StemCfg) : W32 :=
  if c.en then
    packFields [(13, b2n c.uint8), (12, b2n c.relu), (6, c.co - 1), (4, (c.kw - 1) / 2), (2, (c.kh - 1) / 2), (0, c.b.log2)]
  else 0

/-- The stem and ROI registers of a die. -/
def Mach.viewVision (m : Mach) (d o a : Nat) : W32 :=
  let x := m.roi d
  let hide := fun (w : W32) => if m.sec.conf then 0 else w
  let gateWait := m.waits.find? fun w => w.who == .roi d && w.granted.isNone
  if o = 0xE0000 then packFields ((List.range 6).map fun p => (p, b2n (m.stem (6 * d + p)).cfg.en))
  else if 0xE0010 ≤ o ∧ o < 0xE0028 then (m.stem (6 * d + (o - 0xE0010) / 4)).cfg.word
  else if 0xE0030 ≤ o ∧ o < 0xE0048 then hide (m.reg a)
  else if o = 0xE0100 then packFields [(16, x.jobs.length), (2, b2n x.planMode)]
  else if o = 0xE0104 then packFields [(4, x.job), (0, x.st.code)]
  else if o = 0xE0108 then loHalf x.pass
  else if o = 0xE0114 then hide (loHalf x.boxes)
  else if o = 0xE0118 then hide (hiHalf x.boxes)
  else if o = 0xE011C then
    match gateWait with
    | some w => packFields [(16, 1), (0, w.latch)]
    | none => 0
  else m.reg a

/-- The intake blocks: flat-field tables, stem, ROI and ports. -/
def Mach.viewInt (m : Mach) (a : Nat) : W32 :=
  let d := (a - 0x1800000) / 0x100000
  let o := (a - 0x1800000) % 0x100000
  if o < 0xC0000 then FMap.get (fun _ => 0) m.ffc (((12 * d) + o / 0x10000) * 16384 + o % 0x10000 / 4)
  else if o < 0xF0000 then m.viewVision d o a
  else if rPortCfg 0 0 - 0x1800000 ≤ o then
    let p := 6 * d + (o - (rPortCfg 0 0 - 0x1800000)) / 0x100
    match o % 0x100 with
    | 0x44 => loHalf (m.port p).lidx
    | 0x48 => hiHalf (m.port p).lidx
    | _ => m.reg a
  else m.reg a

/-! ### PREP (R249, R250) -/

/-- PREP. -/
def Mach.viewPrep (m : Mach) (a : Nat) : W32 :=
  let hide := fun (n : Nat) => if m.sec.conf then 0 else n
  let seed := hide ((m.prep.recipe.map fun r => r.seed.toNat).getD 0)
  let bkt := m.prep.recipe.bind fun r => (r.buckets.lookup ((a - rPrepBktCfg 0) / 0x10)).map fun c => (r, c)
  if a = rPrepStat then m.regWith a [(1, 0, if m.scrubbing then 2 else b2n m.prep.recipe.isSome)]
  else if a = rPrepIdxLo then loHalf m.prep.nextIdx.toNat
  else if a = rPrepIdxHi then hiHalf m.prep.nextIdx.toNat
  else if a = rPrepSeedLo then loHalf seed
  else if a = rPrepSeedHi then hiHalf seed
  else if rPrepBktCfg 0 ≤ a then
    let b := (a - rPrepBktCfg 0) / 0x10
    match bkt with
    | none => 0
    | some (r, c) =>
      match a % 0x10 with
      | 0x0 =>
        let g := ((r.groups.find? fun g => bitAt g.2.bkts b).map (·.1)).getD 0
        packFields [(31, b2n c.whole), (28, g), (12, c.h - 1), (0, c.w - 1)]
      | 0x8 => packFields [(16, c.nq), (0, m.level m.prep.serial b c)]
      | _ => m.reg a
  else m.reg a

/-! ### POS -/

/-- The registers of an encoder. -/
def Mach.viewEnc (m : Mach) (e o a : Nat) : W32 :=
  let b := encBase e
  match o with
  | 0x04 => m.regWith a [(5, 5, b2n (m.namesBase b))]
  | 0x40 => loHalf (((m.recipeOn b).map fun r => r.vMax).getD 0)
  | 0x48 => BitVec.ofInt 32 (m.pos.enc b).r
  | _ => m.reg a

/-- A spout rule of the recipe in force. -/
def Mach.viewRule (m : Mach) (k o : Nat) : W32 :=
  match m.prep.recipe.bind fun r => r.rules.lookup k with
  | none => 0
  | some x =>
    match o with
    | 0x0 => packFields [(16, x.doneq), (3, b2n x.wunit), (0, x.cond)]
    | 0x4 => BitVec.ofInt 32 x.offset
    | 0x8 => loHalf x.mask.toNat
    | _ => loHalf x.width

/-- POS. -/
def Mach.viewPos (m : Mach) (a : Nat) : W32 :=
  if a = rPosStat then m.regWith a [(1, 1, b2n (m.ovs true)), (0, 0, b2n (m.ovs false))]
  else if rPosTbLo 0 ≤ a ∧ a < rPosTbLo 5 then
    let v := (m.tbase ((a - rPosTbLo 0) / 8)).toNat
    if a % 8 = 0 then loHalf v else hiHalf v
  else if a = rSptStat then packFields [(16, m.pos.spouts.length), (0, m.pos.armseq.toNat)]
  else if a = rSptOut then packFields [(8, m.pos.outMask.toNat), (0, m.pos.stbMask.toNat)]
  else if rEncCfg 0 ≤ a ∧ a < rEncCfg 2 then m.viewEnc ((a - rEncCfg 0) / 0x80) (a % 0x80) a
  else if rSpMatch 0 ≤ a ∧ a < rSpMatch 8 then m.viewRule ((a - rSpMatch 0) / 0x10) (a % 0x10)
  else if a = rPtpTsqStat then m.regWith a [(4, 0, m.pos.ptp.queue.length)]
  else m.reg a

/-! ### LNK, HIF, SEC and FLT -/

/-- LNK. -/
def Mach.viewLnk (m : Mach) (a : Nat) : W32 := if (a = rLnkDropInfo ∨ a = rLnkDropAddr) ∧ m.sec.conf then 0 else m.reg a

/-- HIF. -/
def Mach.viewHif (m : Mach) (a : Nat) : W32 :=
  if a = rHifId then packFields [(16, 0x0190), (8, Config.revision.toNat)]
  else if a = rHifLink then (if m.endpointOn then loHalf Config.pcieLink.toNat else 0)
  else if a = rHifLot then
    packFields [(31, b2n m.hif.lot.isOpen), (30, b2n m.prep.recipe.isSome), (0, m.hif.lot.num.toNat)]
  else m.reg a

/-- SEC_STAT.CTX: the resident context; while a switch runs the one that leaves, 0x1F for none. -/
def Mach.ctxShown (m : Mach) : Nat :=
  match m.sec.switching with
  | some w => min w.outgoing 0x1F
  | none => m.sec.resident.getD 0x1F

/-- A bit per context that meets a condition. -/
def Mach.ctxMask (m : Mach) (f : Ctx → Bool) : Nat := ((List.range 16).map fun c => b2n ((m.ctx c).any f) * 2 ^ c).foldl (· + ·) 0

/-- SEC. -/
def Mach.viewSec (m : Mach) (a : Nat) : W32 :=
  if a = rSecStat then
    m.regWith a [(20, 16, m.ctxShown), (4, 4, b2n (m.rbits rSecCfg 1 0 != 0)), (3, 3, b2n m.scrubbing), (2, 2, b2n m.sec.conf),
      (1, 1, b2n m.sec.sdev.isSome), (0, 0, b2n m.pwr.bootOk)]
  else if a = rSecCtxMap then packFields [(16, m.ctxMask (·.conf)), (0, m.ctxMask fun _ => true)]
  else if a = rSecSvn then m.sec.svn
  else if rSecMeas 0 0 ≤ a ∧ a < rSecMeas 8 0 then
    BitVec.ofNat 32 (fieldAt (bytes32 (m.sec.m ((a - rSecMeas 0 0) / 0x20))) (a % 0x20) 4)
  else m.reg a

/-- The words of the event log: the record of each place (R434). -/
def Mach.logWord (m : Mach) (e w : Nat) : W32 :=
  match m.flt.log.lookup e with
  | none => 0
  | some (ev, idx) => BitVec.ofNat 32 (fieldAt (ev.bytes idx) (4 * w) 4)

/-- FLT. -/
def Mach.viewFlt (m : Mach) (a : Nat) : W32 :=
  if a = rFltStat then m.regWith a [(3, 3, b2n m.flt.frozen), (0, 0, b2n (m.reg rFltLogPi != m.reg rFltLogCi))]
  else if rFltEventLog 0 0 ≤ a ∧ a < rFltEventLog 4096 0 then m.logWord ((a - rFltEventLog 0 0) / 0x20) (a % 0x20 / 4)
  else m.reg a

/-! ### Reads -/

/-- The register that a BAR0 offset names, or a flat-field table's entry. -/
def isRegister (a : Nat) : Bool := (regRow a).isSome || (decide (0x1800000 ≤ a) && decide (a < 0x1A00000) && decide (a % 0x100000 < 0xC0000))

/-- What a register reads as when its window is open. -/
def Mach.view (m : Mach) (a : Nat) : W32 :=
  if m.variant.absentReg a ∨ !isRegister a then 0
  else if a < 0x10000 then m.viewGlb a
  else if a < 0x100000 then m.viewClk a
  else if a < 0x1000000 then m.viewTile a
  else if a < 0x1800000 then m.viewMem a
  else if a < 0x1A00000 then m.viewInt a
  else if a < 0x1B00000 then m.viewPrep a
  else if a < 0x1C00000 then m.viewPos a
  else if a < 0x1D00000 then m.reg a
  else if a < 0x1E00000 then m.viewLnk a
  else if a < 0x1F00000 then m.viewHif a
  else if a < 0x2000000 then m.viewSec a
  else m.viewFlt a

/-- What a host read of a BAR0 register returns; a closed context window reads as all ones (R420). -/
def Mach.readReg (m : Mach) (a : Nat) : W32 := if m.windowsClosed && inContextWindow a then 0xFFFFFFFF else m.view a

end Sys2Proof.Machine
end

