-- ==== Sys2Proof/Machine/Dump.lean ====
section
/-! DEFINITION. Tile capture images and the state dump (R447-R451). -/
namespace Sys2Proof.Machine

/-! ### The capture image of a tile (R450) -/

/-- Bits as bytes, bit 0 of byte 0 first. -/
def bitBytes (n : Nat) (f : Nat → Bool) : List Byte :=
  (List.range n).map fun k => BitVec.ofNat 8 (((List.range 8).map fun i => b2n (f (8 * k + i)) * 2 ^ i).foldl (· + ·) 0)

/-- A row of lanes as bytes, lane 0 first. -/
def rowBytes (v : Row) : List Byte := leBytes 128 v.toNat

/-- A weight set: parts 0-7 and the scale row. -/
def WeightSet.image (w : WeightSet) : List Byte :=
  (List.range 8).flatMap (fun p => slotBytes (FMap.get (fun _ => 0) w.parts p)) ++ leBytes 32 w.scale.toNat

/-- An address register: index, S, RB and RL - 1. -/
def AReg.image (a : AReg) : List Byte := leBytes 2 a.idx.toNat ++ leBytes 2 (wrap 16 a.stride) ++ leBytes 2 a.rb ++ leBytes 2 (a.rl - 1)
/-- A stack address register and its stride. -/
def GReg.image (g : GReg) : List Byte := leBytes 4 (g.stack.toNat * 2 ^ 29 + g.gran.toNat) ++ leBytes 4 (wrap 32 g.stride)
/-- A remote address register and its stride. -/
def DReg.image (d : DReg) : List Byte := leBytes 4 (d.tile.toNat * 2 ^ 22 + d.base.toNat) ++ leBytes 4 (wrap 32 d.stride)
/-- A loop level: count and start address. -/
def LoopReg.image (l : LoopReg) : List Byte := leBytes 2 l.count.toNat ++ leBytes 2 l.start.toNat ++ zeros 4

/-- The registers of a capture image; the format and part counter of a weight set take a byte each, DEDUCED (log 48). -/
def Mach.regImage (m : Mach) (x : Tile) : List Byte :=
  padTo 2048 (leBytes 4 (m.tileStat x).toNat ++ leBytes 4 x.pcWord.toNat ++ leBytes 8 x.step.toNat ++ leBytes 6 x.smp.toNat
    ++ leBytes 2 x.flags.toNat ++ leBytes 1 x.acp.toNat ++ zeros 7
    ++ (List.range 16).flatMap (fun n => (x.areg (BitVec.ofNat 4 n)).image)
    ++ (List.range 8).flatMap (fun n => (x.greg (BitVec.ofNat 3 n)).image)
    ++ (List.range 8).flatMap (fun n => (x.dreg (BitVec.ofNat 3 n)).image)
    ++ (List.range 4).flatMap (fun n => (x.loopReg (BitVec.ofNat 2 n)).image)
    ++ padTo 64 (leBytes 1 x.ws0.fmt.toNat ++ leBytes 1 x.ws0.cnt.toNat ++ leBytes 1 x.ws1.fmt.toNat ++ leBytes 1 x.ws1.cnt.toNat)
    ++ slotBytes x.xs ++ x.ws0.image ++ x.ws1.image
    ++ (List.range 32).map (fun n => x.drawOf (BitVec.ofNat 5 n)))

/-- The capture image of a tile: slots, tags, skews, vector registers, accumulators, registers. -/
def Mach.capture (m : Mach) (t : Nat) : List Byte :=
  let x := m.tile t
  readBytes m.mem.spad (spadAddr t 0) 524288 ++ bitBytes 1024 (m.tag t)
    ++ (List.range 4096).map (fun k => BitVec.ofNat 8 (wrap 4 (m.skew t (2 * k)) + 16 * wrap 4 (m.skew t (2 * k + 1))))
    ++ (List.range 32).flatMap (fun r => rowBytes (x.vreg (BitVec.ofNat 5 r)))
    ++ (List.range 64).flatMap (fun r => rowBytes (x.accRow (BitVec.ofNat 6 r))) ++ m.regImage x

/-- The bytes of a capture image. -/
def captureLen : Nat := 543744

/-! ### Sections (R449) -/

/-- The log's records, oldest first; `redact` withholds ADDR and INFO as R436 does. -/
def Mach.logSection (m : Mach) (redact : Bool) : List Byte :=
  (List.range m.logHeld).flatMap fun k =>
    match m.flt.log.lookup (((m.reg rFltLogCi).toNat + k) % 4096) with
    | none => zeros 32
    | some (e, idx) =>
      let hide := redact && isRedacted e.block e.bit
      ((if hide then { e with addr := 0, info := 0, redacted := true } else e) : Event).bytes idx

/-- Every register with its value, in ascending order, but for the event log. -/
def Mach.regsSection (m : Mach) : List Byte :=
  ((List.range (rFltEventLog 0 0 / 4)).map fun k => 4 * k).flatMap fun a =>
    if (regRow a).isSome then leBytes 4 a ++ leBytes 4 (m.readReg a).toNat else []

/-- The tile that the cause of a dump names. -/
def causeTile (c : Option Event) : Option Nat := c.bind fun e => if e.block = 1 ∧ e.source < 576 then some e.source else none

/-- The tiles whose capture the dump holds if there is room. -/
def Mach.dumpTiles (m : Mach) (c : Option Event) : List Nat :=
  (List.range 576).filter fun t => (m.tile t).mode == .fault || causeTile c == some t

/-- The outstanding samples. -/
def Mach.outstandingSection (m : Mach) : List Byte :=
  m.prep.outstanding.flatMap fun x =>
    let handed := match x.bucket with
      | none => false
      | some b => !(m.bucket (8 * x.weave + b)).batches.any fun k => k.samples.contains x.idx
    leBytes 6 x.idx.toNat ++ leBytes 1 x.group ++ leBytes 1 (b2n (m.allClosed x) + 2 * b2n handed)

/-- A section: its TYPE, UNIT and content, which the TB1 of reading precedes. -/
structure DumpSec where
  type : Nat
  unit : Nat
  content : List Byte
deriving DecidableEq, Repr

/-- The bytes of a section. -/
def DumpSec.bytes (s : DumpSec) (t : Nat) : List Byte := leBytes 8 t ++ s.content

/-- A number rounded up to a 64-byte boundary. -/
def up64 (n : Nat) : Nat := (n + 63) / 64 * 64

/-- Sections one after the other on 64-byte boundaries from an offset: directory entries and content. -/
def layOut (t : Nat) : Nat → List DumpSec → List Byte × List Byte
  | _, [] => ([], [])
  | off, s :: rest =>
    let bs := s.bytes t
    let (dir, body) := layOut t (off + up64 bs.length) rest
    (leBytes 2 s.type ++ leBytes 2 s.unit ++ zeros 4 ++ leBytes 4 off ++ leBytes 4 bs.length ++ dir, padTo (up64 bs.length) bs ++ body)

/-- The body of a dump: the directory and the sections. -/
def dumpBody (t : Nat) (secs : List DumpSec) : List Byte :=
  let start := up64 (16 * secs.length)
  let (dir, body) := layOut t start secs
  padTo start dir ++ body

/-! ### The dump (R447, R448, R451) -/

/-- The log index of an event that the log holds. -/
def Mach.logIndexOf (m : Mach) (e : Event) : Nat := ((m.flt.log.find? fun p => p.2.1 == e).map (·.2.2)).getD 0

/-- Header bytes 0-111, the additional data of an encrypted body. -/
def Mach.dumpHeader (m : Mach) (d : Dump) (flags nsect len : Nat) : List Byte :=
  let cause := match d.cause with
    | none => zeros 32
    | some e => e.bytes (m.logIndexOf e)
  let id := match m.sec.sdev with
    | some sd => devId sd
    | none => zeros 32
  ascii "LD9A" ++ [1#8] ++ leBytes 1 flags ++ leBytes 2 nsect ++ leBytes 4 len ++ zeros 4 ++ leBytes 8 d.tb0 ++ leBytes 8 d.t0
    ++ leBytes 8 m.tb1 ++ id ++ leBytes 4 m.sec.svn.toNat ++ leBytes 2 (m.sec.resident.getD 0xFFFF) ++ zeros 2 ++ cause

/-- A dump is complete: it is held, VALID is set with the flags of its header, and DEV DUMP is logged. -/
def Mach.holdDump (m : Mach) (d : Dump) (flags : Nat) (bytes : List Byte) : Mach :=
  let m : Mach := { m with flt := { m.flt with dump := some { d with flags := flags, bytes := bytes }, dumping := none } }
  let m := (((m.putBit rFltDumpStat 31 true).putBit rFltDumpStat 30 false).setFld rFltDumpStat 29 27
    (4 * b2n (flags.testBit 0) + 2 * b2n (flags.testBit 1) + b2n (flags.testBit 2))).setReg rFltDumpLen (BitVec.ofNat 32 bytes.length)
  m.dev 0xA 0xFFFF { info := flags }

/-- The sections of a dump in the order of R449, and whether tiles were left out: those beyond 16, and, outside confidential mode, every tile
of a module whose fabric an adaptation run held, since it may hold head data (R271). -/
def Mach.dumpSections (m : Mach) (d : Dump) : List DumpSec × Bool :=
  let all := m.dumpTiles d.cause
  let ts := if d.inRun && !m.sec.conf then [] else all.take 16
  ([⟨1, 0, m.logSection false⟩, ⟨2, 0, m.regsSection⟩] ++ ts.map (fun t => ⟨3, t, m.capture t⟩) ++ [⟨4, 0, m.outstandingSection⟩],
   decide (ts.length < all.length))

/-- DUMP_COMPLETE: the sections, all read at this instant, DESIGN CHOICE (log 49), under the dump key in confidential mode, or the log
alone without one. -/
def dumpComplete (m : Mach) : Mach :=
  match m.flt.dumping with
  | none => m
  | some d =>
    let clear := fun (flags : Nat) (secs : List DumpSec) =>
      let body := dumpBody m.tb1 secs
      let head := m.dumpHeader d flags secs.length (256 + body.length)
      m.holdDump d flags (padTo 256 (head ++ zeros 28 ++ leBytes 8 (crc64 body).toNat) ++ body)
    let (secs, trunc) := m.dumpSections d
    if !m.sec.conf then clear (d.flags + 4 * b2n trunc) secs
    else match m.kos with
      | none => clear (d.flags + 2) [⟨1, 0, m.logSection true⟩]
      | some k =>
        let body := dumpBody m.tb1 secs
        let flags := d.flags + 1 + 4 * b2n trunc
        let head := m.dumpHeader d flags secs.length (256 + body.length)
        let (iv, m1) := m.draw
        let key : BitVec 256 := BitVec.ofNat 256 (leNat (hkdf (zeros 32) (bytes32 k) (ascii "L9 DMP") 32))
        let ivb := leBytes 12 iv.toNat
        let (enc, tag) := gcmSeal key ivb head body
        m1.holdDump d flags (padTo 256 (head ++ ivb ++ tag) ++ enc)

def execDumpComplete (s : State) : Host.Outcome State Fault Refusal := done s (dumpComplete s.m)

end Sys2Proof.Machine
end

