-- ==== Sys2Proof/Machine/HostRead.lean ====
section
/-! DEFINITION. What a read by the host returns through each BAR, and what it leaves behind (R14, R15, R373, R374, R376, R377, R381-R384,
R395). -/
namespace Sys2Proof.Machine

/-- A 32-bit read of BAR0. The lower register of a pair copies the upper half into the shadow, which the next read of the higher register
returns (R15). -/
def Mach.bar0Read (m : Mach) (a : Nat) : W32 × Mach :=
  if (regRow a).any (·.pair) then (m.readReg a, { m with hif := { m.hif with shadow := m.readReg (a + 4), shadowAt := some (a + 4) } })
  else if m.hif.shadowAt = some a then (m.hif.shadow, { m with hif := { m.hif with shadowAt := none } })
  else (m.readReg a, m)

/-- What a doorbell reads as: the index that the device owns (R381). -/
def Mach.doorbell (m : Mach) (q : Nat) : W32 := if isH2D (m.qType q) then (m.queue q).ci else (m.queue q).pi

/-- Word k of the pending-bit array (R384). -/
def Mach.pbaWord (m : Mach) (k : Nat) : W32 :=
  packFields ((List.range 32).map fun i => (i, b2n (FMap.get (fun _ => false) m.hif.pba (32 * k + i))))

/-- A word of BAR4 below the record areas: doorbells, the MSI-X table and the pending-bit array; other words are reserved (R374, R381,
R384). -/
def Mach.bar4Word (m : Mach) (o : Nat) : W32 :=
  if o < 0x10000 then (if o % 8 = 0 then m.doorbell (o / 8) else 0)
  else if o < 0x18000 then FMap.get msixReset m.hif.msix ((o - 0x10000) / 4)
  else if o < 0x18100 then m.pbaWord ((o - 0x18000) / 4)
  else 0

/-- A byte of a queue's record area: of the slot's entry, or 0 where the slot holds none (R383, R395). -/
def Mach.areaByte (m : Mach) (q o : Nat) : Byte :=
  let n := entrySize (m.qType q)
  let i := o - (m.areaOf q (m.qType q)).1
  (FMap.get (fun _ => []) (m.queue q).ents (i / n)).getD (i % n) 0

/-- The bytes that a read of the record areas returns (R383, R395). -/
def Mach.recordRead (m : Mach) (o size : Nat) : List Byte :=
  match m.areaAt o with
  | none => zeros size
  | some q => (List.range size).map fun i => m.areaByte q (o + i)

/-- What a read of a BAR returns, and the module after it. A closed context window reads as all ones whatever the width, and so does an access
that the BAR does not allow, which is reported (R14, R374, R376). An endpoint that answers no memory request returns nothing. -/
def hostRead (b : Bar) (off size : Nat) (m : Mach) : List Byte × Mach :=
  if !m.hostUp || decide (barSize b < off + size) then ([], m)
  else if m.closedTo b off then (List.replicate size 0xFF, m)
  else if !barAllows b off size false then (List.replicate size 0xFF, m.badAccess b off size false)
  else match b with
    | .bar0 => (leBytes 4 (m.bar0Read off).1.toNat, (m.bar0Read off).2)
    | .bar2 => (m.stgRead (m.stgBase + off) size, if m.stgWhole (m.stgBase + off) size then m else m.accessError 1 1 off size false)
    | .bar4 => (if off < 0x00100000 then leBytes 4 (m.bar4Word off).toNat else m.recordRead off size, m)

/-- The data of a read as it is answered to the host. -/
def Mach.answerRead (m : Mach) (b : Bar) (off size : Nat) : Mach :=
  let r := hostRead b off size m
  if m.hostUp then { r.2 with hif := { r.2.hif with rd := r.1 } } else m

/-- BAD_WIDTH_ACCESS: WIDTH is set, the first is logged, a read returns all ones and a write is discarded (R14, R374). -/
def badWidth (bar : Bar) (off : W32) (size : Nat) (write : Bool) (m : Mach) : Mach :=
  if !m.hostUp || barAllows bar off.toNat size write || decide (barSize bar < off.toNat + size) then m
  else if write then m.badAccess bar off.toNat size true
  else m.answerRead bar off.toNat size

def execBadWidthAccess (bar : Bar) (off : W32) (size : Nat) (write : Bool) (s : State) : Host.Outcome State Fault Refusal :=
  done s (badWidth bar off size write s.m)

/-- STAGING_ACCESS (R377). -/
def stagingAccess (write : Bool) (off : BitVec 30) (size : Nat) (data : List Byte) (m : Mach) : Mach :=
  if !m.hostUp || !barAllows .bar2 off.toNat size write || decide (barSize .bar2 < off.toNat + size) then m
  else if write then m.stagingWrite off.toNat size data
  else m.answerRead .bar2 off.toNat size

def execStagingAccess (write : Bool) (off : BitVec 30) (size : Nat) (data : List Byte) (s : State) :
    Host.Outcome State Fault Refusal :=
  done s (stagingAccess write off size data s.m)

/-- LOW_HALF_READ: a read of the lower register of a 64-bit pair (R15). -/
def lowHalfRead (a : Nat) (m : Mach) : Mach := if (regRow a).any (·.pair) then m.answerRead .bar0 a 4 else m

def execLowHalfRead (addr : BitVec 26) (s : State) : Host.Outcome State Fault Refusal := done s (lowHalfRead addr.toNat s.m)

end Sys2Proof.Machine
end

