-- ==== Sys2Proof/Machine/RegWrite.lean ====
section
/-! DEFINITION. Host writes of the registers that have no row of their own (R10, R14, R16, R17), with what the register tables say of
the values they take and of the times at which they may be written. A write that is another row's command has its effect there and
none here, DESIGN CHOICE (log 51). -/
namespace Sys2Proof.Machine

/-- A write whose field takes a smallest value: smaller ones set it. -/
def Mach.writeLeast (m : Mach) (a : Nat) (v : W32) (hi lo least : Nat) : Mach :=
  let n := m.writeReg a v
  if n.rbits a hi lo < least then n.setFld a hi lo least else n

/-- A write of a first-event log's status: VALID cleared sets COUNT to 0. -/
def Mach.clearFirst (m : Mach) (a : Nat) (v : W32) : Mach :=
  let n := m.writeReg a v
  if bitAt v 31 && !n.bit a 31 then n.setFld a 15 0 0 else n

/-- A write that may change a register only while it is not locked; a write that changes nothing is not refused (R231). -/
def Mach.writeLocked (m n : Mach) (a : Nat) (locked : Bool) (refuse : Mach → Mach) : Mach :=
  if locked && n.reg a != m.reg a then refuse m else n

/-- GLB: GLB_WV_CTL with GO is a weave command, one with a reserved OP ends with RANGE (R481). -/
def Mach.writeGlb (m : Mach) (a : Nat) (v : W32) : Mach :=
  if a = rGlbWvCtl ∧ bitAt v 31 then wvReserved v m else m.writeReg a v

/-- MEM. -/
def Mach.writeMem (m : Mach) (a : Nat) (v : W32) : Mach :=
  if a = rMemLease then m.writeLeast a v 15 0 1
  else if a = rMemWdropStat then m.clearFirst a v
  else m.writeReg a v

/-- The registers of port p at offset o of its block (R231). -/
def Mach.writePort (m : Mach) (p o a : Nat) (v : W32) : Mach :=
  let lock := fun (n : Mach) => m.writeLocked n a (m.portEn p) fun m => m.raisePort p 15
  match o with
  | 0x00 => m
  | 0x04 => lock (m.writeReg a v)
  | 0x08 => lock (m.writeLeast a v 15 0 1)
  | 0x0C => lock (m.writeReg a v)
  | 0x10 =>
    let n := m.writeReg a v
    if m.portEn p then n else n.putBit a 2 (n.bit a 1)
  | 0x1C => lock (m.writeReg a v)
  | _ => m.writeReg a v

/-- The intake blocks: the rings may move only while every port of the block is disabled (R222, R231). -/
def Mach.writeInt (m : Mach) (a : Nat) (v : W32) : Mach :=
  let d := (a - 0x1800000) / 0x100000
  let o := (a - 0x1800000) % 0x100000
  if 0xF0100 ≤ o ∧ o < 0xF0180 then
    match o % 0x20 with
    | 0x10 => if 0xF0160 ≤ o then m else m.writeReg a (v &&& 0xFFFFFFC0)
    | _ => m.writeLocked (m.writeReg a v) a ((List.range 6).any fun q => m.portEn (6 * d + q)) fun m => m.raiseInt d 4
  else if 0xF1000 ≤ o then m.writePort (6 * d + (o - 0xF1000) / 0x100) (o % 0x100) a v
  else m.writeReg a v

/-- PREP: a low-water mark above 16 sets 16; an undefined bucket takes no write (R10). -/
def Mach.writePrep (m : Mach) (a : Nat) (v : W32) : Mach :=
  let b := (a - rPrepBktCfg 0) / 0x10
  if rPrepBktCfg 0 ≤ a ∧ a % 0x10 = 4 then
    if (m.prep.recipe.bind fun r => r.buckets.lookup b).isSome then m.writeReg a (BitVec.ofNat 32 (min 16 (bits v 4 0))) else m
  else m.writeReg a v

/-- The registers of an encoder: the gains of a base that a recipe names are locked (R310). -/
def Mach.writeEnc (m : Mach) (e o a : Nat) (v : W32) : Mach :=
  if o = 0x00 ∨ o = 0x30 then m
  else if o = 0x28 ∨ o = 0x2C then (if m.namesBase (encBase e) then m.raiseEnc e 6 else m.writeReg a v)
  else m.writeReg a v

/-- The registers of a part-trigger generator: one that a sample group uses is locked (R310). -/
def Mach.writePt (m : Mach) (t o a : Nat) (v : W32) : Mach :=
  match o with
  | 0x04 => if m.ptUsed t then m.raisePos 8 else m.writeReg a v
  | 0x10 => if m.ptUsed t then m.raisePos 8 else (m.writeReg a v).ptRestart t
  | _ => m

/-- POS. -/
def Mach.writePos (m : Mach) (a : Nat) (v : W32) : Mach :=
  if a = rSptCfg then m.writeLeast a v 15 0 1
  else if rEncCfg 0 ≤ a ∧ a < rEncCfg 2 then m.writeEnc ((a - rEncCfg 0) / 0x80) (a % 0x80) a v
  else if rPtCfg 0 ≤ a ∧ a < rPtCfg 4 then m.writePt ((a - rPtCfg 0) / 0x20) (a % 0x20) a v
  else if a = rPtpCfg then m
  else m.writeReg a v

/-- FLD. -/
def Mach.writeFld (m : Mach) (a : Nat) (v : W32) : Mach :=
  if a = rFldOutHost ∨ a = rFldOc ∨ a = rFldSafe ∨ a = rFldTimeout ∨ a = rFldWben ∨ rFldDeb 0 ≤ a then m
  else if a = rFldRbt then m.writeLeast a v 15 0 1
  else m.writeReg a v

/-- LNK_RING_CFG: MOD_ID is written only while EN is 0; EN 1 to 0 ends the module's part in the ring (R359-R361). -/
def Mach.writeRingCfg (m : Mach) (v : W32) : Mach :=
  let was := m.ringOn
  let v := if m.variant.io1 then v else setBits v 9 9 0
  let n := m.writeReg rLnkRingCfg (if was then setBits v 4 0 m.modId else v)
  let n := if was && !n.ringOn then
      ({ n with ring := { n.ring with members := [], cands := [], dist := [], held := false } } : Mach).putBit rLnkRingStat 29 false
    else n
  n.ringView

/-- CLASS and ADAPT_EN of a camera lane: written only while no enabled port uses the lane; a reserved CLASS sets AUTO. -/
def Mach.writeCl (m : Mach) (j a : Nat) (v : W32) : Mach :=
  if m.variant.absentReg a then m
  else match m.linkOfLane j with
    | some k => m.raisePort k 15
    | none =>
      let n := m.writeReg a v
      let c := n.rbits a 2 0
      if 4 ≤ c then n.setFld a 2 0 7 else n

/-- LNK. -/
def Mach.writeLnk (m : Mach) (a : Nat) (v : W32) : Mach :=
  if a = rLnkRingCfg then m.writeRingCfg v
  else if a = rLnkWrap then m.writeLeast a v 31 16 1
  else if a = rLnkToken then m.writeLeast a v 15 0 20
  else if a = rLnkDropStat then m.clearFirst a v
  else if a = rLnkWeir then m
  else if rRpCtl 0 ≤ a ∧ a < rRpCtl 4 ∧ a % 0x40 = 0 then m
  else if rClCtl 0 ≤ a ∧ a % 0x10 = 0 then m.writeCl ((a - rClCtl 0) / 0x10) a v
  else m.writeReg a v

/-- The queue contexts: Q_LINK, Q_BASE and Q_SIZE only while EN is 0 (R398). -/
def Mach.writeQueue (m : Mach) (q o a : Nat) (v : W32) : Mach :=
  let free := fun (n : Mach) => if m.qEn q then m.badCfg q else n
  match o with
  | 0x00 => m
  | 0x04 => free (m.writeReg a v)
  | 0x08 => free (m.writeReg a (v &&& 0xFFFFFFC0))
  | 0x0C => free (m.writeReg a (if isD2H (m.qType q) then 0 else v))
  | 0x10 => free (m.writeReg a (if bits v 4 0 < 2 ∨ 16 < bits v 4 0 then 2 else v))
  | _ => m.writeReg a v

/-- HIF. -/
def Mach.writeHif (m : Mach) (a : Nat) (v : W32) : Mach :=
  if rQCfg 0 ≤ a then m.writeQueue ((a - rQCfg 0) / 0x20) (a % 0x20) a v else m.writeReg a v

/-- SEC: SEC_ERR.INC_SWITCH cleared clears SEC_STAT.INC_SWITCH; a mailbox command with a reserved OP ends with RANGE (R426). -/
def Mach.writeSec (m : Mach) (a : Nat) (v : W32) : Mach :=
  if a = rSecErr then
    let n := m.writeReg a v
    if bitAt v 0 && !n.bit rSecErr 0 then n.putBit rSecStat 5 false else n
  else if a = rSecCfg then m
  else if a = rSecMbxCtl ∧ bitAt v 31 then
    let op := bits v 7 0
    if op = 0 ∨ 0xD < op then m.mbx (.host v) op false [] m.rotUp fun h _ m => m.mbxResult h .range [] else m
  else m.writeReg a v

/-- FLT. -/
def Mach.writeFlt (m : Mach) (a : Nat) (v : W32) : Mach :=
  if a = rFltLogCi then (if (m.reg rFltLogPi - v).toNat ≤ 4096 then m.writeReg a v else m)
  else if a = rFltDumpStat then m.writeReg a (setBits v 31 31 0)
  else if a = rFltTrBaseLo ∨ a = rFltTrBaseHi ∨ a = rFltTrSize then (if m.rbits rFltTsel 31 30 = 0 then m.writeReg a v else m)
  else if a = rFltTsel then m.writeLeast a v 15 0 1
  else if a = rFltRplCtl then (if m.hif.lot.isOpen then m else m.writeReg a v)
  else if a = rFltBcapCtl then (if m.sec.conf ∨ bitAt v 31 then m else m.writeReg a v)
  else if rRspMatch 0 ≤ a ∧ a < rRspMatch 32 ∧ a % 0x10 = 4 then m.writeReg a (if 8 ≤ bits v 27 24 then setBits v 27 24 0 else v)
  else m.writeReg a v

/-- A write of a BAR0 register by its access code and the rules of its table; a register of an absent unit takes none (R10). -/
def Mach.writeBar0 (m : Mach) (a : Nat) (v : W32) : Mach :=
  if m.variant.absentReg a then m
  else if a < 0x10000 then m.writeGlb a v
  else if a < 0x1000000 then m.writeReg a v
  else if a < 0x1800000 then m.writeMem a v
  else if a < 0x1A00000 then m.writeInt a v
  else if a < 0x1B00000 then m.writePrep a v
  else if a < 0x1C00000 then m.writePos a v
  else if a < 0x1D00000 then m.writeFld a v
  else if a < 0x1E00000 then m.writeLnk a v
  else if a < 0x1F00000 then m.writeHif a v
  else if a < 0x2000000 then m.writeSec a v
  else m.writeFlt a v

/-- A write of the MSI-X table: address bits 1:0 and the reserved bits of the vector control read 0; a vector that is unmasked with its
pending bit set is signalled (R384). PRESUMED (log 2): the MSI-X capability. -/
def Mach.writeMsix (m : Mach) (k : Nat) (v : W32) : Mach :=
  let w := if k % 4 = 0 then v &&& 0xFFFFFFFC else if k % 4 = 3 then v &&& 1 else v
  let n : Mach := { m with hif := { m.hif with msix := FMap.put msixReset m.hif.msix k w } }
  if k % 4 = 3 ∧ !bitAt v 0 ∧ FMap.get (fun _ => false) n.hif.pba (k / 4) then
    { n with hif := { n.hif with pba := FMap.put (fun _ => false) n.hif.pba (k / 4) false } }.signal (k / 4)
  else n

/-- REGISTER_WRITE: a 32-bit write of BAR0, or of the MSI-X table in BAR4 (R14, R17, R373). -/
def registerWrite (bar : Bar) (a : Nat) (v : W32) (m : Mach) : Mach :=
  if a % 4 ≠ 0 then m
  else match bar with
    | .bar0 => if m.hostWrites a && (regRow a).isSome then m.writeBar0 a v else m
    | .bar2 => m
    | .bar4 => if m.hostUp && decide (0x10000 ≤ a) && decide (a < 0x18000) then m.writeMsix ((a - 0x10000) / 4) v else m

def execRegisterWrite (bar : Bar) (addr : BitVec 26) (v : W32) (s : State) : Host.Outcome State Fault Refusal :=
  done s (registerWrite bar addr.toNat v s.m)

end Sys2Proof.Machine
end

