-- ==== Sys2Proof/Machine/Switch.lean ====
section
/-! DEFINITION. Context switches, the scrub and the import of weight packages (R408-R411, R415-R422). -/
namespace Sys2Proof.Machine

/-! ### Weight packages (R410, R411) -/

/-- A segment of a package: its entry, where it goes, and its ciphertext and tag. -/
structure Segment where
  entry : List Byte
  persistent : Bool
  stack : Nat
  len : Nat
  first : Nat
  iv : List Byte
  body : List Byte
  tag : List Byte
deriving DecidableEq, Repr

/-- Entry i of a package and the ciphertext that starts at an offset. -/
def segmentAt (pkg : List Byte) (i off : Nat) : Segment :=
  let e := slice pkg (128 + 32 * i) 32
  let n := 64 * fieldAt e 4 4
  { entry := e, persistent := fieldAt e 0 1 != 0, stack := fieldAt e 1 1, len := fieldAt e 4 4, first := fieldAt e 8 8, iv := slice e 16 12,
    body := slice pkg off n, tag := slice pkg (off + n) 16 }

/-- The segments from entry i on. -/
def segmentsFrom (pkg : List Byte) (i off : Nat) : Nat → List Segment
  | 0 => []
  | n + 1 =>
    let s := segmentAt pkg i off
    s :: segmentsFrom pkg (i + 1) (off + 64 * s.len + 16) n

/-- The segments of a package. -/
def segmentsOf (pkg : List Byte) : List Segment := segmentsFrom pkg 0 (128 + 32 * fieldAt pkg 6 2) (fieldAt pkg 6 2)

/-- The header and the entries are those of R411. -/
def packageOk (pkg : List Byte) : Bool :=
  let n := fieldAt pkg 6 2
  let segs := segmentsOf pkg
  slice pkg 0 6 == ascii "LP9A" ++ [1#8, 0#8] && decide (1 ≤ n) && decide (n ≤ 256) && fieldAt pkg 56 8 == pkg.length
    && (slice pkg 64 64).all (· == 0)
    && pkg.length == 128 + 32 * n + (segs.map fun s => 64 * s.len + 16).foldl (· + ·) 0
    && segs.all fun s => decide (fieldAt s.entry 0 1 ≤ 1) && decide (1 ≤ s.len) && decide (s.len ≤ 2 ^ 22)
      && (slice s.entry 2 2 ++ slice s.entry 28 4).all (· == 0) && (!s.persistent || s.stack == 0)

/-- The import engine as a writer of a stack window: that of IO0, or of IO1 where only that one is listed. -/
def importWriter (w : Window) : Option (BitVec 16) :=
  if w.writers.contains 0xC005 then some 0xC005 else if w.writers.contains 0xC006 then some 0xC006 else none

/-- The writer that a window of a stack admits for a whole segment. -/
def Mach.segmentWriter (m : Mach) (s : Segment) : Option (BitVec 16) :=
  m.windows.findSome? fun p =>
    let w := p.2
    if w.used && w.kind && w.stack == s.stack && decide (w.base ≤ s.first) && decide (s.first + s.len ≤ w.limit + 1) then importWriter w
    else none

/-- Every segment lies in a stack window that admits the import engine, or in the persistent region (R410). -/
def Mach.segmentOk (m : Mach) (x : Ctx) (s : Segment) : Bool :=
  if s.persistent then decide (64 * (s.first + s.len) ≤ x.psize) else (m.segmentWriter s).isSome

/-- One granule of a segment into a stack, checked like any remote write (R115). -/
def Mach.importGranule (m : Mach) (w : BitVec 16) (st g : Nat) (v : Slot) : Mach :=
  match m.windowCheck w (.gran st g) none with
  | none => m.setGran st g v
  | some d => m.dropWrite
      { writer := w, target := .gran st g, data := some v, ovr := false, gen := none, issue := m.cyc, due := m.cyc, blocked := false,
        owner := .import } d

/-- The plaintext of a segment to its place. -/
def Mach.writeSegment (m : Mach) (x : Ctx) (s : Segment) (plain : List Byte) : Mach :=
  if s.persistent then m.setDdrBytes (x.pbase + 64 * s.first) plain
  else match m.segmentWriter s with
    | none => m
    | some w => (List.range s.len).foldl (fun (m : Mach) k => m.importGranule w s.stack (s.first + k) (bytesSlot (slice plain (64 * k) 64))) m

/-- A segment's place is zero again. -/
def Mach.zeroSegment (m : Mach) (x : Ctx) (s : Segment) : Mach :=
  if s.persistent then m.setDdrBytes (x.pbase + 64 * s.first) (zeros (64 * s.len))
  else m.setStack (zeroCells m.mem.stack (granAddr s.stack s.first) (granAddr s.stack (s.first + s.len)))

/-- Segments are opened and written in order; at the first whose tag fails, those written are zeroed and the answer is false. -/
def Mach.importSegments (m : Mach) (x : Ctx) (key : BitVec 256) (hdr : List Byte) (past : List Segment) : List Segment → Mach × Bool
  | [] => (m, true)
  | s :: rest =>
    match gcmOpen key s.iv (hdr ++ s.entry) s.body s.tag with
    | none => (past.foldl (fun (m : Mach) s => m.zeroSegment x s) m, false)
    | some plain => (m.writeSegment x s plain).importSegments x key hdr (past ++ [s]) rest

/-- The import of the package at a place of the host region (R410): the last three checks of the table, then its segments. A malformed
package counts as a failed range (DESIGN CHOICE, log 46). -/
def Mach.importPackage (m : Mach) (x : Ctx) (key : BitVec 256) (digest : BitVec 256) (off len : Nat) : Mach × MbxSt :=
  let pkg := m.hostBytes off len
  if !m.inHost off len then (m, .range)
  else
  let m := m.readHost off len
  if slice pkg 24 32 ≠ bytes32 digest then (m, .bind)
  else if !packageOk pkg || !(segmentsOf pkg).all (m.segmentOk x) then (m, .range)
  else
    let (m, ok) := m.importSegments x key (pkg.take 128) [] (segmentsOf pkg)
    (m, if ok then .ok else .sig)

/-! ### How a weave of a context starts (R417, R483) -/

/-- The context whose kept package is imported after a load: the resident one, while it holds K_W (R411, R417). -/
def Mach.importsFor (m : Mach) : Option Nat :=
  m.sec.resident.bind fun c => (m.ctx c).bind fun x => if x.kw.isSome && x.pkg.isSome then some c else none

/-- A weave of no context starts when it is loaded. One of a context waits for its weights (log 47). -/
def Mach.startsNow (m : Mach) : Bool := m.sec.resident.isNone

/-- After a load, the kept package is imported where there is one. -/
def Mach.afterLoad (m : Mach) : Mach :=
  match m.importsFor with
  | some c => { m with sec := { m.sec with importing := some c } }
  | none => m

/-! ### CTX_SWITCH (R417, R421, R422) -/

/-- Phase 1: records with FLUSH, the lot closed, the weave and recipe gone, the spout table flushed, FORCE_SAFE sent, acquisitions ended. -/
def Mach.switchStop (m : Mach) : Mach :=
  let m := m.flushAll .flush
  let lot := if m.hif.lot.isOpen then { m.hif.lot with isOpen := false, ending := none } else m.hif.lot
  let m : Mach := { m with hif := { m.hif with lot := lot }, adapt := { m.adapt with run := none, waitingClear := [] } }
  let m := { m.unloadAll with prep := Prep.empty }
  let m := m.flushSpouts.forceSafeFirst
  (List.range 12).foldl (fun (m : Mach) p =>
    let m := m.endAcquisition p
    m.setPort p { m.port p with lidx := 0 }) m

/-- CTX_SWITCH: phases 1 and 2 begin. -/
def mbxCtxSwitch (via : MbxVia) (m : Mach) : Mach :=
  m.mbx via 7 false [(0, 3)] m.rotUp fun h a m =>
    let c := fieldAt a 0 2
    let flags := fieldAt a 2 1
    if m.sec.switching.isSome || m.wv.cmd.isSome then m.mbxResult h .busy []
    else if 1 < flags then m.mbxResult h .range []
    else match m.ctx c with
      | none => m.mbxResult h .noctx []
      | some x =>
        if m.hif.lot.isOpen && flags = 0 then m.mbxResult h .lotOpen []
        else
          let was := m.sec.resident.getD 0x1F
          let sw : Switch := { target := c, outgoing := was, phase := 2, t0 := m.tb1, tScrub := 0, frames := 0, ue := false }
          let m : Mach := { m with flash := { m.flash with journal := some (c, was) } }
          let m := m.putBit rSecMbxStat 31 true
          let m := m.switchStop
          let m : Mach := { m with sec := { m.sec with switching := some sw, conf := false } }
          if x.conf && m.rbits rSecCfg 1 0 != 0 then (m.setFld rSecCfg 1 0 0).extendM3 else m

def execMbxCtxSwitch (via : MbxVia) (s : State) : Host.Outcome State Fault Refusal := done s (mbxCtxSwitch via s.m)

/-- An uncorrectable error stands in a memory that the scrub zeroes. -/
def Mem.holdsUe (x : Mem) : Bool := (x.eccSpad ++ x.eccStack ++ x.eccPmem).any fun e => e.2 == .ue

/-- Sluice engines after a reset of theirs: those that an enabled SLUICE queue names run for it, the others are free (R123). -/
def Mach.queueEngines (m : Mach) : List (Nat × Engine) :=
  m.engines.filterMap fun p => (m.engineQueue p.1).map fun q => (p.1, { Engine.free with mode := .queue, feeds := true, queue := q })

/-- Step 1 of R418: memories, tiles, latches, windows, engines and samplers as after reset. -/
def Mach.scrub (m : Mach) : Mach :=
  { m with
    mem := { m.mem with spad := [], stack := [], tags := [], skews := [], pmem := [], eccSpad := [], eccStack := [], eccPmem := [], crecUe := [] },
    tiles := [], fx := [], flights := [], inbox := [], chanQ := [], gldReplies := [], windows := [], winUpds := [], latches := [], waits := [],
    signals := [], revoked := [], notLive := [], engines := m.queueEngines, chanLast := [], stems := [], rois := [], prep := Prep.empty, flt := { m.flt with tallies := [] },
    ring := { m.ring with eng0 := RingEng.idle, eng1 := RingEng.idle, drops := [] } }

/-- Phase 6: the context is RESIDENT and the result is written (R426). -/
def Mach.switchEnd (m : Mach) (w : Switch) : Mach :=
  let m : Mach := { m with flash := { m.flash with journal := none }, sec := { m.sec with switching := none } }
  m.extendM3.mbxResult true .ok
    (leBytes 8 m.tb1 ++ leBytes 4 (w.tScrub / 1000) ++ leBytes 4 w.frames ++ leBytes 1 (b2n w.ue))

/-- Phase 3: K_T of the target is drawn, and confidential mode begins for a confidential one, which releases a freeze (R463); phase 4 loads its ACTIVE weave. -/
def Mach.switchKeys (m : Mach) (w : Switch) : Mach :=
  let (k, m) := m.draw
  let m := match m.ctx w.target with
    | some x =>
      let n := (m.setCtx w.target { x with kt := some k }).rekey x.tbase x.tsize k
      { n with sec := { n.sec with conf := x.conf }, flt := { n.flt with frozen := n.flt.frozen && !x.conf, stopHit := n.flt.stopHit && !x.conf } }
    | none => m
  let m : Mach := { m with sec := { m.sec with resident := some w.target, switching := some { w with phase := 4 } } }
  match m.banks.active with
  | some _ => m
  | none => (((m.zeroM 4).zeroM 5).zeroM 6).switchEnd { w with phase := 6 }

/-- SCRUB_DONE: the scrub ends, the outgoing transient region is zero under no key, and the keys follow (R418). -/
def scrubDone (m : Mach) : Mach :=
  match m.sec.switching with
  | none => m
  | some w =>
    if 2 < w.phase then m
    else
      let ue := m.mem.holdsUe
      let m := m.scrub
      let m := if ue then m.raiseSec 1 else m
      let m := match m.ctx w.outgoing with
        | some x => (m.setCtx w.outgoing { x with kt := none }).zeroDdr x.tbase x.tsize
        | none => m
      m.switchKeys { w with phase := 3, tScrub := m.tb1 - w.t0, ue := w.ue || ue }

def execScrubDone (s : State) : Host.Outcome State Fault Refusal := done s (scrubDone s.m)

/-- Phase 4 ends: the ACTIVE weave is loaded, or, when its bank fails its digest, none; phase 5 where a package is kept. -/
def Mach.switchLoaded (m : Mach) (w : Switch) : Mach :=
  match m.banks.active with
  | none => m.switchEnd w
  | some b =>
    if !b.sound then (((m.zeroM 4).zeroM 5).zeroM 6).switchEnd w
    else
      let m := (m.loadActive b none m.startsNow).afterLoad
      if m.sec.importing.isSome then { m with sec := { m.sec with switching := some { w with phase := 5 } } } else m.switchEnd w

/-- IMPORT_DONE: the kept package has been imported again (R411), and the weave that waited for it starts; a switch ends. A package
that fails a check sets AUTH, and the weave stays loaded. -/
def importDone (m : Mach) : Mach :=
  match m.sec.importing with
  | none => m
  | some c =>
    let m : Mach := { m with sec := { m.sec with importing := none } }
    let m := match m.ctx c with
      | none => m
      | some x => match x.kw, x.pkg with
        | some k, some p =>
          let (m, st) := m.importPackage x k (m.activeDigest (some c)) p.1 p.2
          if st = MbxSt.ok then (m.setCtx c { x with pkgSha := sha256 (m.hostBytes p.1 p.2) }).startLoaded else m.raiseSec 3
        | _, _ => m
    match m.sec.switching with
    | some w => if w.phase = 5 then m.switchEnd w else m
    | none => m

def execImportDone (s : State) : Host.Outcome State Fault Refusal := done s (importDone s.m)

/-! ### KEY_IMPORT (R408-R411) -/

/-- A failed check of KEY_IMPORT. -/
def Mach.importFails (m : Mach) (h : Bool) (st : MbxSt) : Mach := (m.raiseSec 3).mbxResult h st []

/-- KEY_IMPORT: the checks of R410 in order, then the weights, the keys and the start of the weave. -/
def mbxKeyImport (via : MbxVia) (m : Mach) : Mach :=
  m.mbx via 8 false [(0, 2), (8, 24)] m.rotUp fun h a m =>
    let c := fieldAt a 0 2
    let bOff := fieldAt a 8 8
    let pOff := fieldAt a 16 8
    let pLen := fieldAt a 24 8
    if m.sec.switching.isSome then m.mbxResult h .busy []
    else if m.sec.sdev.isNone then m.mbxResult h .noid []
    else if !m.inHost bOff 272 || !m.inHost pOff pLen then m.mbxResult h .range []
    else match m.ctx c with
      | none => m.mbxResult h .noctx []
      | some x =>
        if m.sec.resident ≠ some c then m.mbxResult h .state []
        else
          let m := m.readHost bOff 272
          let blob := m.hostBytes bOff 272
          let pkg := m.hostBytes pOff pLen
          if !blobOk blob 1 x.osig || fieldAt blob 200 2 ≠ c || fieldAt blob 196 4 ≠ 0 then m.importFails h .sig
          else match m.pairOf c 3 (slice blob 8 32) with
            | none => (m.raiseSec 4).importFails h .expired
            | some e =>
              let m := m.dropPair c 3
              match openBlob blob e.priv with
              | none => m.importFails h .sig
              | some key =>
                let digest := m.activeDigest (some c)
                let kw : BitVec 256 := BitVec.ofNat 256 (leNat key)
                if slice blob 40 32 ≠ bytes32 digest then m.importFails h .bind
                else
                  let (m, st) := m.importPackage x kw digest pOff pLen
                  if st ≠ MbxSt.ok then m.importFails h st
                  else
                    let z := secretBytes ((ecdh e.priv (pkOf (slice blob 72 64))).getD 0)
                    let kos := hkdf (slice blob 8 32) z (ascii "L9 OS" ++ leBytes 2 c ++ slice blob 40 32) 32
                    let m := m.setCtx c { x with kw := some kw, kos := some (BitVec.ofNat 256 (leNat kos)), pkg := some (pOff, pLen), pkgSha := sha256 pkg }
                    let m : Mach := { m with sec := { m.sec with importing := none } }
                    m.startLoaded.mbxResult h .ok (sha256 pkg)

def execMbxKeyImport (via : MbxVia) (s : State) : Host.Outcome State Fault Refusal := done s (mbxKeyImport via s.m)

end Sys2Proof.Machine
end

