-- ==== Sys2Proof/Machine/Replay.lean ====
section
/-! DEFINITION. Replay: restart, injection, capture, freeze and thaw, batch capture (R460-R463). -/
namespace Sys2Proof.Machine

/-- FLT_RPL_STAT.RESULT. -/
def Mach.rplResult (m : Mach) (r : Nat) : Mach := m.setFld rFltRplStat 2 0 r

/-- A command or a switch runs (R461): a weave command, a context switch, or an earlier replay command. -/
def Mach.rplBusy (m : Mach) : Bool := m.wv.cmd.isSome || m.sec.switching.isSome || m.bit rFltRplStat 31

/-- The common part of the replay commands: ignored in confidential mode (R463), REFUSED outside replay mode, STATE while a command or
a switch runs. -/
def Mach.rpl (m : Mach) (k : Mach → Mach) : Mach :=
  if !m.hostUp || m.sec.conf then m
  else if !m.bit rFltRplCtl 0 then m.rplResult 1
  else if m.rplBusy then m.rplResult 4
  else k (m.rplResult 0)

/-- RPL_RESTART: the running weave starts again from its loader state, without a scrub (R461). With no weave running there is nothing to
restart: STATE, DESIGN CHOICE (log 50). -/
def rplRestart (m : Mach) : Mach :=
  m.rpl fun m =>
    match m.wv.running.head? with
    | none => m.rplResult 4
    | some r =>
      let w := weaveOfImage r.img
      let head := m.adapt.sec.map m.activeVersion
      let m := ((m.flushAll .flush).unloadWeave r).loadWeave { img := r.img, key := none, digest := r.digest, head := none } r.recipe none true
      let m : Mach := { m with prep := { m.prep with serial := m.wv.serial - 1 } }
      let m := match head with
        | some h => m.writeHead h
        | none => m
      match r.recipe with
      | some x => m.writeParams w x
      | none => m

def execRplRestart (s : State) : Host.Outcome State Fault Refusal := done s (rplRestart s.m)

/-- The bucket that a batch image names, when its header fits the weave's buckets (R460). -/
def Mach.imageBucket (m : Mach) (off : Nat) : Option (RunWeave × Nat × BucketCfg) :=
  let h := m.hostBytes off 64
  let b := fieldAt h 4 1
  match m.wv.running.head? with
  | none => none
  | some w => match w.recipe with
    | none => none
    | some r => match r.buckets.lookup b with
      | none => none
      | some c =>
        if h == imageHeader b w.hdr.nb (imageLen w.hdr.nb (m.placeGrans r b c)) then some (w, b, c) else none

/-- RPL_INJECT: the image's batch opens and asks for its place; it is handed over as soon as the place is claimed (R461). -/
def rplInject (m : Mach) : Mach :=
  m.rpl fun m =>
    let off := (m.reg64 rFltRplAddrLo).toNat
    if !m.inHost off 64 then m.rplResult 2
    else
    let m := m.readHost off 64
    match m.imageBucket off with
      | none => m.rplResult 3
      | some (w, b, c) =>
        let r := fieldAt (m.hostBytes off 64) 8 4
        if !m.inHost off r then m.rplResult 2
        else batchHandover b ((m.putBit rFltRplStat 31 true).openBatch (8 * w.serial + b) c (some off))

def execRplInject (s : State) : Host.Outcome State Fault Refusal := done s (rplInject s.m)

/-- RPL_CAPTURE: the capture image of FLT_RPL_TILE into the host region (R462). A tile number beyond 575 names no tile: RANGE. -/
def rplCapture (m : Mach) : Mach :=
  m.rpl fun m =>
    let off := (m.reg64 rFltRplAddrLo).toNat
    let t := m.rbits rFltRplTile 9 0
    if !m.inHost off captureLen || decide (576 ≤ t) then m.rplResult 2 else m.setHostBytes off (m.capture t)

def execRplCapture (s : State) : Host.Outcome State Fault Refusal := done s (rplCapture s.m)

/-- RPL_THAW: every tile is released (R462). -/
def rplThaw (m : Mach) : Mach := m.rpl fun m => { m with flt := { m.flt with frozen := false, stopHit := false } }

def execRplThaw (s : State) : Host.Outcome State Fault Refusal := done s (rplThaw s.m)

/-- FREEZE: the step counter of FLT_RPL_TILE has reached FLT_RPL_STOP in this cycle, which ends; from the next on no tile issues (R462). -/
def freezeAt (m : Mach) : Mach := if m.flt.stopHit then m.tick else m

def execFreeze (s : State) : Host.Outcome State Fault Refusal := done s (freezeAt s.m)

/-- BATCH_CAPTURE: a write of FLT_BCAP_CTL.START (R460); ignored in confidential mode (R463). -/
def batchCapture (v : W32) (m : Mach) : Mach :=
  if !m.hostUp || m.sec.conf || !bitAt v 31 then m
  else
    let m := (m.writeReg rFltBcapCtl v).setReg rFltBcapDone 0
    let n := bits v 15 0
    { m with flt := { m.flt with bcap := if n = 0 then none else some (bits v 26 24, n, (m.reg64 rFltBcapAddrLo).toNat) } }

def execBatchCapture (v : W32) (s : State) : Host.Outcome State Fault Refusal := done s (batchCapture v s.m)

end Sys2Proof.Machine
end

