-- ==== Sys2Proof/Machine/Swap.lean ====
section
/-! DEFINITION. The events that drains, loads and resumptions share between weave commands, adaptation runs and context switches
(R257-R260, R483, R487, R489). -/
namespace Sys2Proof.Machine

/-- The command with a change. -/
def Mach.setCmd (m : Mach) (c : WvCmd) : Mach := { m with wv := { m.wv with cmd := some c } }

/-- P_STOP: the position base reaches P_STOP; from there on intake does not accept (R258, R489). -/
def pStop (m : Mach) : Mach :=
  match m.adapt.run, m.wv.cmd with
  | some r, _ => if r.phase = .waitStop && m.reached r.pStop then m.setRun { r with phase := .draining } else m
  | none, some c =>
    if c.phase = .waitStop && m.reached c.p1 then (m.setCmd { c with phase := .draining }).putBit rGlbWvStat 29 false else m
  | none, none => m

def execPStop (s : State) : Host.Outcome State Fault Refusal := done s (pStop s.m)

/-- Every part accepted before a position has its record, and no marker before it waits. -/
def Mach.drained (m : Mach) (p : BitVec 32) : Bool :=
  m.prep.outstanding.isEmpty && !m.prep.markers.any fun k => decide (diff32 k.pos p < 0)

/-- DRAIN_END: the old weave stops; an adaptation section, the inference weave or the new weave is loaded next, and STOP is over. -/
def drainEnd (m : Mach) : Mach :=
  match m.adapt.run, m.wv.cmd with
  | some r, _ =>
    if r.phase = .draining && m.drained r.pStop then
      m.unloadAll.setRun { r with phase := if r.isRun then .loading else .reloading, serial := m.prep.serial }
    else m
  | none, some c =>
    if c.phase = .draining && m.drained c.p1 then
      if c.op = 5 then
        let m : Mach := { m.unloadAll.unloadRecipe.wvDrop with wv := { m.unloadAll.unloadRecipe.wvDrop.wv with drain := none } }
        m.wvEnd 5 c.res none {}
      else m.unloadAll.setCmd { c with phase := .loading, t0 := m.tb1 }
    else m
  | none, none => m

def execDrainEnd (s : State) : Host.Outcome State Fault Refusal := done s (drainEnd s.m)

/-! ### LOAD_COMPLETE (R483, R487, R489) -/

/-- A load with nothing running: ACTIVE, or the bank that ACTIVATE or ROLLBACK names, whose rotation commits as it starts (log 32). -/
def Mach.loadedAlone (m : Mach) (c : WvCmd) (b : BankImg) : Mach :=
  let m := if c.op = 2 then m else m.rotate c.op
  let r := if c.op = 2 then m.prep.recipe else c.recipe
  let m := (m.loadActive b r m.startsNow).afterLoad
  let start := (m.wv.running.getLast?.map fun v => v.start).getD 0
  let rep := r.map fun r => contractReport (weaveOfImage b.img).hdr (weaveOfImage b.img).budgets r
  m.wvDrop.wvEnd c.op c.res none
    { loadtime := loadMicros c.t0 start, digest := b.digest, report := if c.op = 2 then none else rep }

/-- The later weave of a side-by-side swap is in its tiles: the switch is P_SW, or, where the base has reached it, the first leading
marker from now on (R487 step 2). -/
def Mach.loadedBeside (m : Mach) (c : WvCmd) (b : BankImg) : Mach :=
  let late := m.reached c.p1
  let m := (m.loadWeave b c.recipe (if late then none else some c.p1) m.startsNow).afterLoad
  m.setCmd { c with phase := .loaded, late := late }

/-- The weave of a drain swap is loaded: acceptance resumes at P_RESUME, or here if that is later (R489). -/
def Mach.loadedInDrain (m : Mach) (c : WvCmd) (b : BankImg) (recipe : Option Recipe) : Mach :=
  let m := (m.loadWeave b recipe none m.startsNow).afterLoad
  let late := m.reached c.p2
  let resume := if late then m.pos32 m.lotBase else c.p2
  ({ m with wv := { m.wv with drain := some (c.p1, some resume) } } : Mach).setCmd { c with phase := .loaded, p2 := resume, late := late }

/-- The load of a weave command is over. A bank that fails its digest ends the command with FLASH; in a drain swap the weave that
ACTIVE holds is loaded again first, with the head of the version that was active (R266). -/
def Mach.cmdLoaded (m : Mach) (c : WvCmd) (b : BankImg) : Mach :=
  if c.phase = .reloading then
    match m.banks.active with
    | some k =>
      let m := m.loadedInDrain { c with new := none } { k with head := none } m.prep.recipe
      let m := match m.adapt.sec with
        | some a => m.writeHead (m.activeVersion a)
        | none => m
      { m with prep := { m.prep with serial := m.wv.serial - 1 } }
    | none => ({ m.wvDrop with wv := { m.wvDrop.wv with drain := none } } : Mach).wvEnd c.op c.res (refusal 0x13) { digest := b.digest }
  else if c.phase ≠ .loading then m
  else if !b.sound then
    if c.drain then m.setCmd { c with phase := .reloading }
    else m.wvDrop.wvEnd c.op c.res (refusal 0x13) { digest := b.digest }
  else if c.drain then m.loadedInDrain c b c.recipe
  else if m.wv.running.isEmpty then m.loadedAlone c b
  else m.loadedBeside c b

/-- LOAD_COMPLETE: the load under way finishes: that of a run, of a context switch or of a weave command. -/
def loadComplete (m : Mach) : Mach :=
  match m.adapt.run, m.adapt.sec with
  | some r, some a => if r.phase = .loading then m.sectionLoaded a r else if r.phase = .reloading then m.reloaded a r else m
  | _, _ =>
    match m.sec.switching with
    | some w => if w.phase = 4 then m.switchLoaded w else m
    | none => match m.wv.cmd with
      | none => m
      | some c => match c.new with
        | some b => m.cmdLoaded c b
        | none => m

def execLoadComplete (s : State) : Host.Outcome State Fault Refusal := done s (loadComplete s.m)

/-! ### P_RESUME (R258, R489) -/

/-- A drain swap resumes: the rotation commits and the new recipe comes into force, or the command ends with FLASH. -/
def Mach.cmdResumes (m : Mach) (c : WvCmd) : Mach :=
  let m := m.setReg rGlbSwapPos c.p2
  match m.wv.running.getLast?, c.new with
  | some v, some _ =>
    let m := m.rotate c.op
    let m := match v.recipe with
      | some r => m.loadRecipe (weaveOfImage v.img) v.serial r
      | none => { m with prep := { m.prep with serial := v.serial } }
    (m.nowActive v).wvDrop.wvEnd c.op c.res none (swapNote c v c.p2)
  | v, _ =>
    m.wvDrop.wvEnd c.op c.res (refusal 0x13) { late := c.late, digest := (v.map fun v => v.digest).getD 0, pos := c.p2 }

/-- P_RESUME: the base reaches the resumption position, and intake accepts again. -/
def pResume (m : Mach) : Mach :=
  match m.adapt.run, m.wv.cmd with
  | some r, _ => if r.phase = .waitResume && m.reached r.pResume then (m.setReg rGlbSwapPos r.pResume).runResult r else m
  | none, some c => if c.drain && c.phase = .loaded && m.reached c.p2 then m.cmdResumes c else m
  | none, none => m

def execPResume (s : State) : Host.Outcome State Fault Refusal := done s (pResume s.m)

end Sys2Proof.Machine
end

