-- ==== Sys2Proof/Machine/Dispatch.lean ====
section
/-! DEFINITION. The effect of every command on everything but the queue: one arm per constructor. -/
namespace Sys2Proof.Machine

/-- The effect of a command on the state; the queue is left as it stands. -/
def exec (i : Instr) (s : State) : Host.Outcome State Fault Refusal :=
  match i with
  | .powerOn => Sys2Proof.Machine.execPowerOn s
  | .powerLoss => Sys2Proof.Machine.execPowerLoss s
  | .mrst => Sys2Proof.Machine.execMrst s
  | .glbRst v => Sys2Proof.Machine.execGlbRst v s
  | .dexzonReset => Sys2Proof.Machine.execDexzonReset s
  | .thermalTrip sensor temp => Sys2Proof.Machine.execThermalTrip sensor temp s
  | .regulatorFault => Sys2Proof.Machine.execRegulatorFault s
  | .resetRelease => Sys2Proof.Machine.execResetRelease s
  | .clockAlignment fails => Sys2Proof.Machine.execClockAlignment fails s
  | .rotBoot puf => Sys2Proof.Machine.execRotBoot puf s
  | .ddrReady => Sys2Proof.Machine.execDdrReady s
  | .refLoss => Sys2Proof.Machine.execRefLoss s
  | .pllUnlock d => Sys2Proof.Machine.execPllUnlock d s
  | .phaseDrift => Sys2Proof.Machine.execPhaseDrift s
  | .pgFault d => Sys2Proof.Machine.execPgFault d s
  | .thermWarn sensor temp => Sys2Proof.Machine.execThermWarn sensor temp s
  | .thermCrit sensor temp => Sys2Proof.Machine.execThermCrit sensor temp s
  | .vinUv vin => Sys2Proof.Machine.execVinUv vin s
  | .vinOv vin => Sys2Proof.Machine.execVinOv vin s
  | .overpower pkg mod => Sys2Proof.Machine.execOverpower pkg mod s
  | .perst => Sys2Proof.Machine.execPerst s
  | .functionLevelReset => Sys2Proof.Machine.execFunctionLevelReset s
  | .nop t sl => Sys2Proof.Machine.execNop t sl s
  | .macMm t p f => Sys2Proof.Machine.execMacMm t p f s
  | .macWld t p f => Sys2Proof.Machine.execMacWld t p f s
  | .macXld t p f => Sys2Proof.Machine.execMacXld t p f s
  | .macAclr t p row cnt => Sys2Proof.Machine.execMacAclr t p row cnt s
  | .vecAdd t p f => Sys2Proof.Machine.execVecAdd t p f s
  | .vecSub t p f => Sys2Proof.Machine.execVecSub t p f s
  | .vecMul t p f => Sys2Proof.Machine.execVecMul t p f s
  | .vecFma t p f => Sys2Proof.Machine.execVecFma t p f s
  | .vecMin t p f => Sys2Proof.Machine.execVecMin t p f s
  | .vecMax t p f => Sys2Proof.Machine.execVecMax t p f s
  | .vecAbs t p f => Sys2Proof.Machine.execVecAbs t p f s
  | .vecNeg t p f => Sys2Proof.Machine.execVecNeg t p f s
  | .vecClt t p f => Sys2Proof.Machine.execVecClt t p f s
  | .vecCeq t p f => Sys2Proof.Machine.execVecCeq t p f s
  | .vecSel t p f => Sys2Proof.Machine.execVecSel t p f s
  | .vecAnd t p f => Sys2Proof.Machine.execVecAnd t p f s
  | .vecOr t p f => Sys2Proof.Machine.execVecOr t p f s
  | .vecXor t p f => Sys2Proof.Machine.execVecXor t p f s
  | .vecShl t p f => Sys2Proof.Machine.execVecShl t p f s
  | .vecShr t p f => Sys2Proof.Machine.execVecShr t p f s
  | .vecSra t p f => Sys2Proof.Machine.execVecSra t p f s
  | .vecRcp t p f => Sys2Proof.Machine.execVecRcp t p f s
  | .vecRsq t p f => Sys2Proof.Machine.execVecRsq t p f s
  | .vecExp2 t p f => Sys2Proof.Machine.execVecExp2 t p f s
  | .vecLog2 t p f => Sys2Proof.Machine.execVecLog2 t p f s
  | .vecRsum t p f => Sys2Proof.Machine.execVecRsum t p f s
  | .vecRmax t p f => Sys2Proof.Machine.execVecRmax t p f s
  | .vecShuf t p f => Sys2Proof.Machine.execVecShuf t p f s
  | .vecRot t p f => Sys2Proof.Machine.execVecRot t p f s
  | .vecBcst t p f => Sys2Proof.Machine.execVecBcst t p f s
  | .vecCvt t p f => Sys2Proof.Machine.execVecCvt t p f s
  | .vecQnt t p f => Sys2Proof.Machine.execVecQnt t p f s
  | .vecSrnd t p f => Sys2Proof.Machine.execVecSrnd t p f s
  | .vecGen t p f => Sys2Proof.Machine.execVecGen t p f s
  | .vecRdac t p f => Sys2Proof.Machine.execVecRdac t p f s
  | .vecWrac t p f => Sys2Proof.Machine.execVecWrac t p f s
  | .vecMovv t p f => Sys2Proof.Machine.execVecMovv t p f s
  | .movLdv t p f => Sys2Proof.Machine.execMovLdv t p f s
  | .movStv t p f => Sys2Proof.Machine.execMovStv t p f s
  | .movCpy t p f => Sys2Proof.Machine.execMovCpy t p f s
  | .movPut t p f => Sys2Proof.Machine.execMovPut t p f s
  | .movGld t p f => Sys2Proof.Machine.execMovGld t p f s
  | .movGst t p f => Sys2Proof.Machine.execMovGst t p f s
  | .movSeta t p n imm => Sys2Proof.Machine.execMovSeta t p n imm s
  | .movTags t p n inc tag off => Sys2Proof.Machine.execMovTags t p n inc tag off s
  | .movVout t n tm inc => Sys2Proof.Machine.execMovVout t n tm inc s
  | .syncLwait t n imm => Sys2Proof.Machine.execSyncLwait t n imm s
  | .syncLsig t n imm => Sys2Proof.Machine.execSyncLsig t n imm s
  | .syncNext t n => Sys2Proof.Machine.execSyncNext t n s
  | .syncPass t n => Sys2Proof.Machine.execSyncPass t n s
  | .syncWopn t w => Sys2Proof.Machine.execSyncWopn t w s
  | .syncWcls t w => Sys2Proof.Machine.execSyncWcls t w s
  | .ctlLoop t level n => Sys2Proof.Machine.execCtlLoop t level n s
  | .ctlEndl t level => Sys2Proof.Machine.execCtlEndl t level s
  | .ctlStep t => Sys2Proof.Machine.execCtlStep t s
  | .ctlArst t kind index => Sys2Proof.Machine.execCtlArst t kind index s
  | .ctlTaly t stream => Sys2Proof.Machine.execCtlTaly t stream s
  | .ctlHalt t => Sys2Proof.Machine.execCtlHalt t s
  | .slip t => Sys2Proof.Machine.execSlip t s
  | .remoteWriteArrival n => Sys2Proof.Machine.execRemoteWriteArrival n s
  | .inboundDrain t bank => Sys2Proof.Machine.execInboundDrain t bank s
  | .gldReply n => Sys2Proof.Machine.execGldReply n s
  | .stackChannelAccess stack ch => Sys2Proof.Machine.execStackChannelAccess stack ch s
  | .stackWindowUpdate n => Sys2Proof.Machine.execStackWindowUpdate n s
  | .latchSignalArrival n => Sys2Proof.Machine.execLatchSignalArrival n s
  | .latchWaitGrant l => Sys2Proof.Machine.execLatchWaitGrant l s
  | .sluiceDescriptorStart e => Sys2Proof.Machine.execSluiceDescriptorStart e s
  | .sluiceComplete e => Sys2Proof.Machine.execSluiceComplete e s
  | .sluiceQueueDescriptor e entry => Sys2Proof.Machine.execSluiceQueueDescriptor e entry s
  | .sluiceAbort e => Sys2Proof.Machine.execSluiceAbort e s
  | .sluiceFault e => Sys2Proof.Machine.execSluiceFault e s
  | .patrolScrub u => Sys2Proof.Machine.execPatrolScrub u s
  | .leaseExpiry h => Sys2Proof.Machine.execLeaseExpiry h s
  | .revocationComplete => Sys2Proof.Machine.execRevocationComplete s
  | .memCeClr => Sys2Proof.Machine.execMemCeClr s
  | .tileCntClr t => Sys2Proof.Machine.execTileCntClr t s
  | .pmemUe t => Sys2Proof.Machine.execPmemUe t s
  | .stemLineTake die port => Sys2Proof.Machine.execStemLineTake die port s
  | .stemRowWrite die port => Sys2Proof.Machine.execStemRowWrite die port s
  | .stemRowDone die port => Sys2Proof.Machine.execStemRowDone die port s
  | .roiJobStart die => Sys2Proof.Machine.execRoiJobStart die s
  | .roiJobComplete die => Sys2Proof.Machine.execRoiJobComplete die s
  | .roiAbort die => Sys2Proof.Machine.execRoiAbort die s
  | .roiFault die => Sys2Proof.Machine.execRoiFault die s
  | .portEnable die port v cable => Sys2Proof.Machine.execPortEnable die port v cable s
  | .portDisable die port v => Sys2Proof.Machine.execPortDisable die port v s
  | .trainingBlock lane octets inv => Sys2Proof.Machine.execTrainingBlock lane octets inv s
  | .tapUpdate lane => Sys2Proof.Machine.execTapUpdate lane s
  | .blockLock lane marker inv => Sys2Proof.Machine.execBlockLock lane marker inv s
  | .blockLockLoss lane bad => Sys2Proof.Machine.execBlockLockLoss lane bad s
  | .windowFault lane bad => Sys2Proof.Machine.execWindowFault lane bad s
  | .lockTimeout port => Sys2Proof.Machine.execLockTimeout port s
  | .qualityCheck port bad => Sys2Proof.Machine.execQualityCheck port bad s
  | .adaptiveTrainingEnd port => Sys2Proof.Machine.execAdaptiveTrainingEnd port s
  | .deskewDone port skew => Sys2Proof.Machine.execDeskewDone port skew s
  | .bringupRetry port => Sys2Proof.Machine.execBringupRetry port s
  | .relockTimeout die port => Sys2Proof.Machine.execRelockTimeout die port s
  | .verSend die port => Sys2Proof.Machine.execVerSend die port s
  | .camVer cam blks => Sys2Proof.Machine.execCamVer cam blks s
  | .frameStart cam blks => Sys2Proof.Machine.execFrameStart cam blks s
  | .frameEnd cam blks => Sys2Proof.Machine.execFrameEnd cam blks s
  | .lineStart cam blks => Sys2Proof.Machine.execLineStart cam blks s
  | .lineEnd cam blks => Sys2Proof.Machine.execLineEnd cam blks s
  | .pixelPacket die port start rest => Sys2Proof.Machine.execPixelPacket die port start rest s
  | .camEcho cam blks => Sys2Proof.Machine.execCamEcho cam blks s
  | .pmark cam blks => Sys2Proof.Machine.execPmark cam blks s
  | .hdrUe cam blks => Sys2Proof.Machine.execHdrUe cam blks s
  | .framingError die port blks => Sys2Proof.Machine.execFramingError die port blks s
  | .ltrig die port => Sys2Proof.Machine.execLtrig die port s
  | .portExpCommit die port => Sys2Proof.Machine.execPortExpCommit die port s
  | .ffcTableWrite die port bank x v => Sys2Proof.Machine.execFfcTableWrite die port bank x v s
  | .cropRequest die req => Sys2Proof.Machine.execCropRequest die req s
  | .coderStart die => Sys2Proof.Machine.execCoderStart die s
  | .archiveRecord die => Sys2Proof.Machine.execArchiveRecord die s
  | .markerRecord => Sys2Proof.Machine.execMarkerRecord s
  | .sampleReady idx => Sys2Proof.Machine.execSampleReady idx s
  | .prepDeadline idx => Sys2Proof.Machine.execPrepDeadline idx s
  | .refDecodeStart die => Sys2Proof.Machine.execRefDecodeStart die s
  | .refDecodeDone die => Sys2Proof.Machine.execRefDecodeDone die s
  | .batchCloseTimeout b => Sys2Proof.Machine.execBatchCloseTimeout b s
  | .batchHandover b => Sys2Proof.Machine.execBatchHandover b s
  | .adaptLabel ent => Sys2Proof.Machine.execAdaptLabel ent s
  | .adaptRun ent => Sys2Proof.Machine.execAdaptRun ent s
  | .adaptSelect ent => Sys2Proof.Machine.execAdaptSelect ent s
  | .adaptCommit ent => Sys2Proof.Machine.execAdaptCommit ent s
  | .adaptDiscard ent => Sys2Proof.Machine.execAdaptDiscard ent s
  | .adaptExport ent => Sys2Proof.Machine.execAdaptExport ent s
  | .adaptClear ent => Sys2Proof.Machine.execAdaptClear ent s
  | .adaptStatus ent => Sys2Proof.Machine.execAdaptStatus ent s
  | .epochStart => Sys2Proof.Machine.execEpochStart s
  | .runEnd => Sys2Proof.Machine.execRunEnd s
  | .runTimeout => Sys2Proof.Machine.execRunTimeout s
  | .pStop => Sys2Proof.Machine.execPStop s
  | .drainEnd => Sys2Proof.Machine.execDrainEnd s
  | .loadComplete => Sys2Proof.Machine.execLoadComplete s
  | .pResume => Sys2Proof.Machine.execPResume s
  | .pSw => Sys2Proof.Machine.execPSw s
  | .oldWeaveDone => Sys2Proof.Machine.execOldWeaveDone s
  | .encoderStep enc a b close => Sys2Proof.Machine.execEncoderStep enc a b close s
  | .los enc pin => Sys2Proof.Machine.execLos enc pin s
  | .losClear enc pin => Sys2Proof.Machine.execLosClear enc pin s
  | .indexEdge enc => Sys2Proof.Machine.execIndexEdge enc s
  | .encCmdLoad enc => Sys2Proof.Machine.execEncCmdLoad enc s
  | .encCfgWrite enc v => Sys2Proof.Machine.execEncCfgWrite enc v s
  | .obsG3Write enc v => Sys2Proof.Machine.execObsG3Write enc v s
  | .observerUpdate enc => Sys2Proof.Machine.execObserverUpdate enc s
  | .overspeedClear enc => Sys2Proof.Machine.execOverspeedClear enc s
  | .ptWrite t r v => Sys2Proof.Machine.execPtWrite t r v s
  | .pitchMarker t => Sys2Proof.Machine.execPitchMarker t s
  | .trailingMarker t => Sys2Proof.Machine.execTrailingMarker t s
  | .spoutArm q ent => Sys2Proof.Machine.execSpoutArm q ent s
  | .spoutCancel q ent => Sys2Proof.Machine.execSpoutCancel q ent s
  | .spoutRuleArm => Sys2Proof.Machine.execSpoutRuleArm s
  | .strobeFire e => Sys2Proof.Machine.execStrobeFire e s
  | .commandInstant e => Sys2Proof.Machine.execCommandInstant e s
  | .pulseEnd e => Sys2Proof.Machine.execPulseEnd e s
  | .pulseMaxon e => Sys2Proof.Machine.execPulseMaxon e s
  | .lateCheck => Sys2Proof.Machine.execLateCheck s
  | .backstop idx => Sys2Proof.Machine.execBackstop idx s
  | .posSnapCapture => Sys2Proof.Machine.execPosSnapCapture s
  | .ptpAnnounce m => Sys2Proof.Machine.execPtpAnnounce m s
  | .ptpSync m => Sys2Proof.Machine.execPtpSync m s
  | .ptpFollowUp id t1 => Sys2Proof.Machine.execPtpFollowUp id t1 s
  | .ptpDelayReq seq => Sys2Proof.Machine.execPtpDelayReq seq s
  | .ptpDelayResp id t4 => Sys2Proof.Machine.execPtpDelayResp id t4 s
  | .tb0Step v => Sys2Proof.Machine.execTb0Step v s
  | .holdover gmChange => Sys2Proof.Machine.execHoldover gmChange s
  | .mgmtLinkDown => Sys2Proof.Machine.execMgmtLinkDown s
  | .downFrame => Sys2Proof.Machine.execDownFrame s
  | .eventFrame fr => Sys2Proof.Machine.execEventFrame fr s
  | .stateApply => Sys2Proof.Machine.execStateApply s
  | .configurationFrame fr => Sys2Proof.Machine.execConfigurationFrame fr s
  | .fldResume fr => Sys2Proof.Machine.execFldResume fr s
  | .fldForceSafe fr => Sys2Proof.Machine.execFldForceSafe fr s
  | .upFrameSend => Sys2Proof.Machine.execUpFrameSend s
  | .upFrame fr => Sys2Proof.Machine.execUpFrame fr s
  | .inputEdge ch level => Sys2Proof.Machine.execInputEdge ch level s
  | .silenceTimeout => Sys2Proof.Machine.execSilenceTimeout s
  | .downLockLoss => Sys2Proof.Machine.execDownLockLoss s
  | .controllerStart => Sys2Proof.Machine.execControllerStart s
  | .lplusUv => Sys2Proof.Machine.execLplusUv s
  | .overcurrent ch => Sys2Proof.Machine.execOvercurrent ch s
  | .wireBreak ch => Sys2Proof.Machine.execWireBreak ch s
  | .wireBreakClear ch => Sys2Proof.Machine.execWireBreakClear ch s
  | .rbMis ch => Sys2Proof.Machine.execRbMis ch s
  | .upLock => Sys2Proof.Machine.execUpLock s
  | .upLost => Sys2Proof.Machine.execUpLost s
  | .fldCmdResume => Sys2Proof.Machine.execFldCmdResume s
  | .fldCmdForceSafe => Sys2Proof.Machine.execFldCmdForceSafe s
  | .fldOcClear v => Sys2Proof.Machine.execFldOcClear v s
  | .fldOutHostWrite v => Sys2Proof.Machine.execFldOutHostWrite v s
  | .ringLinkEnable p v cable => Sys2Proof.Machine.execRingLinkEnable p v cable s
  | .ringRetrain p => Sys2Proof.Machine.execRingRetrain p s
  | .presetRetry p => Sys2Proof.Machine.execPresetRetry p s
  | .ringLinkFault p => Sys2Proof.Machine.execRingLinkFault p s
  | .unwrapHoldoff p => Sys2Proof.Machine.execUnwrapHoldoff p s
  | .unwrap => Sys2Proof.Machine.execUnwrap s
  | .rillVerSend p => Sys2Proof.Machine.execRillVerSend p s
  | .rillVer p fr => Sys2Proof.Machine.execRillVer p fr s
  | .rillEcho p fr t => Sys2Proof.Machine.execRillEcho p fr t s
  | .helloSend => Sys2Proof.Machine.execHelloSend s
  | .ringHello p fr => Sys2Proof.Machine.execRingHello p fr s
  | .memberExpiry m => Sys2Proof.Machine.execMemberExpiry m s
  | .tokenSend => Sys2Proof.Machine.execTokenSend s
  | .ringToken p fr => Sys2Proof.Machine.execRingToken p fr s
  | .tokenExpiry => Sys2Proof.Machine.execTokenExpiry s
  | .tokenPass => Sys2Proof.Machine.execTokenPass s
  | .tb2syncSend => Sys2Proof.Machine.execTb2syncSend s
  | .tb2sync p fr => Sys2Proof.Machine.execTb2sync p fr s
  | .tb2Lost => Sys2Proof.Machine.execTb2Lost s
  | .ringWrapn p fr => Sys2Proof.Machine.execRingWrapn p fr s
  | .ringWrite p fr => Sys2Proof.Machine.execRingWrite p fr s
  | .ringDrop p fr => Sys2Proof.Machine.execRingDrop p fr s
  | .ringVerdict p fr => Sys2Proof.Machine.execRingVerdict p fr s
  | .ringRemap p fr => Sys2Proof.Machine.execRingRemap p fr s
  | .frameCrcFail p k => Sys2Proof.Machine.execFrameCrcFail p k s
  | .ringXoff p cls => Sys2Proof.Machine.execRingXoff p cls s
  | .ringXon p cls => Sys2Proof.Machine.execRingXon p cls s
  | .ringPlanDescriptor plane => Sys2Proof.Machine.execRingPlanDescriptor plane s
  | .ringPlanComplete plane => Sys2Proof.Machine.execRingPlanComplete plane s
  | .weirInsert v => Sys2Proof.Machine.execWeirInsert v s
  | .weirSwitchDone plane settled => Sys2Proof.Machine.execWeirSwitchDone plane settled s
  | .stagingAccess write off size data => Sys2Proof.Machine.execStagingAccess write off size data s
  | .badWidthAccess bar off size write => Sys2Proof.Machine.execBadWidthAccess bar off size write s
  | .lowHalfRead addr => Sys2Proof.Machine.execLowHalfRead addr s
  | .recordAreaWrite off size => Sys2Proof.Machine.execRecordAreaWrite off size s
  | .registerWrite bar addr v => Sys2Proof.Machine.execRegisterWrite bar addr v s
  | .doorbellWrite q v => Sys2Proof.Machine.execDoorbellWrite q v s
  | .qCfgWrite q v => Sys2Proof.Machine.execQCfgWrite q v s
  | .irqTimer q => Sys2Proof.Machine.execIrqTimer q s
  | .queueFetchFail q => Sys2Proof.Machine.execQueueFetchFail q s
  | .recipeLoad q ent => Sys2Proof.Machine.execRecipeLoad q ent s
  | .lotStart q ent => Sys2Proof.Machine.execLotStart q ent s
  | .lotEnd q ent => Sys2Proof.Machine.execLotEnd q ent s
  | .lotEndDone => Sys2Proof.Machine.execLotEndDone s
  | .fence q ent => Sys2Proof.Machine.execFence q ent s
  | .ringTx q msg => Sys2Proof.Machine.execRingTx q msg s
  | .verdictCommit => Sys2Proof.Machine.execVerdictCommit s
  | .mbxGetId via => Sys2Proof.Machine.execMbxGetId via s
  | .mbxGetCerts via => Sys2Proof.Machine.execMbxGetCerts via s
  | .mbxQuote via => Sys2Proof.Machine.execMbxQuote via s
  | .mbxHostRegion via => Sys2Proof.Machine.execMbxHostRegion via s
  | .mbxCtxCreate via => Sys2Proof.Machine.execMbxCtxCreate via s
  | .mbxCtxDelete via => Sys2Proof.Machine.execMbxCtxDelete via s
  | .mbxCtxSwitch via => Sys2Proof.Machine.execMbxCtxSwitch via s
  | .scrubDone => Sys2Proof.Machine.execScrubDone s
  | .importDone => Sys2Proof.Machine.execImportDone s
  | .mbxKeyImport via => Sys2Proof.Machine.execMbxKeyImport via s
  | .mbxRevoke via => Sys2Proof.Machine.execMbxRevoke via s
  | .mbxRingKeygen via => Sys2Proof.Machine.execMbxRingKeygen via s
  | .mbxRingInstall via => Sys2Proof.Machine.execMbxRingInstall via s
  | .mbxMgmtCa via => Sys2Proof.Machine.execMbxMgmtCa via s
  | .mbxFwUpdate via => Sys2Proof.Machine.execMbxFwUpdate via s
  | .ephemeralExpiry => Sys2Proof.Machine.execEphemeralExpiry s
  | .dexzonConnect hello chain => Sys2Proof.Machine.execDexzonConnect hello chain s
  | .weaveStage ctl => Sys2Proof.Machine.execWeaveStage ctl s
  | .weaveLoad ctl => Sys2Proof.Machine.execWeaveLoad ctl s
  | .weaveActivate ctl => Sys2Proof.Machine.execWeaveActivate ctl s
  | .weaveRollback ctl => Sys2Proof.Machine.execWeaveRollback ctl s
  | .weaveStop ctl => Sys2Proof.Machine.execWeaveStop ctl s
  | .weaveDiscard ctl => Sys2Proof.Machine.execWeaveDiscard ctl s
  | .weaveAbort ctl => Sys2Proof.Machine.execWeaveAbort ctl s
  | .response => Sys2Proof.Machine.execResponse s
  | .actNone r => Sys2Proof.Machine.execActNone r s
  | .actFieldSafe r => Sys2Proof.Machine.execActFieldSafe r s
  | .actFieldResume r => Sys2Proof.Machine.execActFieldResume r s
  | .actFieldResumeWaitEnd r => Sys2Proof.Machine.execActFieldResumeWaitEnd r s
  | .actPortOff r => Sys2Proof.Machine.execActPortOff r s
  | .actRingPortOff r => Sys2Proof.Machine.execActRingPortOff r s
  | .actWeaveStop r => Sys2Proof.Machine.execActWeaveStop r s
  | .actRevoke r => Sys2Proof.Machine.execActRevoke r s
  | .actDump r => Sys2Proof.Machine.execActDump r s
  | .dumpReq => Sys2Proof.Machine.execDumpReq s
  | .dumpComplete => Sys2Proof.Machine.execDumpComplete s
  | .dumpCopy => Sys2Proof.Machine.execDumpCopy s
  | .dumpRelease => Sys2Proof.Machine.execDumpRelease s
  | .rplRestart => Sys2Proof.Machine.execRplRestart s
  | .rplInject => Sys2Proof.Machine.execRplInject s
  | .rplCapture => Sys2Proof.Machine.execRplCapture s
  | .rplThaw => Sys2Proof.Machine.execRplThaw s
  | .freeze => Sys2Proof.Machine.execFreeze s
  | .batchCapture v => Sys2Proof.Machine.execBatchCapture v s
  | .lplusOk => Sys2Proof.Machine.execLplusOk s
  | .lplusLoss => Sys2Proof.Machine.execLplusLoss s
  | .fieldSideOvertemp on => Sys2Proof.Machine.execFieldSideOvertemp on s
  | .mgmtLinkUp => Sys2Proof.Machine.execMgmtLinkUp s
  | .ptpEnable v => Sys2Proof.Machine.execPtpEnable v s
  | .configurationWrite r v => Sys2Proof.Machine.execConfigurationWrite r v s
  | .secCfgWrite v => Sys2Proof.Machine.execSecCfgWrite v s
  | .d3hot enter => Sys2Proof.Machine.execD3hot enter s
  | .thermWarnClear temps => Sys2Proof.Machine.execThermWarnClear temps s
  | .vinInRange vin => Sys2Proof.Machine.execVinInRange vin s
  | .refRestored => Sys2Proof.Machine.execRefRestored s
  | .pllRelock d => Sys2Proof.Machine.execPllRelock d s

end Sys2Proof.Machine
end

