-- ==== Sys2Proof/Safety.lean ====
section
/-! DEFINITION. The terms in which claims about the block are made: the canonical form of its memories and registers, when a tile takes
an operation and what it records, how a held bundle compares, and when a command completes. -/
namespace Sys2Proof.Machine

/-! ### Canonical form -/

/-- Every memory of the module in canonical form: bytes, tags, skews, programs and ECC states. -/
def Mem.Wf (x : Mem) : Prop :=
  FMap.Wf emptyByte x.spad ∧ FMap.Wf emptyByte x.stack ∧ FMap.Wf emptyByte x.ddr
    ∧ FMap.Wf (fun _ => false) x.tags ∧ FMap.Wf (fun _ => 0) x.skews ∧ FMap.Wf (fun _ => 0) x.pmem
    ∧ FMap.Wf (fun _ => Ecc.ok) x.eccSpad ∧ FMap.Wf (fun _ => Ecc.ok) x.eccStack ∧ FMap.Wf (fun _ => Ecc.ok) x.eccDdr
    ∧ FMap.Wf (fun _ => Ecc.ok) x.eccPmem ∧ FMap.Wf (fun _ => false) x.crecUe

/-- The memories and the registers of the module are in canonical form. -/
def Mach.Canon (m : Mach) : Prop := m.mem.Wf ∧ FMap.Wf regReset m.regs

/-! ### Completion -/

/-- The command answers a next state, with the queue as it stood and a module of which P holds. -/
def Completes (c : Instr) (s : State) (P : Mach → Prop) : Prop := ∃ m', exec c s = .next { s with m := m' } ∧ P m'

/-- The command answers a next state with the module given. -/
abbrev Gives (c : Instr) (s : State) (m' : Mach) : Prop := exec c s = .next { s with m := m' }

/-! ### Module reset -/

/-- The module is held in reset for a cause: every block as after reset, and the variant, flash and the field side kept (R466, R467). -/
def Mach.ResetTo (m m' : Mach) (cause : Nat) : Prop :=
  m'.pwr.inReset = true ∧ m'.pwr.cause = cause ∧ m'.pwr.aligned = false ∧ m'.pwr.bootOk = false
    ∧ m'.variant = m.variant ∧ m'.flash = m.flash ∧ m'.fld.side = m.fld.side.carry
    ∧ m'.mem = Mem.empty ∧ m'.tiles = [] ∧ m'.engines = [] ∧ m'.latches = [] ∧ m'.wv = Weaving.none ∧ m'.prep = Prep.empty
    ∧ m'.adapt = Adapt.empty ∧ m'.sec = Sec.reset ∧ m'.hif = Hif.reset ∧ m'.flt = Flt.reset ∧ m'.ring = Ring.empty
    ∧ m'.ports = [] ∧ m'.links = []

/-! ### Reports -/

/-- Nothing changed but what the report of an event to the FLT block may change: registers, the FLT block, interrupts, and the status of
an adaptation run (R263, R384, R429). -/
def Mach.OnlyReported (m m' : Mach) : Prop :=
  m' = { m with
    regs := m'.regs, justSet := m'.justSet, flt := m'.flt, hif := { m.hif with pba := m'.hif.pba, irqs := m'.hif.irqs },
    adapt := { m.adapt with run := m'.adapt.run } }

/-- A register that a report leaves as it is: it does not lie in the FLT block. -/
abbrev outsideFlt (a : Nat) : Prop := a < 0x02000000

/-- An error bit was set and its event reported, and no register below the FLT block changed beside the error register. -/
def Mach.Raised (m m' : Mach) (err bit : Nat) : Prop :=
  m.OnlyReported m' ∧ m'.reg err = (m.putBit err bit true).reg err ∧ ∀ a, outsideFlt a → a ≠ err → m'.reg a = m.reg a

/-- The module once a started response is taken up by its action (R442). -/
def Mach.acting (m : Mach) (p : Rsp) : Mach := { m with flt := m.flt.dropStarted p }

/-! ### Commands of the host -/

/-- The module once GLB_WV_CTL has taken the command word: GO reads 0. -/
def Mach.wvTaken (m : Mach) (ctl : W32) : Mach := m.setReg rGlbWvCtl (ctl &&& 0x7FF800FF#32)

/-- A weave command of the host that meets neither a running command, a range error, a context switch nor an adaptation run that holds it off. -/
def Mach.WvTakes (m : Mach) (op : Nat) (ctl : W32) : Prop :=
  m.hostUp = true ∧ bitAt ctl 31 = true ∧ bits ctl 7 0 = op ∧ (m.wv.cmd = none ∨ op = 7)
    ∧ (m.wvTaken ctl).wvRange op (m.wvTaken ctl).wvArgs = false ∧ m.sec.switching = none
    ∧ (m.adapt.run = none ∨ op = 1 ∨ op = 6 ∨ op = 7)

/-- The module once SEC_MBX_CTL has taken the command word: GO reads 0. -/
def Mach.mbxTaken (m : Mach) (ctl : W32) : Mach := m.setReg rSecMbxCtl (ctl &&& 0x7FF800FF#32)

/-- A mailbox command of the host names an OP while the mailbox is not BUSY, and every argument byte outside those that it uses is 0 (R426). -/
def Mach.MbxAsks (m : Mach) (ctl : W32) (op : Nat) (used : List (Nat × Nat)) : Prop :=
  m.hif.d3 = false ∧ bitAt ctl 31 = true ∧ bits ctl 7 0 = op ∧ m.bit rSecMbxStat 31 = false
    ∧ ∀ i < 256, (∃ r ∈ used, r.1 ≤ i ∧ i < r.1 + r.2) ∨ m.mbxIn.getD i 0 = 0

/-- Such a command is taken: the RoT is up (R403, R426). -/
def Mach.MbxTakes (m : Mach) (ctl : W32) (op : Nat) (used : List (Nat × Nat)) : Prop := m.rotUp = true ∧ m.MbxAsks ctl op used

/-- An entry of the CMD queue is taken and names an OP (R385). -/
def Mach.CmdTakes (m : Mach) (q : Nat) (ent : Slot) (op : Nat) : Prop :=
  m.qReady q 2 = true ∧ m.hif.lot.ending = none ∧ fieldAt (slotBytes ent) 0 1 = op

/-- A command of the adaptation queue q is taken, with the section it acts on (R272, R273). -/
def Mach.AdaptTakes (m : Mach) (q : Nat) (a : AdaptSec) (ent : Slot) (op : Nat) (used : List (Nat × Nat)) (flags : Nat) : Prop :=
  m.queueOfType 9 = some q ∧ m.qReady q 9 = true ∧ m.section = some a ∧ fieldAt (slotBytes ent) 0 1 = op
    ∧ fieldAt (slotBytes ent) 1 1 ≤ flags ∧ reservedZero (slotBytes ent) used = true

/-! ### Camera packets -/

/-- Blocks that hold a packet whose header can be read (R197, R198). -/
def Carries (blks : List Block) (k : Packet) : Prop := ∃ o, deframe none blks = .packet o ∧ packetOf o = some k

/-- The module once a packet's header has been heard: a corrected header error is reported (R199, R213). -/
def Mach.heard (m : Mach) (p : Nat) (k : Packet) : Mach := if k.ce then m.raisePort p 0 else m

/-- A packet reaches its port and is taken: the port hears it, no scrub is under way, it came on the channel of its class, and the port is
READY or in ACQUIRE. -/
def Mach.PacketTaken (m : Mach) (p : Nat) (k : Packet) : Prop :=
  m.portHears p = true ∧ (m.heard p k).scrubbing = false ∧ (m.heard p k).rightChannel p k = true
    ∧ ((m.heard p k).lstate p = 3 ∨ (m.heard p k).lstate p = 4)

/-! ### The field section -/

/-- A valid down frame of slot k reaches a running field-side controller whose receiver is locked (R323). -/
def Mach.DownTaken (m : Mach) (fr : BitVec 64) (k : Nat) : Prop :=
  m.side.running = true ∧ frameOk fr = true ∧ m.side.downLock = true ∧ k = m.fld.slotOf m.tb1

/-- The module once a valid down frame has been received. -/
def Mach.downHeard (m : Mach) : Mach :=
  (m.setFldSt (m.fld.downTaken m.tb1)).setSide
    { m.side with goodRun := m.side.goodRun + 1, badRun := 0, heardAt := some m.tb1, validAt := some m.tb1 }

/-- A valid up frame of slot j reaches a locked receiver of the module side at t_a (R322, R323). -/
def Mach.UpTaken (m : Mach) (fr : BitVec 64) (j : Nat) : Prop :=
  m.pwr.inReset = false ∧ frameOk fr = true ∧ m.bit rFldStat 1 = true ∧ j = m.fld.upSlot m.tb1 ∧ slotStart j + 1300 ≤ m.tb1

/-- The module once a valid up frame has been received: the input levels show (R328). -/
def Mach.upHeard (m : Mach) (fr : BitVec 64) : Mach :=
  (m.setFldSt { m.fld with up := m.fld.up.drop 1, upGood := m.fld.upGood + 1, upBad := 0, upHeardAt := m.tb1 }).setReg rFldIn
    (BitVec.ofNat 32 (bits fr 15 0))

/-! ### Ring frames -/

/-- A frame reaches a port that hears, outside a scrub, and fits its type's limit (R355). -/
def Mach.RingHeard (m : Mach) (p : Nat) (f : RFrame) : Prop := m.ringHears p = true ∧ f.payload.length ≤ 64 ∧ m.scrubbing = false

/-- The module once a frame has gone on, if it is a broadcast that is forwarded as it is. -/
def Mach.passedOn (m : Mach) (p ty : Nat) (f : RFrame) (onward : Bool) : Mach :=
  if f.dst = 0xFF ∧ onward = true then m.forward p ty f else m

/-- A frame that is consumed here, in clear: its own, or a broadcast of another module, and authentic (R354, R355, R414). -/
def Mach.RingTakes (m : Mach) (p ty : Nat) (f g : RFrame) (onward : Bool) : Prop :=
  m.RingHeard p f ∧ (f.dst.toNat = m.modId ∨ (f.dst = 0xFF ∧ f.src.toNat ≠ m.modId)) ∧ (m.passedOn p ty f onward).authentic ty f = some g

/-- The module once it has taken a frame: a broadcast has gone on, and the sequence number of an encrypted one is remembered. -/
def Mach.ringTaken (m : Mach) (p ty : Nat) (f : RFrame) (onward : Bool) : Mach :=
  if f.enc then (m.passedOn p ty f onward).noteSeen (seqKey (f.session.toNat + 1) f.src.toNat ty f.dst.toNat) f.seq.toNat
  else m.passedOn p ty f onward

/-! ### Bundles -/

/-- The tile takes an operation of a slot into the bundle in hand at once: it issues bundles, its start cycle has come, the bundle has
not passed the slot, nothing is held, and no bundle issued in this cycle (R38-R41). -/
def Mach.Ready (m : Mach) (t : TileIdx) (sl : SlotName) : Prop :=
  m.issuing t = true ∧ (m.tile t).startCycle ≤ m.cyc ∧ (m.tile t).passed ≤ slotNo sl ∧ (m.tile t).closed = false
    ∧ (m.tile t).held = none ∧ (m.tile t).issuedAt ≠ m.cyc + 1 ∧ (m.tile t).bankHeldAt ≠ m.cyc + 1

/-- No change of this cycle stands against another (log 18): none of the tile's changes recorded in this cycle is of SYNC, CTL or the
inbound buffer. -/
def Mach.Unopposed (m : Mach) (t : TileIdx) : Prop := ∀ g ∈ m.fx, g.tile = t → g.issue = m.cyc → g.prio < 8

/-- A change of a tile, issued now. -/
def Mach.change (m : Mach) (t : TileIdx) (prio lat : Nat) (e : Eff) : Fx :=
  { tile := t, issue := m.cyc, prio := prio, land := m.cyc + lat, eff := e }

/-- The module with changes recorded. -/
def Mach.record (m : Mach) (l : List Fx) : Mach := { m with fx := m.fx ++ l }

/-- The module once an operation has joined a bundle that an unmet condition holds: nothing of the bundle issues (R41). -/
def Mach.holding (m : Mach) (t : TileIdx) (i : Instr) (k : HoldKind) : Mach :=
  { m with fx := m.fx.filter fun f => !(f.tile == t && f.issue == m.cyc && f.prio != 0 && f.prio != 20) }.setTile t
    { m.tile t with bundle := (m.tile t).bundle ++ [i], held := some k }

/-- The module once an operation has joined the bundle in hand and recorded its changes. -/
def Mach.joined (m : Mach) (t : TileIdx) (i : Instr) (news : List Fx) : Mach :=
  let x := m.tile t
  (m.record news).setTile t { x with bundle := x.bundle ++ [i] }

/-- The module once a bundle that ends with an operation of the CTL slot has issued. -/
def Mach.ended (m : Mach) (t : TileIdx) (i : Instr) (news : List Fx) : Mach := (m.joined t i news).finish t

/-- A slot read under a tag mode meets its tag, has no skew against it and no ECC error (R60, R136, R160). -/
def Mach.ReadClean (m : Mach) (t : TileIdx) (s : BitVec 13) (tm : BitVec 2) : Prop :=
  (tm = 1 ∨ tm = 2 → m.tag t s.toNat = true ∧ FMap.get (fun _ => false) m.mem.crecUe (t * 8192 + s.toNat) = false)
    ∧ m.slotErrors t s.toNat = []

/-- A slot written under a tag mode has no skew, and is empty for a FILL (R60, R160). -/
def Mach.WriteClean (m : Mach) (t : TileIdx) (s : BitVec 13) (tm : BitVec 2) : Prop :=
  tm = 1 → m.tag t s.toNat = false ∧ m.skew t s.toNat = 0

/-- What a MOV read of a slot records: its changes at once, or, where the bundle's MAC operation reads the same bank, a bank hold of the next
bundle and the read one cycle later (R33, R145). -/
def Mach.movNews (m : Mach) (t : TileIdx) (s : BitVec 13) (k : MovRead) (now : List Fx) : List Fx :=
  if (m.tile t).macSlot.any fun z => z.toNat % 8 == s.toNat % 8 then [m.change t 6 1 .bankHold, m.change t 6 1 (.read s k)] else now

/-- What a read records: TAKE empties the slot. -/
def Mach.readNews (m : Mach) (t : TileIdx) (s : BitVec 13) (tm : BitVec 2) (prio : Nat) : List Fx :=
  if tm = 2 then [m.change t prio 1 (.tag s false)] else []

/-- What a post-increment of A[n] records. -/
def Mach.incNews (m : Mach) (t : TileIdx) (n : BitVec 4) (inc : Bool) (prio : Nat) : List Fx :=
  if inc then [m.change t prio 1 (.a n ((m.tile t).incOf n))] else []

/-- What an operation that writes V[VD] records: nothing when it is predicated off (R43, R44). -/
def Mach.rowNews (m : Mach) (t : TileIdx) (p : Pred) (f : VecF) (lat : Nat) (row : Row) : List Fx :=
  if (m.tile t).predOff p then [] else [m.change t 4 lat (.v f.vd 0xFFFFFFFF row)]

/-- The operation joins the bundle in hand and records a row for V[VD], and nothing else changes. -/
def GivesRow (s : State) (t : TileIdx) (p : Pred) (f : VecF) (i : Instr) (lat : Nat) (row : Row) : Prop :=
  Gives i s (s.m.joined t i (s.m.rowNews t p f lat row))

end Sys2Proof.Machine
end

