-- ==== Sys2Proof/Certificates/Slice0/Obligations.lean ====
section
/-! DEFINITION. The statements about the block for the provers: each is a proposition, named by what it states. -/

open Sys2Proof Sys2Proof.Machine

/-- The arithmetic, comparison, bitwise, shift and lane-moving VEC commands record their row for V[VD] and change nothing else.
(R53, R147, R43, R44) -/
def Obligations.VecArithmeticAndLaneMovesRecordTheirRow : Prop :=
  (∀ (s : State) (t : TileIdx) (p : Pred) (f : VecF), s.m.Ready t .vec →
    (typeOk [0, 1, 2] f = true →
      GivesRow s t p f (.vecAdd t p f) (latOf f.ty 4 2 5) ((s.m.tile t).lanes3 f fun a b _ => typed f.ty (addF a b) (a + b))
      ∧ GivesRow s t p f (.vecSub t p f) (latOf f.ty 4 2 5) ((s.m.tile t).lanes3 f fun a b _ => typed f.ty (subF a b) (a - b))
      ∧ GivesRow s t p f (.vecMul t p f) (latOf f.ty 4 4 5) ((s.m.tile t).lanes3 f fun a b _ => typed f.ty (mulF a b) (a * b))
      ∧ GivesRow s t p f (.vecFma t p f) (latOf f.ty 5 4 6) ((s.m.tile t).lanes3 f fun a b c => typed f.ty (fmaF a b c) (a * b + c)))
    ∧ (typeOk [0, 1] f = true →
      GivesRow s t p f (.vecMin t p f) 2 ((s.m.tile t).lanes3 f fun a b _ => if f.ty = 1 then minI a b else minF a b)
      ∧ GivesRow s t p f (.vecMax t p f) 2 ((s.m.tile t).lanes3 f fun a b _ => if f.ty = 1 then maxI a b else maxF a b)
      ∧ GivesRow s t p f (.vecAbs t p f) 2 ((s.m.tile t).lanes3 f fun a _ _ => if f.ty = 1 then absI a else absF a)
      ∧ GivesRow s t p f (.vecNeg t p f) 2 ((s.m.tile t).lanes3 f fun a _ _ => if f.ty = 1 then negI a else negF a)
      ∧ GivesRow s t p f (.vecClt t p f) 2 ((s.m.tile t).lanes3 f fun a b _ => if f.ty = 1 then cltI a b else cltF a b)
      ∧ GivesRow s t p f (.vecCeq t p f) 2 ((s.m.tile t).lanes3 f fun a b _ => if f.ty = 1 then ceqI a b else ceqF a b)))
    ∧ (∀ (s : State) (t : TileIdx) (p : Pred) (f : VecF), s.m.Ready t .vec →
    (typeOk [0, 1, 2] f = true →
      GivesRow s t p f (.vecSel t p f) 1 ((s.m.tile t).lanes3 f fun a b c => if c ≠ 0 then a else b)
      ∧ GivesRow s t p f (.vecAnd t p f) 1 ((s.m.tile t).lanes3 f fun a b _ => a &&& b)
      ∧ GivesRow s t p f (.vecOr t p f) 1 ((s.m.tile t).lanes3 f fun a b _ => a ||| b)
      ∧ GivesRow s t p f (.vecXor t p f) 1 ((s.m.tile t).lanes3 f fun a b _ => a ^^^ b)
      ∧ GivesRow s t p f (.vecShuf t p f) 2 (mkRow fun i => lane ((s.m.tile t).vreg f.va) (Nat.xor i f.vc.toNat))
      ∧ GivesRow s t p f (.vecRot t p f) 2 (mkRow fun i => lane ((s.m.tile t).vreg f.va) ((i + f.vc.toNat) % 32))
      ∧ GivesRow s t p f (.vecBcst t p f) 2 (splat (lane ((s.m.tile t).vreg f.va) f.vc.toNat))
      ∧ GivesRow s t p f (.vecMovv t p f) 1 ((s.m.tile t).vreg f.va))
    ∧ (f.ty = 1 →
      GivesRow s t p f (.vecShl t p f) 1 ((s.m.tile t).lanes3 f fun a b _ => a <<< (b &&& 31).toNat)
      ∧ GivesRow s t p f (.vecShr t p f) 1 ((s.m.tile t).lanes3 f fun a b _ => a >>> (b &&& 31).toNat)
      ∧ GivesRow s t p f (.vecSra t p f) 1 ((s.m.tile t).lanes3 f fun a b _ => a.sshiftRight (b &&& 31).toNat)))

/-- RCP, RSQ, EXP2, LOG2, RSUM, RMAX, CVT, QNT and SRND record their row for V[VD] and change nothing else. (R53, R55, R56, R57,
R147) -/
def Obligations.VecFunctionsRecordTheirRow : Prop :=
  ∀ (s : State) (t : TileIdx) (p : Pred) (f : VecF), s.m.Ready t .vec →
    (f.ty = 0 →
      GivesRow s t p f (.vecRcp t p f) 10 ((s.m.tile t).lanes3 f fun a _ _ => rcpF a)
      ∧ GivesRow s t p f (.vecRsq t p f) 10 ((s.m.tile t).lanes3 f fun a _ _ => rsqF a)
      ∧ GivesRow s t p f (.vecExp2 t p f) 10 ((s.m.tile t).lanes3 f fun a _ _ => exp2F a)
      ∧ GivesRow s t p f (.vecLog2 t p f) 10 ((s.m.tile t).lanes3 f fun a _ _ => log2F a)
      ∧ GivesRow s t p f (.vecSrnd t p f) 2 ((s.m.tile t).lanes3 f fun a b _ => srnd a b)
      ∧ GivesRow s t p f (.vecRsum t p f) 14 (splat (treeOf addF ((s.m.tile t).vreg f.va)))
      ∧ GivesRow s t p f (.vecRmax t p f) 14 (splat (treeOf maxF ((s.m.tile t).vreg f.va)))
      ∧ (f.vc.toNat ≤ 7 → GivesRow s t p f (.vecCvt t p f) 3 ((s.m.tile t).lanes3 f fun a _ _ => cvt f.vc.toNat a)))
    ∧ (f.ty = 1 →
      GivesRow s t p f (.vecRsum t p f) 8 (splat (treeOf (fun a b => a + b) ((s.m.tile t).vreg f.va)))
      ∧ GivesRow s t p f (.vecRmax t p f) 8 (splat (treeOf maxI ((s.m.tile t).vreg f.va)))
      ∧ (f.md.toNat ≤ 3 → GivesRow s t p f (.vecQnt t p f) 4 ((s.m.tile t).lanes3 f fun a b c => qnt f.md.toNat a b c)))

/-- GEN, RDAC and WRAC record their row, their counter and their accumulator row, and change nothing else. (R53, R58, R44, R147) -/
def Obligations.GenAndAccumulatorMovesRecordTheirChanges : Prop :=
  ∀ (s : State) (t : TileIdx) (p : Pred) (f : VecF), s.m.Ready t .vec → f.ty = 0 →
    let x := s.m.tile t
    let row := BitVec.ofNat 6 (32 * (f.md.toNat % 2) + f.va.toNat)
    Gives (.vecGen t p f) s (s.m.joined t (.vecGen t p f)
      (s.m.rowNews t p f 6 (mkRow fun i => gen (s.m.genKey t) x.smp.toNat f.vc.toNat (((x.drawOf f.vc).toNat + i) % 256))
        ++ [s.m.change t 4 1 (.draw f.vc (x.drawOf f.vc + 32))]))
    ∧ Gives (.vecRdac t p f) s (s.m.joined t (.vecRdac t p f)
      (s.m.rowNews t p f 2 (x.accRow row)
        ++ if f.md.getLsbD 1 = true ∧ x.predOff p = false then [s.m.change t 4 1 (.acc row 0)] else []))
    ∧ Gives (.vecWrac t p f) s (s.m.joined t (.vecWrac t p f)
      (if x.predOff p then [] else [s.m.change t 4 2 (.acc row (x.vreg f.vd))]))

/-- MM records its four accumulator rows, the array's occupation, its pointers and its scale latch, and changes nothing else.
(R48, R49, R50, R52, R146, R44) -/
def Obligations.MatrixMultiplyRecordsItsRows : Prop :=
  ∀ (s : State) (t : TileIdx) (p : Pred) (f : MmF), s.m.Ready t .mac → s.m.Unopposed t → f.tm ≠ 3 →
    (s.m.tile t).arrayFree ≤ s.m.cyc →
    let x := s.m.tile t
    let w := x.wset f.ws
    let k := x.eff f.n 0
    let mx8 := isMx8 w.fmt.toNat
    let xsel := if isMx w.fmt.toNat then f.xsel.toNat else 0
    s.m.ReadClean t k f.tm →
    Gives (.macMm t p f) s (s.m.joined t (.macMm t p f)
      (s.m.readNews t k f.tm 2 ++ s.m.incNews t f.n f.inc 2
        ++ (if mx8 = true ∧ f.ph = false then [s.m.change t 2 1 (.scaleLatch w.scale)] else [])
        ++ [s.m.change t 2 1 (.arrayBusy (s.m.cyc + macCycles w.fmt.toNat))]
        ++ (if f.p then [s.m.change t 2 1 (.acp (x.acp + 4))] else [])
        ++ (if x.predOff p then [] else [s.m.change t 2 (macLatency w.fmt.toNat)
          (.mm (x.acp + f.aoff) w.fmt f.z (s.m.slot t k.toNat) w.parts
            (if f.ph = true ∧ mx8 = true then x.scaleLatch else w.scale) (x.xs.extractLsb' (32 * xsel) 32))])))

/-- WLD, XLD and ACLR record the part, the scales or the cleared rows, and change nothing else. (R50, R51, R44, R146) -/
def Obligations.WeightAndScaleLoadsRecordTheirChanges : Prop :=
  ∀ (s : State) (t : TileIdx) (p : Pred), s.m.Ready t .mac → s.m.Unopposed t →
    let x := s.m.tile t
    (∀ f : WldF, f.tm ≠ 3 → f.fmt.toNat ≤ 9 → f.part.toNat ≤ 8 → s.m.ReadClean t (x.eff f.n 0) f.tm →
      Gives (.macWld t p f) s (s.m.joined t (.macWld t p f)
        (s.m.readNews t (x.eff f.n 0) f.tm 2 ++ s.m.incNews t f.n f.inc 2
          ++ if x.predOff p then [] else
            s.m.change t 2 2 (.wpart f.ws f.part (s.m.slot t (x.eff f.n 0).toNat))
              :: if f.part = 0 then [s.m.change t 2 2 (.wfmt f.ws f.fmt)] else [])))
    ∧ (∀ f : WldF, f.tm ≠ 3 → f.fmt.toNat ≤ 9 → f.part = 15 → s.m.ReadClean t (x.eff f.n 0) f.tm →
      let part := (x.wset f.ws).cnt
      let fmt := if x.predOff p = false ∧ part = 0 then f.fmt else s.m.wfmtAfter t f.ws
      Gives (.macWld t p f) s (s.m.joined t (.macWld t p f)
        (s.m.readNews t (x.eff f.n 0) f.tm 2 ++ s.m.incNews t f.n f.inc 2
          ++ (if x.predOff p then [] else
            s.m.change t 2 2 (.wpart f.ws part (s.m.slot t (x.eff f.n 0).toNat))
              :: if part = 0 then [s.m.change t 2 2 (.wfmt f.ws f.fmt)] else [])
          ++ [s.m.change t 2 1 (.wcnt f.ws (if (if isMx fmt.toNat then 8 else 7) ≤ part.toNat then 0 else part + 1))])))
    ∧ (∀ f : XldF, f.tm ≠ 3 → s.m.ReadClean t (x.eff f.n 0) f.tm →
      Gives (.macXld t p f) s (s.m.joined t (.macXld t p f)
        (s.m.readNews t (x.eff f.n 0) f.tm 2 ++ s.m.incNews t f.n f.inc 2
          ++ if x.predOff p then [] else [s.m.change t 2 2 (.xs (s.m.slot t (x.eff f.n 0).toNat))])))
    ∧ ∀ row cnt : BitVec 6,
      Gives (.macAclr t p row cnt) s (s.m.joined t (.macAclr t p row cnt)
        (if x.predOff p then [] else
          (List.range (cnt.toNat + 1)).map fun i => s.m.change t 2 1 (.acc (row + BitVec.ofNat 6 i) 0)))

/-- LDV, STV and CPY record the widened, packed or copied data, the tags and the pointers, and change nothing else. (R33, R59,
R60, R61, R62, R148, R44) -/
def Obligations.LoadStoreAndCopyRecordTheirChanges : Prop :=
  ∀ (s : State) (t : TileIdx) (p : Pred), s.m.Ready t .mov → s.m.Unopposed t →
    let x := s.m.tile t
    (∀ f : LdvF, ldvOk f = true →
      let k := x.eff f.n f.off
      let tm : BitVec 2 := if f.fmt = 1 ∨ f.fmt = 6 ∨ f.h = true then f.tm else 0
      let v := s.m.slot t k.toNat
      let row := fun (r : BitVec 5) (j : Nat) =>
        s.m.change t 6 3 (.v r (ldvMask f.fmt.toNat f.h) (unpackRow f.fmt.toNat f.h j v))
      (s.m.ReadClean t k tm → Gives (.movLdv t p f) s (s.m.joined t (.movLdv t p f)
        (s.m.movNews t k (.ldv f.x f.fmt f.h (!x.predOff p))
            (if x.predOff p then [] else row f.x 0 :: if f.fmt = 7 then [row (f.x + 1) 1] else [])
          ++ s.m.readNews t k tm 6 ++ s.m.incNews t f.n f.inc 6)))
      ∧ (s.m.WriteClean t k tm → Gives (.movStv t p f) s (s.m.joined t (.movStv t p f)
        (s.m.change t 6 3 (.slot k (if x.predOff p then 0 else stvMask f.fmt.toNat f.h)
            (packSlot f.fmt.toNat f.h (x.vreg f.x) (x.vreg (f.x + 1))))
          :: ((if tm = 1 ∨ tm = 2 then [s.m.change t 6 3 (.tag k true)] else []) ++ s.m.incNews t f.n f.inc 6)))))
    ∧ ∀ f : CpyF, f.tm ≠ 3 → f.tm2 ≠ 3 →
      let k := x.eff f.n f.off
      let d := x.eff f.m 0
      s.m.ReadClean t k f.tm → s.m.WriteClean t d f.tm2 →
        Gives (.movCpy t p f) s (s.m.joined t (.movCpy t p f)
          (s.m.movNews t k (.cpy (some d) (decide (f.tm2 = 1 ∨ f.tm2 = 2)) (!x.predOff p))
              (s.m.change t 6 3 (.slot d (if x.predOff p then 0 else BitVec.allOnes 64) (s.m.slot t k.toNat))
                :: if f.tm2 = 1 ∨ f.tm2 = 2 then [s.m.change t 6 3 (.tag d true)] else [])
            ++ s.m.readNews t k f.tm 6 ++ s.m.incNews t f.n f.inc 6))

/-- PUT, GST and GLD send their request with its target, data and due cycle, and change nothing else but tags and pointers.
(R36, R44, R60, R63, R148, R149, R152) -/
def Obligations.RemoteMovesSendTheirRequest : Prop :=
  ∀ (s : State) (t : TileIdx) (p : Pred), s.m.Ready t .mov → s.m.Unopposed t →
    let x := s.m.tile t
    (∀ f : PutF, f.tm ≠ 3 →
      let k := x.eff f.n 0
      let d := x.dreg f.m
      let tgt := s.m.putSlot t f
      let on := if f.dinc then tgt.2.strided 13 d.base.toNat d.stride else (d.base, tgt.2)
      (d.base.toNat + f.off.toNat < 8192 → tgt = (BitVec.ofNat 13 (d.base.toNat + f.off.toNat), s.m))
      ∧ (f.dinc = true → 0 ≤ (d.base.toNat : Int) + d.stride → (d.base.toNat : Int) + d.stride < 8192 →
        on = (BitVec.ofInt 13 (d.base.toNat + d.stride), tgt.2))
      ∧ (s.m.outbound t < 16 → s.m.ReadClean t k f.tm →
        Gives (.movPut t p f) s (on.2.joined t (.movPut t p f)
          (s.m.movNews t k (.put (Fin.ofNat 576 d.tile.toNat) tgt.1 f.dm (!x.predOff p))
              [s.m.change t 6 1 (.flight
                { writer := BitVec.ofNat 16 t, target := .slot (d.tile.toNat % 576) tgt.1.toNat,
                  data := if x.predOff p then none else some (s.m.slot t k.toNat), ovr := f.dm, gen := none, issue := s.m.cyc,
                  due := s.m.cyc + putDelta t (d.tile.toNat % 576) - 1, blocked := false, owner := .none })]
            ++ (if f.dinc then [s.m.change t 6 1 (.d f.m on.1)] else [])
            ++ s.m.readNews t k f.tm 6 ++ s.m.incNews t f.n f.inc 6))))
    ∧ ∀ f : GldF, f.tm ≠ 3 →
      let k := x.eff f.n 0
      let g := x.greg f.m
      let on := if f.ginc then s.m.strided 22 g.gran.toNat g.stride else (g.gran, s.m)
      let gNews := if f.ginc then [s.m.change t 6 1 (.g f.m g.stack on.1)] else []
      (f.ginc = true → 0 ≤ (g.gran.toNat : Int) + g.stride → (g.gran.toNat : Int) + g.stride < 2 ^ 22 →
        on = (BitVec.ofInt 22 (g.gran.toNat + g.stride), s.m))
      ∧ (s.m.outbound t < 16 → s.m.ReadClean t k f.tm → Gives (.movGst t p f) s (on.2.joined t (.movGst t p f)
        (s.m.movNews t k (.gst g.stack g.gran (!x.predOff p))
            [s.m.change t 6 1 (.flight
              { writer := BitVec.ofNat 16 t, target := .gran g.stack.toNat g.gran.toNat,
                data := if x.predOff p then none else some (s.m.slot t k.toNat), ovr := false, gen := none, issue := s.m.cyc,
                due := s.m.cyc + stackQ t g.stack.toNat, blocked := false, owner := .none })]
          ++ gNews ++ s.m.readNews t k f.tm 6 ++ s.m.incNews t f.n f.inc 6)))
      ∧ (s.m.WriteClean t k (if f.tm = 1 then 1 else 0) → Gives (.movGld t p f) s (on.2.joined t (.movGld t p f)
        (s.m.change t 6 1 (.chan
          { stack := g.stack.toNat, gran := g.gran.toNat, requester := t, sched := true, due := s.m.cyc + stackQ t g.stack.toNat,
            read := some (.gld t k f.tm (x.predOff p) (s.m.cyc + stackS t g.stack.toNat)), write := none })
          :: (gNews ++ s.m.incNews t f.n f.inc 6))))

/-- SETA, TAGS and VOUT record their pointer, tag or payload, and change nothing else. (R44, R59, R60, R64, R160) -/
def Obligations.PointerTagAndPayloadMovesRecordTheirChanges : Prop :=
  ∀ (s : State) (t : TileIdx) (p : Pred) (n : BitVec 4) (inc : Bool), s.m.Ready t .mov → s.m.Unopposed t →
    let x := s.m.tile t
    (∀ imm : BitVec 13, Gives (.movSeta t p n imm) s (s.m.joined t (.movSeta t p n imm)
      (if x.predOff p then [] else [s.m.change t 6 1 (.a n imm)])))
    ∧ (∀ (tag : Bool) (off : BitVec 11), Gives (.movTags t p n inc tag off) s (s.m.joined t (.movTags t p n inc tag off)
      ((if x.predOff p then [] else [s.m.change t 6 1 (.tag (x.eff n off) tag), s.m.change t 6 1 (.skewClear (x.eff n off))])
        ++ s.m.incNews t n inc 6)))
    ∧ ∀ tm : BitVec 2, tm ≠ 3 → s.m.ReadClean t (x.eff n 0) tm →
      Gives (.movVout t n tm inc) s (s.m.joined t (.movVout t n tm inc)
        (s.m.movNews t (x.eff n 0) (.vout x.smp (s.m.flagsNow t))
            [s.m.change t 6 1 (.vout x.smp (s.m.flagsNow t) (s.m.slot t (x.eff n 0).toNat))]
          ++ s.m.readNews t (x.eff n 0) tm 6 ++ s.m.incNews t n inc 6))

/-- LWAIT, LSIG, NEXT, PASS, WOPN and WCLS wait, signal, move the sample register and open or close windows, and change nothing
else. (R41, R65, R130, R148, R156, R64, R66, R164, R118, R135) -/
def Obligations.SyncOperationsWaitSignalMoveSamplesAndWindows : Prop :=
  (∀ (s : State) (t : TileIdx) (n : BitVec 4) (imm : BitVec 8), s.m.Ready t .sync → 1 ≤ imm.toNat →
    let x := s.m.tile t
    let l := (x.lreg n).toNat
    (s.m.waitOf t = none → Gives (.syncLwait t n imm) s
      (({ s.m with
          waits := s.m.waits ++
            [{ latch := l, who := .tile t, amount := imm.toNat, first := s.m.cyc, arrive := s.m.cyc + latchL t l, granted := none }],
          fx := s.m.fx.filter fun f => !(f.tile == t && f.issue == s.m.cyc && f.prio != 0 && f.prio != 20) } : Mach).setTile t
        { x with bundle := x.bundle ++ [.syncLwait t n imm], held := some .latch }))
    ∧ (∀ (w : Wait) (g : Nat), s.m.waitOf t = some w → w.granted = some g → g + latchL t l ≤ s.m.cyc →
      Gives (.syncLwait t n imm) s
        (({ s.m with waits := s.m.waits.filter fun w => w.who != .tile t } : Mach).setTile t
          { x with bundle := x.bundle ++ [.syncLwait t n imm] }))
    ∧ Gives (.syncLsig t n imm) s
      (({ s.m with signals := s.m.signals ++
          [{ latch := l, amount := imm.toNat, src := BitVec.ofNat 16 t, issue := s.m.cyc, due := s.m.cyc + latchL t l }] } : Mach).setTile t
        { x with bundle := x.bundle ++ [.syncLsig t n imm] }))
    ∧ (∀ (s : State) (t : TileIdx) (n : BitVec 4), s.m.Ready t .sync → (∀ g ∈ s.m.fx, g.tile = t → g.issue ≠ s.m.cyc) →
    let x := s.m.tile t
    let k := x.eff n 0
    let bs := slotBytes (s.m.slot t k.toNat)
    let fl := BitVec.ofNat 16 (fieldAt bs 6 2) &&& 0xFF1F
    (s.m.ReadClean t k 2 → Gives (.syncNext t n) s (s.m.joined t (.syncNext t n)
      [s.m.change t 8 1 (.tag k false), s.m.change t 8 1 (.a n (x.incOf n)),
        s.m.change t 15 1 (.smp (some (BitVec.ofNat 48 (fieldAt bs 0 6))) (if x.spanLeft = 0 then fl else fl ||| 4)),
        s.m.change t 8 1 (.spanLeft (x.spanLeft - 1)), s.m.change t 8 1 .drawsClear]))
    ∧ (s.m.WriteClean t k 1 → Gives (.syncPass t n) s (s.m.joined t (.syncPass t n)
      [s.m.change t 8 3 (.slot k (BitVec.allOnes 64)
          (bytesSlot (leBytes 6 x.smp.toNat ++ leBytes 2 x.flags.toNat ++ zeros 56))),
        s.m.change t 8 3 (.tag k true), s.m.change t 8 1 (.a n (x.incOf n))])))
    ∧ (∀ (s : State) (t : TileIdx) (w : BitVec 3), s.m.Ready t .sync →
    let x := s.m.tile t
    let d := s.m.win t w.toNat
    let upd := fun b => ({ s.m with winUpds := s.m.winUpds ++
      [{ tile := t, w := w, opens := b, issue := s.m.cyc, due := s.m.cyc + stackQ t d.stack }] } : Mach)
    (d.kind = false →
      Gives (.syncWopn t w) s ((s.m.setWin t w.toNat (if d.revoked then d else { d with isOpen := true, gen := d.gen % 4095 + 1 })).setTile t
        { x with bundle := x.bundle ++ [.syncWopn t w] })
      ∧ Gives (.syncWcls t w) s ((s.m.setWin t w.toNat (if d.revoked then d else { d with isOpen := false })).setTile t
        { x with bundle := x.bundle ++ [.syncWcls t w] }))
    ∧ (d.kind = true →
      Gives (.syncWopn t w) s ((upd true).setTile t { x with bundle := x.bundle ++ [.syncWopn t w] })
      ∧ Gives (.syncWcls t w) s ((upd false).setTile t { x with bundle := x.bundle ++ [.syncWcls t w] })))

/-- LOOP, ENDL, STEP, HALT, ARST, TALY and NOP record the next pc, their counts, resets and units, and end their bundle. (R37,
R38, R67, R44, R455, R456) -/
def Obligations.ControlSlotOperationsEndTheirBundle : Prop :=
  (∀ (s : State) (t : TileIdx), s.m.Ready t .ctl →
    let x := s.m.tile t
    let on := s.m.change t 10 1 (.pc (x.pc + 1))
    (∀ (k : BitVec 2) (n : BitVec 4), Gives (.ctlLoop t k n) s (s.m.ended t (.ctlLoop t k n)
      [s.m.change t 10 1 (.lc k (x.creg n) (x.pc + 1) (k.toNat + 1)), on]))
    ∧ (∀ k : BitVec 2, 1 < (x.loopReg k).count.toNat → Gives (.ctlEndl t k) s (s.m.ended t (.ctlEndl t k)
      [s.m.change t 10 1 (.lc k ((x.loopReg k).count - 1) (x.loopReg k).start x.depth),
        s.m.change t 10 1 (.pc (x.loopReg k).start)]))
    ∧ (∀ k : BitVec 2, (x.loopReg k).count.toNat ≤ 1 → Gives (.ctlEndl t k) s (s.m.ended t (.ctlEndl t k)
      [s.m.change t 10 1 (.lc k 0 (x.loopReg k).start k.toNat), on]))
    ∧ Gives (.ctlStep t) s (s.m.ended t (.ctlStep t) [s.m.change t 10 1 .stepInc, s.m.change t 10 1 (.pc x.entry)])
    ∧ Gives (.ctlHalt t) s (s.m.ended t (.ctlHalt t) [s.m.change t 10 1 .halt, on])
    ∧ Gives (.nop t .ctl) s (s.m.ended t (.nop t .ctl) [on]))
    ∧ (∀ (s : State) (t : TileIdx) (st : BitVec 3), s.m.Ready t .ctl →
    let x := s.m.tile t
    let on := s.m.change t 10 1 (.pc (x.pc + 1))
    let j := FMap.get (fun _ => 0) x.tallyCnt st.toNat
    let later := s.m.fx.any fun g => g.tile == t && g.issue == s.m.cyc && g.eff == .bankHold
    let unit := fun (p : Pred) lat k v =>
      [s.m.change t 11 lat (.tally st k v x.smp j (!x.predOff p && !x.isPad) (s.m.tallyLate x.smp)),
        s.m.change t 11 1 (.tallyCnt st (j + 1)), on]
    let gives := fun news => Gives (.ctlTaly t st) s (s.m.ended t (.ctlTaly t st) news)
    ((∀ i ∈ x.bundle, slotOf i ≠ .mov) → gives [on])
    ∧ ∀ (l r : List Instr) (p : Pred), (∀ i ∈ l, slotOf i ≠ .mov) →
      (∀ f : LdvF, x.bundle = l ++ .movStv t p f :: r → gives (unit p 3 (some (x.eff f.n f.off)) 0))
      ∧ (∀ f : CpyF, x.bundle = l ++ .movCpy t p f :: r → gives (unit p (if later then 4 else 3) (some (x.eff f.m 0)) 0))
      ∧ ∀ f : PutF, x.bundle = l ++ .movPut t p f :: r →
        gives (unit p 1 (if later then some (x.eff f.n 0) else none) (s.m.slot t (x.eff f.n 0).toNat)))
    ∧ (∀ (s : State) (t : TileIdx),
    let x := s.m.tile t
    let c := fun e => s.m.change t 10 1 e
    let on := c (.pc (x.pc + 1))
    let ra := fun n => c (.a n (x.areg n).idx0)
    let rg := fun n => c (.g n (x.greg n).stack0 (x.greg n).gran0)
    let rd := fun n => c (.d n (x.dreg n).base0)
    (s.m.Ready t .ctl → (∀ g ∈ s.m.fx, g.tile = t → g.issue ≠ s.m.cyc) →
      (∀ n : BitVec 4, Gives (.ctlArst t 0 n) s (s.m.ended t (.ctlArst t 0 n) [ra n, on]))
      ∧ (∀ n : BitVec 4, n.toNat ≤ 7 → Gives (.ctlArst t 1 n) s (s.m.ended t (.ctlArst t 1 n) [rg (n.setWidth 3), on]))
      ∧ (∀ n : BitVec 4, n.toNat ≤ 7 → Gives (.ctlArst t 2 n) s (s.m.ended t (.ctlArst t 2 n) [rd (n.setWidth 3), on]))
      ∧ Gives (.ctlArst t 3 0) s (s.m.ended t (.ctlArst t 3 0) [c (.acp 0), on])
      ∧ Gives (.ctlArst t 4 0) s (s.m.ended t (.ctlArst t 4 0) [c (.wcnt false 0), c (.wcnt true 0), on])
      ∧ Gives (.ctlArst t 5 0) s (s.m.ended t (.ctlArst t 5 0)
        ((List.range 16).map (fun k => ra (BitVec.ofNat 4 k))
          ++ (List.range 8).flatMap (fun k => [rg (BitVec.ofNat 3 k), rd (BitVec.ofNat 3 k)])
          ++ [c (.acp 0), c (.wcnt false 0), c (.wcnt true 0), on])))
    ∧ ∀ sl : SlotName, sl ≠ .ctl → s.m.Ready t sl → Gives (.nop t sl) s (s.m.joined t (.nop t sl) []))

/-- An unmet tag or a full outbound buffer holds the whole bundle; SLIP marks the sample, counts, reports and presents the
bundle again. (R41, R36, R158, R159, R160, R163, R164, R70) -/
def Obligations.UnmetConditionsHoldTheBundleAndSlipReleasesIt : Prop :=
  (∀ (s : State) (t : TileIdx) (p : Pred),
    let x := s.m.tile t
    let empty := fun (k : BitVec 13) (tm : BitVec 2) => (tm = 1 ∨ tm = 2) ∧ s.m.tag t k.toNat = false ∧ 0 ≤ s.m.skew t k.toNat
    (s.m.Ready t .mac →
      (∀ f : MmF, empty (x.eff f.n 0) f.tm →
        Gives (.macMm t p f) s (s.m.holding t (.macMm t p f) .tag))
      ∧ (∀ f : WldF, f.fmt.toNat ≤ 9 → f.part.toNat ≤ 8 ∨ f.part = 15 → empty (x.eff f.n 0) f.tm →
        Gives (.macWld t p f) s (s.m.holding t (.macWld t p f) .tag))
      ∧ ∀ f : XldF, empty (x.eff f.n 0) f.tm → Gives (.macXld t p f) s (s.m.holding t (.macXld t p f) .tag))
    ∧ (s.m.Ready t .mov →
      (∀ f : LdvF, ldvOk f = true → f.fmt = 1 ∨ f.fmt = 6 ∨ f.h = true →
        let k := x.eff f.n f.off
        (empty k f.tm → Gives (.movLdv t p f) s (s.m.holding t (.movLdv t p f) .tag))
        ∧ (f.tm = 1 → s.m.skew t k.toNat < 0 ∨ (s.m.skew t k.toNat = 0 ∧ s.m.tag t k.toNat = true) →
          Gives (.movStv t p f) s (s.m.holding t (.movStv t p f) .tag))
        ∧ (f.tm = 1 → 0 < s.m.skew t k.toNat → s.m.Unopposed t →
          Gives (.movStv t p f) s (s.m.joined t (.movStv t p f) (s.m.change t 6 1 (.skew k (-1)) :: s.m.incNews t f.n f.inc 6))))
      ∧ (∀ f : PutF, f.tm ≠ 3 → 16 ≤ s.m.outbound t → s.m.ReadClean t (x.eff f.n 0) f.tm →
        Gives (.movPut t p f) s (s.m.holding t (.movPut t p f) .queue))
      ∧ ∀ f : GldF, f.tm ≠ 3 → 16 ≤ s.m.outbound t → s.m.ReadClean t (x.eff f.n 0) f.tm →
        Gives (.movGst t p f) s (s.m.holding t (.movGst t p f) .queue)))
    ∧ ∀ (s : State) (t : TileIdx),
    let x := s.m.tile t
    let m := (s.m.setTile t { x with
      flags := x.flags ||| 4, slips := min (x.slips + 1) 0xFFFFFFFF, spanLeft := x.span, slipped := true }).raiseFab t 6
        { akind := 1, addr := x.step.toNat, info := x.stage.toNat, sample := some x.smp }
    s.m.issuing t = true → x.closed = true → x.slipped = false → 1 ≤ x.budget → x.budget ≤ x.counted →
      Gives (.slip t) s (m.represent t)
      ∧ ((m.bundleUnmet t).que = false → (m.bundleUnmet t).bank = false → Gives (.slip t) s (m.issueAll t))

/-- Each source of a module reset clears every block, every context and every key, keeps flash and the field side, and records
its cause. (R399, R466, R467, R470, R492) -/
def Obligations.ModuleResetLosesEverythingButFlashAndField : Prop :=
  ∀ s : State,
    (s.m.pwr.vin = true → Completes .powerLoss s fun m' =>
      s.m.ResetTo m' 0 ∧ m'.regs = [] ∧ m'.pwr.vin = false ∧ m'.pwr.good = 0)
    ∧ (s.m.pwr.vin = true → Completes .mrst s fun m' =>
      s.m.ResetTo m' 1 ∧ m'.regs = [] ∧ m'.pwr.good = s.m.variant.domains ∧ m'.pwr.lockedOut = false)
    ∧ (∀ v : W32, s.m.hostUp = true → v.toNat / 2 ^ 16 = 0x4C39 → v.getLsbD 0 = true → Completes (.glbRst v) s fun m' =>
      s.m.ResetTo m' 2 ∧ m'.regs = [])
    ∧ (s.m.sec.dexUp = true → s.m.pwr.inReset = false → Completes .dexzonReset s fun m' => s.m.ResetTo m' 3 ∧ m'.regs = [])
    ∧ (∀ (i : Fin 7) (c : BitVec 16), s.m.pwr.vin = true → s.m.variant.hasSensor i = true → 1920 ≤ c.toInt →
      Completes (.thermalTrip i c) s fun m' =>
        s.m.ResetTo m' 4 ∧ m'.pwr.lockedOut = true
          ∧ m'.reg (rPwrTemp i) = c.setWidth 32 ∧ ∀ a, a ≠ rPwrTemp i → m'.reg a = regReset a)
    ∧ (s.m.pwr.vin = true → Completes .regulatorFault s fun m' => s.m.ResetTo m' 5 ∧ m'.regs = [] ∧ m'.pwr.lockedOut = true)

/-- POWER_ON, RESET_RELEASE, CLOCK_ALIGNMENT, ROT_BOOT and DDR_READY bring the module up step by step. (R400, R403, R464, R469,
R471, R480) -/
def Obligations.PowerUpStepsFollowEachOther : Prop :=
  ∀ s : State,
    (s.m.pwr.vin = false → Gives .powerOn s { s.m with pwr := { s.m.pwr with
      vin := true, inReset := true, lockedOut := false, cause := 0, good := s.m.variant.domains, locks := s.m.variant.clocks, refOk := true } })
    ∧ (s.m.pwr.vin = true → s.m.pwr.inReset = true → s.m.pwr.lockedOut = false → s.m.pwr.good = s.m.variant.domains →
      s.m.pwr.locks = s.m.variant.clocks →
      Gives .resetRelease s (({ s.m with pwr := { s.m.pwr with inReset := false } } : Mach).setReg rGlbRstCause
        (BitVec.ofNat 32 (2 ^ s.m.pwr.cause))))
    ∧ (∀ k : Fin 4, s.m.pwr.inReset = false → s.m.pwr.aligned = false → s.m.pwr.tries = 0 →
      (k.val < 3 → Gives (.clockAlignment k) s { s.m with cyc := 0, pwr := { s.m.pwr with tries := k.val + 1, aligned := true } })
      ∧ (k.val = 3 → Completes (.clockAlignment k) s fun m' =>
        ({ s.m with pwr := { s.m.pwr with tries := 3 } } : Mach).Raised m' rClkErr 2))
    ∧ (∀ puf : Bool, s.m.pwr.inReset = false → s.m.pwr.bootOk = false → s.m.flash.fwA.valid = true → s.m.flash.fwA.rotOk = true →
      s.m.flash.journal = none →
      Completes (.rotBoot puf) s fun m' =>
        m'.pwr.bootOk = true ∧ m'.sec.svn = s.m.flash.fwA.svn ∧ s.m.flash.svnMin.toNat ≤ m'.flash.svnMin.toNat
          ∧ m'.sec.sdev = (if puf then some Config.deviceSecret else s.m.sec.sdev) ∧ m'.mem = s.m.mem ∧ m'.tiles = s.m.tiles)
    ∧ (∀ puf : Bool, s.m.pwr.inReset = false → s.m.pwr.bootOk = false → (s.m.flash.fwA.valid && s.m.flash.fwA.rotOk) = false →
      ((s.m.flash.fwB.valid && s.m.flash.fwB.rotOk) = true → s.m.flash.journal = none →
        Completes (.rotBoot puf) s fun m' => m'.pwr.bootOk = true ∧ m'.sec.svn = s.m.flash.fwB.svn ∧ m'.sec.romOnly = false)
      ∧ ((s.m.flash.fwB.valid && s.m.flash.fwB.rotOk) = false →
        Completes (.rotBoot puf) s fun m' => m'.pwr.bootOk = false ∧ m'.sec.romOnly = true ∧ m'.flash = s.m.flash ∧ m'.mem = s.m.mem))
    ∧ (s.m.endpointOn = true → s.m.pwr.ddrReady = false →
      (∀ p ∈ s.m.flash.sets, p.2.a.ok = true ∧ p.2.b.ok = true) →
      Gives .ddrReady s { s.m with pwr := { s.m.pwr with ddrReady := true } })

/-- Clock, supply, temperature and power events raise CLK_ERR and change their condition, recoveries restore it, and the
endpoint is reset or stopped. (R22, R464, R472, R474, R492, R501, R19, R373, R397, R468) -/
def Obligations.SupplyClockAndEndpointEventsAreShown : Prop :=
  (∀ s : State, s.m.pwr.inReset = false →
    (s.m.pwr.refOk = true → Completes .refLoss s (({ s.m with pwr := { s.m.pwr with refOk := false } } : Mach).Raised · rClkErr 0))
    ∧ (∀ d : Fin 25, s.m.pwr.locks.getLsbD d = true → Completes (.pllUnlock d) s ((s.m.setLock d false).Raised · rClkErr 1))
    ∧ (s.m.pwr.aligned = true → Completes .phaseDrift s (s.m.Raised · rClkErr 3))
    ∧ (∀ d : Fin 36, s.m.pwr.good.getLsbD d = true → Completes (.pgFault d) s
      (({ s.m with pwr := { s.m.pwr with good := setBits s.m.pwr.good d d 0 } } : Mach).Raised · rClkErr 4))
    ∧ (∀ v : BitVec 16, s.m.pwr.excursion = false →
      let m := ({ s.m with pwr := { s.m.pwr with excursion := true } } : Mach).setFld rPwrVin 15 0 v.toNat
      (v.toNat < 4000 → Completes (.vinUv v) s (m.Raised · rClkErr 5))
      ∧ (6000 < v.toNat → Completes (.vinOv v) s (m.Raised · rClkErr 6)))
    ∧ (∀ pkg mod : BitVec 16, s.m.variant.packageLimit < pkg.toNat ∨ s.m.variant.moduleLimit < mod.toNat →
      Completes (.overpower pkg mod) s ((s.m.setReg rPwrPower (mod ++ pkg)).Raised · rClkErr 9))
    ∧ ∀ (i : Fin 8) (c : BitVec 16), s.m.variant.hasSensor i = true →
      (16 * (s.m.rbits rPwrTherm 7 0 : Int) ≤ c.toInt → Completes (.thermWarn i c) s
        ((({ s.m with pwr := { s.m.pwr with thermWarn := true } } : Mach).setReg (rPwrTemp i) (c.setWidth 32)).Raised · rClkErr 7))
      ∧ (16 * (s.m.rbits rPwrTherm 15 8 : Int) ≤ c.toInt → Completes (.thermCrit i c) s fun m' =>
        m'.reg (rPwrTemp i) = c.setWidth 32 ∧ (m'.reg rClkErr).getLsbD 8 = true ∧ m'.mem = s.m.mem ∧ m'.tiles = s.m.tiles))
    ∧ (∀ s : State, s.m.pwr.inReset = false →
    let hif := ({ s.m with
      regs := FMap.clear s.m.regs fun a => decide (0x01E00000 ≤ a) && decide (a < 0x01F00000),
      hif := { Hif.reset with lot := s.m.hif.lot, vouts := s.m.hif.vouts } } : Mach).freeQueueEngines
    Gives .refRestored s { s.m with pwr := { s.m.pwr with refOk := true } }
    ∧ (∀ d : Fin 25, s.m.variant.clocks.getLsbD d = true → Gives (.pllRelock d) s (s.m.setLock d true))
    ∧ (∀ v : BitVec 16, 4000 ≤ v.toNat → v.toNat ≤ 6000 → Gives (.vinInRange v) s
      (({ s.m with pwr := { s.m.pwr with excursion := false } } : Mach).setFld rPwrVin 15 0 v.toNat))
    ∧ (∀ ts : List (BitVec 16),
      (∀ i < 8, s.m.variant.hasSensor i = true → (ts.getD i 0).toInt < 16 * (s.m.rbits rPwrTherm 7 0 : Int)) →
      Gives (.thermWarnClear ts) s (({ s.m with pwr := { s.m.pwr with thermWarn := false } } : Mach).setTemps ts))
    ∧ Gives .perst s hif
    ∧ (s.m.endpointOn = true → Gives .functionLevelReset s hif)
    ∧ (∀ b : Bool, s.m.endpointOn = true → Gives (.d3hot b) s { s.m with hif := { s.m.hif with d3 := b } }))

/-- A remote write that arrives is taken, held by a full buffer, or dropped without a trace in any memory. (R34, R35, R115,
R120, R122, R151, R161) -/
def Obligations.RemoteWritesAreCheckedAtTheirTarget : Prop :=
  ∀ (s : State) (i : Nat) (f : Flight), s.m.flights[i]? = some f →
    ((s.m.flights.take i).any f.samePath = true → Gives (.remoteWriteArrival i) s s.m.answerDrops.prepDrops)
    ∧ ((s.m.flights.take i).any f.samePath = false →
    let m := s.m.advanceTo f.due
    let sched := writerKind f.writer == 0
    (∀ d, m.windowCheck f.writer f.target f.gen = some d →
      Gives (.remoteWriteArrival i) s ({ m.dropWrite f d with flights := dropNth m.flights i } : Mach).answerDrops.prepDrops)
    ∧ (∀ d, m.windowCheck f.writer f.target f.gen = some d → (∀ idx, f.owner ≠ .sample idx) →
      (∀ x ∈ m.prep.parts, x.copy ≠ .dropped) → Completes (.remoteWriteArrival i) s fun m' =>
      m'.flights = dropNth m.flights i ∧ m'.mem = m.mem ∧ m'.inbox = m.inbox ∧ m'.chanQ = m.chanQ ∧ m'.windows = m.windows
        ∧ m'.latches = m.latches ∧ m'.tiles = m.tiles
        ∧ m'.rbits rMemWdropStat 15 0 = min 0xFFFF (m.rbits rMemWdropStat 15 0 + 1)
        ∧ m'.fx = m.fx ++ (match f.target with
          | .slot t k => if f.ovr = false ∧ (m.tile t).assigned = true
              then [m.change (Fin.ofNat 576 t) 20 1 (.skew (BitVec.ofNat 13 k) (-1))] else []
          | .gran _ _ => []))
    ∧ (m.windowCheck f.writer f.target f.gen = none →
      (∀ t k, f.target = .slot t k → 16 ≤ m.inCount (Fin.ofNat 576 t) sched →
        Gives (.remoteWriteArrival i) s
          ({ m with flights := setNth m.flights i { f with blocked := true } } : Mach).answerDrops.prepDrops)
      ∧ (∀ t k, f.target = .slot t k → m.inCount (Fin.ofNat 576 t) sched < 16 →
        Gives (.remoteWriteArrival i) s ({ m.settleOwner f.owner false with
          flights := dropNth m.flights i
          inbox := m.inbox ++ [{ tile := Fin.ofNat 576 t, sched := sched, slot := BitVec.ofNat 13 k, data := f.data, ovr := f.ovr,
                                 gld := none, ue := false, crec := f.isUeRecord }] } : Mach).answerDrops.prepDrops)
      ∧ ∀ st g, f.target = .gran st g →
        Gives (.remoteWriteArrival i) s ({ m.settleOwner f.owner false with
          flights := dropNth m.flights i
          chanQ := m.chanQ ++ [{ stack := st, gran := g, requester := f.writer.toNat, sched := sched, due := m.cyc, read := none,
                                 write := some f }] } : Mach).answerDrops.prepDrops))

/-- INBOUND_DRAIN takes a bank's oldest ready scheduled entry, or else its oldest ready asynchronous one, and GLD_REPLY enters
the scheduled part. (R33, R34, R110, R111, R152, R160) -/
def Obligations.InboundEntriesDrainByPartAndOrder : Prop :=
  ∀ s : State,
    (∀ (t : TileIdx) (bank : Fin 8), s.m.portBusy t bank = false →
      let pick := (s.m.pickEntry t bank true [] s.m.inbox).or (s.m.pickEntry t bank false [] s.m.inbox)
      (pick = none → Gives (.inboundDrain t bank) s s.m)
      ∧ ∀ i e, pick = some i → s.m.inbox[i]? = some e →
        (∀ g ∈ s.m.fx, g.tile = e.tile → g.issue = s.m.cyc → g.eff.same (.tag e.slot true) = false) →
        let fill := match e.gld with
          | some tm => tm == 1
          | none => !e.ovr
        let n : Mach := { s.m with inbox := dropNth s.m.inbox i }
        Gives (.inboundDrain t bank) s (if fill = true ∧ 0 < s.m.skew e.tile e.slot.toNat then
            n.record [s.m.change e.tile 20 1 (.skew e.slot (-1)), s.m.change e.tile 20 1 (.slot e.slot 0 0)]
          else
            (if e.ue then n.setTile e.tile { s.m.tile e.tile with flags := setFlagBit (s.m.tile e.tile).flags 3 } else n).record
            ([s.m.change e.tile 20 1 (.slot e.slot (if e.data.isSome then BitVec.allOnes 64 else 0) (e.data.getD 0))]
              ++ (if e.crec then [s.m.change e.tile 20 1 (.crec e.slot)] else [])
              ++ (if e.gld = some 0 then [] else [s.m.change e.tile 20 1 (.tag e.slot true)]))))
    ∧ ∀ (i : Nat) (r : GldReply), s.m.gldReplies[i]? = some r →
      let m := s.m.advanceTo r.due
      Gives (.gldReply i) s (if 16 ≤ m.inCount r.tile true then m else { m with
        gldReplies := dropNth m.gldReplies i
        inbox := m.inbox ++ [{ tile := r.tile, sched := true, slot := r.slot, data := r.data, ovr := false, gld := some r.tm, ue := r.ue,
                               crec := false }] })

/-- A stack channel serves its first request in the order of R103, and a window's change reaches its stack. (R102, R103, R118,
R152, R154) -/
def Obligations.StackChannelsServeInOrder : Prop :=
  ∀ s : State,
    (∀ (st : Fin 6) (ch : Fin 32) (d : Nat) (ds : List Nat) (q : ChanReq) (rest : List ChanReq),
      (s.m.chanQ.filter fun q => q.at st ch).map (·.due) = d :: ds →
      let m := (s.m.advanceTo (ds.foldl min d)).awaitChannel st ch 4
      sortBy ChanReq.le (m.chanQ.filter fun q => q.at st ch && decide (q.due ≤ m.cyc)) = q :: rest →
      let m1 : Mach := { m with chanQ := m.chanQ.erase q, chanLast := FMap.put (fun _ => 0) m.chanLast (32 * st.val + ch.val) (m.cyc + 1) }
      (∀ f, q.read = none → q.write = some f → Gives (.stackChannelAccess st ch) s (match f.data with
        | some v => m1.setGran q.stack q.gran v
        | none => m1))
      ∧ (∀ t k tm off vis, q.write = none → q.read = some (.gld t k tm off vis) →
        Completes (.stackChannelAccess st ch) s fun m' =>
          m1.OnlyReported { m' with gldReplies := m1.gldReplies }
            ∧ m'.gldReplies = m.gldReplies ++
              [{ tile := t, slot := k, tm := tm, data := if off then none else some (m.gran q.stack q.gran),
                 due := vis - 1 + (m.cyc - (q.due + 1)), ue := m.stackEcc q.stack q.gran == .ue }])
      ∧ (∀ e index pass k r, q.write = none → q.read = some (.sluice e index pass k) →
        ((m.engine e).inflight.find? fun r => r.index == index && r.pass == pass) = some r →
        Completes (.stackChannelAccess st ch) s fun m' =>
          m'.chanQ = m1.chanQ ∧ m'.mem = (if r.desc.op = 4 then m.mem else
              (m.setDdrBytes (r.desc.daddr.toNat + 64 * k) (slotBytes (m.gran q.stack q.gran))).mem)
            ∧ m'.flights = m.flights ++ if r.desc.op = 4 then
              [{ writer := BitVec.ofNat 16 (0x4000 + e), target := .slot r.desc.ftile (r.desc.fslot.toNat + k),
                 data := some (m.gran q.stack q.gran), ovr := r.desc.ovr, gen := some r.gen, issue := m.cyc, due := m.cyc, blocked := false,
                 owner := .sluice e index pass }] else [])
      ∧ (∀ d, q.write = none → q.read = some (.roi d) →
        Gives (.stackChannelAccess st ch) s ((m1.stackRead q.stack q.gran q.requester none).roiGot d q.stack q.gran))
      ∧ (∀ idx, q.write = none → q.read = some (.prep idx) →
        Gives (.stackChannelAccess st ch) s ((m1.stackRead q.stack q.gran q.requester (some idx)).prepGot idx q.stack q.gran))
      ∧ (∀ plane index pass k, q.write = none → q.read = some (.ring plane index pass k) →
        Gives (.stackChannelAccess st ch) s ((m1.stackRead q.stack q.gran q.requester none).ringGot plane index pass k q.stack q.gran)))
    ∧ ∀ (i : Nat) (u : WinUpd), s.m.winUpds[i]? = some u →
      let m := s.m.advanceTo u.due
      let x := m.win u.tile u.w.toNat
      Gives (.stackWindowUpdate i) s
        (({ m with winUpds := dropNth m.winUpds i } : Mach).setWin u.tile u.w.toNat (if x.revoked then x else if u.opens then x.opened else x.closed))

/-- A signal adds to a held latch, saturating, and is discarded by another; waits are granted strictly in order. (R65, R119,
R130, R131) -/
def Obligations.LatchesAddSignalsThenServeWaitsInOrder : Prop :=
  ∀ s : State,
    (∀ (i : Nat) (g : Signal), s.m.signals[i]? = some g →
      let m := s.m.advanceTo g.due
      let x := m.latch g.latch
      Completes (.latchSignalArrival i) s fun m' =>
        m'.latch g.latch = (if x.st = .held then { x with count := BitVec.ofNat 32 (min (x.count.toNat + g.amount) 0xFFFFFFFF) } else x)
          ∧ (∀ l, l ≠ g.latch → m'.latch l = m.latch l) ∧ m'.signals = dropNth m.signals i ∧ m'.waits = m.waits
          ∧ m'.mem = m.mem ∧ m'.tiles = m.tiles)
    ∧ ∀ (l : Fin 16384) (a : Nat) (as : List Nat) (w : Wait) (rest : List Wait),
      (s.m.waits.filter fun w => w.latch == l.val && w.granted.isNone).map (·.arrive) = a :: as →
      let m := s.m.advanceTo (as.foldl min a)
      (∀ g ∈ m.signals, g.latch = l.val → m.cyc < g.due) →
      sortBy Wait.le (m.waits.filter fun w => w.latch == l.val && w.granted.isNone && decide (w.arrive ≤ m.cyc)) = w :: rest →
      let x := m.latch l
      (¬(x.st = .held ∧ w.amount ≤ x.count.toNat) → Gives (.latchWaitGrant l) s m)
      ∧ (x.st = .held ∧ w.amount ≤ x.count.toNat → Gives (.latchWaitGrant l) s (({ m with
          latches := FMap.put (fun _ => Latch.free) m.latches l.val { x with count := x.count - BitVec.ofNat 32 w.amount }
          waits := m.waits.map fun v => if v = w then { v with granted := some m.cyc } else v } : Mach).grant l rest))

/-- SLUICE_DESCRIPTOR_START asks for the gate, or sets the descriptor in flight with its granules in ascending order. (R106,
R124, R125, R127, R131) -/
def Obligations.SluiceEnginesStartDescriptors : Prop :=
  ∀ (s : State) (e : Fin 32) d index pass, s.m.nextDesc e = some (d, index, pass) → ((s.m.engine e).mode = .plan → (s.m.engine e).start ≤ s.m.cyc) →
    let x := s.m.engine e
    let gen := if d.gen = 0 then sampledGen (s.m.win d.wtile d.win) else d.gen
    (d.gate = true → (s.m.waits.find? fun w => w.who == Waiter.engine e) = none →
      let m := ({ s.m with waits := s.m.waits ++
        [{ latch := d.glatch, who := .engine e, amount := d.gcnt, first := s.m.cyc, arrive := s.m.cyc, granted := none }] } : Mach).setEngine e
          { x with st := if x.inflight.isEmpty then .gate else .move }
      ((s.m.latch d.glatch).st ≠ .revoked → Gives (.sluiceDescriptorStart e) s m)
        ∧ ((s.m.latch d.glatch).st = .revoked → Completes (.sluiceDescriptorStart e) s (m.Raised · (rMemSluErr e) 3)))
    ∧ (d.gate = false ∨ (∃ w, (s.m.waits.find? fun w => w.who == Waiter.engine e) = some w ∧ w.granted.isSome = true) →
      (d.inRange = true → (∀ r ∈ x.inflight, r.index = index → r.pass ≠ pass) → d.op ≤ 4 →
        (∀ k < d.len, (1 ≤ d.op ∧ d.op ≤ 3 → s.m.ddrAllowed (d.daddr + 64 * (k : Int)) = true)
          ∧ (d.op = 1 ∨ d.op = 2 → s.m.ddrEcc (d.daddr + 64 * (k : Int)).toNat = .ok)) →
        Completes (.sluiceDescriptorStart e) s fun m' =>
          m'.flights = s.m.flights ++ (if d.op = 1 ∨ d.op = 2 then (List.range d.len).map (fun k =>
            ({ writer := BitVec.ofNat 16 (0x4000 + e.val),
               target := if d.op = 1 then .slot d.ftile (d.fslot.toNat + k) else .gran d.ftile (d.fslot.toNat + k),
               data := some (bytesSlot (s.m.ddrBytes (d.daddr + 64 * (k : Int)).toNat 64)), ovr := d.ovr, gen := some gen,
               issue := s.m.cyc, due := s.m.cyc, blocked := false, owner := .sluice e index pass } : Flight)) else [])
            ∧ m'.chanQ = s.m.chanQ ++ (if d.op = 3 ∨ d.op = 4 then (List.range d.len).map (fun k =>
              ({ stack := if d.op = 4 then d.sstack else d.ftile, gran := (if d.op = 4 then d.sgran.toNat else d.fslot.toNat) + k,
                 requester := 0x4000 + e.val, sched := false, due := s.m.cyc, read := some (.sluice e index pass k), write := none } : ChanReq))
              else [])
            ∧ (m'.engine e).st = .move ∧ (m'.engine e).inflight.length = x.inflight.length + 1
            ∧ m'.mem = s.m.mem ∧ m'.tiles = s.m.tiles ∧ m'.regs = s.m.regs)
      ∧ (d.inRange = true → 1 ≤ d.op → d.op ≤ 3 → (∃ k < d.len, s.m.ddrAllowed (d.daddr + 64 * (k : Int)) = false) →
        Completes (.sluiceDescriptorStart e) s fun m' =>
          (m'.reg (rMemSluErr e)).getLsbD 5 = true ∧ m'.mem = s.m.mem ∧ m'.tiles = s.m.tiles)
      ∧ (d.inRange = false → Completes (.sluiceDescriptorStart e) s fun m' =>
          (m'.reg (rMemSluErr e)).getLsbD 6 = true ∧ m'.flights = s.m.flights ∧ m'.chanQ = s.m.chanQ ∧ m'.mem = s.m.mem
            ∧ ∃ r, (m'.engine e).inflight = x.inflight ++ [r] ∧ r.left = 0 ∧ r.drops = d.len ∧ r.range = true))

/-- A sluice engine takes descriptors from its queue, completes them in order with record, signal and reply, is aborted, and
faults. (R124, R125, R126, R128, R380) -/
def Obligations.SluiceEnginesCompleteAbortAndFault : Prop :=
  ∀ (s : State) (e : Fin 32),
    let x := s.m.engine e
    let id : BitVec 16 := BitVec.ofNat 16 (0x4000 + e.val)
    (∀ (v : Slot) q, s.m.engineQueue e = some q → x.mode ≠ .plan → s.m.qReady q 4 = true → x.st ≠ .fault → x.st ≠ .revoked →
      let d := sluDesc (slotBytes v)
      let bad := sluReserved (slotBytes v) || !d.fieldsOk || !d.inRange
      (bad = true → Completes (.sluiceQueueDescriptor e v) s ((s.m.qTake q).Raised · (rMemSluErr e) 6))
        ∧ (bad = false → Completes (.sluiceQueueDescriptor e v) s fun m' =>
          exec (.sluiceDescriptorStart e)
            { s with m := (s.m.qTake q).setEngine e { x with queued := x.queued ++ [((s.m.queue q).ci.toNat, d)] } } = .next { s with m := m' }))
    ∧ (∀ r rest, x.inflight = r :: rest → r.left = 0 → x.st ≠ .fault → x.st ≠ .revoked →
      Completes (.sluiceComplete e) s fun m' => ∃ b : Mach,
        (b.engine e).inflight = rest
          ∧ b.flights = s.m.flights ++ (if r.desc.crec then
            [{ writer := id, target := .slot r.desc.ctile r.desc.cslot, data := some (bytesSlot r.record), ovr := false, gen := some r.cgen,
               issue := s.m.cyc, due := s.m.cyc, blocked := false, owner := .crec e }] else [])
          ∧ b.signals = s.m.signals ++ (if r.desc.csig then
            [{ latch := r.desc.clatch, amount := r.desc.ccnt, src := id, issue := s.m.cyc, due := s.m.cyc }] else [])
          ∧ b = { s.m with engines := b.engines, flights := b.flights, signals := b.signals }
          ∧ (∀ k, k ≠ e.val → b.engine k = s.m.engine k)
          ∧ m' = match s.m.engineQueue e with
            | some q => if x.mode = .plan then b else
                b.qReply q (padTo 16 (leBytes 4 r.index ++ leBytes 2 r.status ++ leBytes 2 (min r.drops 0xFFFF)))
            | none => b)
    ∧ (s.m.hostWrites (rMemSluCtl e) = true → s.m.variant.hasEngine e = true → x.st ≠ .fault → x.st ≠ .revoked →
      Gives (.sluiceAbort e) s ((s.m.dropInflight e).setEngine e
        { (s.m.dropInflight e).engine e with st := .idle, aborted := x.mode == .plan }))
    ∧ (s.m.variant.hasEngine e = true → Completes (.sluiceFault e) s
      ((s.m.setEngine e { x with st := .fault }).Raised · (rMemSluErr e) 4))

/-- LEASE_EXPIRY reports a holder that is not live, and a revocation takes its latches, windows and inbound buffer and zeroes
what they covered. (R122, R129, R132, R133, R134, R135, R441, R443) -/
def Obligations.LeasesExpireAndAreRevoked : Prop :=
  ∀ s : State,
    let since := fun (h : Holder) => ∃ t0, (h, t0, false) ∈ s.m.notLive ∧ t0 + 1000 * s.m.rbits rMemLease 15 0 ≤ s.m.tb1
    (∀ h : Holder, s.m.live h = false → s.m.hasLeases h = true → since h → s.m.bit rMemLease 16 = false →
      Completes (.leaseExpiry h) s fun m' =>
        ({ s.m with notLive := s.m.notLive.map fun p => if p.1 = h then (h, p.2.1, true) else p } : Mach).OnlyReported m'
          ∧ m'.bit rMemLeaseStat 0 = true)
    ∧ (∀ h : Holder, s.m.live h = true ∨ (∀ t0, (h, t0, false) ∈ s.m.notLive → s.m.tb1 < t0 + 1000 * s.m.rbits rMemLease 15 0) →
      Gives (.leaseExpiry h) s s.m)
    ∧ (∀ t : TileIdx, s.m.revoked.contains (.tile t) = false →
      let gone := fun m' : Mach =>
        (∀ p ∈ s.m.latches, p.2.owner = BitVec.ofNat 16 t → p.2.st = .held → (m'.latch p.1).st = .revoked ∧ (m'.latch p.1).count = 0)
          ∧ (∀ w < 8, (s.m.win t w).used = true →
            m'.win t w = { s.m.win t w with isOpen := false, gen := (s.m.win t w).gen % 4095 + 1, revoked := true })
          ∧ (∀ w < 8, (s.m.win t w).used = true → (s.m.win t w).kind = false → ∀ k, (s.m.win t w).base ≤ k → k ≤ (s.m.win t w).limit →
            m'.slot t k = 0 ∧ m'.tag t k = false ∧ m'.skew t k = 0)
          ∧ (∀ a, (∀ w < 8, (s.m.win t w).used = true → (s.m.win t w).kind = false →
            ¬(spadAddr t (s.m.win t w).base ≤ a ∧ a < spadAddr t (s.m.win t w).limit + 64)) →
              readByte m'.mem.spad a = readByte s.m.mem.spad a)
          ∧ m'.inbox = s.m.inbox.filter (fun e => e.tile != t) ∧ m'.mem.ddr = s.m.mem.ddr ∧ m'.mem.pmem = s.m.mem.pmem
          ∧ m'.tiles = s.m.tiles ∧ m'.revoked = s.m.revoked ++ [.tile t]
          ∧ ∃ n, m'.revoking = s.m.revoking ++ [(.tile t, n, false)]
      (s.m.live (.tile t) = false → s.m.hasLeases (.tile t) = true → since (.tile t) → s.m.bit rMemLease 16 = true →
        Completes (.leaseExpiry (.tile t)) s gone)
      ∧ ∀ (r : Fin 32) (p : Rsp), s.m.flt.startedOf r 6 = some p → s.m.scrubbing = false → sourceHolder p.ev = some (.tile t) →
        Completes (.actRevoke r) s gone)
    ∧ (let stops := fun (e : Nat) (m' : Mach) =>
        (m'.engine e).st = .revoked ∧ (m'.engine e).plan = [] ∧ (m'.engine e).queued = [] ∧ (m'.engine e).inflight = []
          ∧ m'.mem = s.m.mem ∧ m'.tiles = s.m.tiles ∧ m'.inbox = s.m.inbox
      s.m.bit rMemLease 16 = true →
      (∀ e : Fin 32, s.m.revoked.contains (.engine e) = false → s.m.live (.engine e) = false → since (.engine e) → (s.m.engine e).mode = .plan →
        Completes (.leaseExpiry (.engine e)) s (stops e))
      ∧ ∀ (q : Fin 8192) (p : Nat × Engine), s.m.revoked.contains (.queue q) = false → s.m.live (.queue q) = false → since (.queue q) →
        s.m.qType q = 4 → (s.m.engines.find? fun p => p.2.feeds && p.2.queue == q.val) = some p →
        Completes (.leaseExpiry (.queue q)) s (stops p.1))
    ∧ (s.m.revoking ≠ [] → Completes .revocationComplete s fun m' =>
      ({ s.m with revoking := [] } : Mach).OnlyReported m' ∧ m'.bit rMemLeaseStat 1 = true)

/-- PATROL_SCRUB corrects or reports an error, PMEM_UE stops its tile, and the counters of MEM and FAB clear. (R70, R136, R137,
R432, R439) -/
def Obligations.MemoryErrorsAndCountersAreReported : Prop :=
  ∀ s : State,
    (∀ (st : Fin 6) (g : BitVec 22), Completes (.patrolScrub (.stack st g)) s fun m' =>
      ({ s.m with mem := { s.m.mem with
          eccStack := s.m.mem.eccStack.filter fun e => !(e.1 / 4 == st.val * 2 ^ 22 + g.toNat && e.2 == .ce) } } : Mach).OnlyReported m'
        ∧ m'.reg (rMemStkCe st) = satAdd (s.m.reg (rMemStkCe st)) ((s.m.granErrors st g.toNat).count .ce)
        ∧ (s.m.Canon → m'.granErrors st g.toNat = (s.m.granErrors st g.toNat).filter (· == .ue)))
    ∧ (∀ g : BitVec 31, let a := 64 * g.toNat
      Completes (.patrolScrub (.ddr g)) s fun m' =>
        ({ s.m with mem := { s.m.mem with
            eccDdr := s.m.mem.eccDdr.filter fun e => !(e.1 / 8 == g.toNat && e.2 == .ce) } } : Mach).OnlyReported m'
          ∧ m'.reg (rMemDdrCe (s.m.ddrChannel a)) = satAdd (s.m.reg (rMemDdrCe (s.m.ddrChannel a))) ((s.m.ddrErrors a).count .ce)
          ∧ (s.m.Canon → m'.ddrErrors a = (s.m.ddrErrors a).filter (· == .ue))
          ∧ (s.m.ddrEcc a = .ue → m'.bit rMemDdrStat (s.m.ddrChannel a) = true))
    ∧ (∀ t : TileIdx, (s.m.tile t).mode = .run → Completes (.pmemUe t) s
      ((s.m.setTile t { s.m.tile t with mode := .fault, bundle := [], held := none, closed := false }).Raised · (rTileErr t) 1))
    ∧ (s.m.hostWrites rMemCeClr = true → Completes .memCeClr s fun m' =>
      m' = { s.m with regs := m'.regs } ∧ (∀ k < 6, m'.reg (rMemStkCe k) = 0) ∧ (∀ k < 8, m'.reg (rMemDdrCe k) = 0)
        ∧ ∀ a, (∀ k < 6, a ≠ rMemStkCe k) → (∀ k < 8, a ≠ rMemDdrCe k) → m'.reg a = s.m.reg a)
    ∧ ∀ t : TileIdx, s.m.hostWrites (rTileCntCtl t) = true →
      Gives (.tileCntClr t) s (s.m.setTile t { s.m.tile t with
        cntIssue := 0, cntHtag := 0, cntHlat := 0, cntHbank := 0, cntHque := 0, cntPred := 0 })

/-- RESPONSE starts the first action called for, and each action acts and ends with its status. (R439, R440, R441, R442, R447) -/
def Obligations.ResponsesStartAndEndWithTheirStatus : Prop :=
  ∀ (s : State) (r : Fin 32),
    let ends := fun (m m' : Mach) (action status : Nat) => m' = m.endAction r action status ∧ m'.rbits (rRspStat r) 7 0 = status
    (∀ p rest, s.m.flt.rsps = p :: rest → bitAt (s.m.reg (rRspAct p.entry)) 31 = true →
      let act := s.m.reg (rRspAct p.entry)
      let m : Mach := { s.m with flt := { s.m.flt with
        rsps := rest, started := s.m.flt.started ++ [{ p with action := bits act 27 24, arg := bits act 15 0 }] } }
      Gives .response s (if bitAt act 30 then m else m.putBit (rRspAct p.entry) 31 false))
    ∧ (∀ p, s.m.flt.startedOf r 0 = some p → Completes (.actNone r) s (ends (s.m.acting p) · 0 0))
    ∧ (∀ p, s.m.flt.startedOf r 1 = some p → Completes (.actFieldSafe r) s (ends (s.m.acting p).queueForceSafe · 1 0))
    ∧ (∀ p, s.m.flt.startedOf r 3 = some p → Completes (.actPortOff r) s fun m' => match offPort p 6 12 with
      | some k => ends ((s.m.acting p).portOff k) m' 3 0
      | none => ends (s.m.acting p) m' 3 2)
    ∧ (∀ p, s.m.flt.startedOf r 4 = some p → Completes (.actRingPortOff r) s fun m' => match offPort p 0xB 4 with
      | some k => ends ((s.m.acting p).ringPortOff k) m' 4 0
      | none => ends (s.m.acting p) m' 4 2)
    ∧ (∀ p, s.m.flt.startedOf r 5 = some p → Completes (.actWeaveStop r) s (ends (s.m.acting p).stopNow · 5 0))
    ∧ (∀ p, s.m.flt.startedOf r 7 = some p → Completes (.actDump r) s fun m' =>
      ends ((s.m.acting p).triggerDump (some p.ev) true) m' 7 (if s.m.dumpTaken then 3 else 0)
        ∧ m'.mem = s.m.mem ∧ m'.tiles = s.m.tiles)
    ∧ (∀ p, s.m.flt.startedOf r 2 = some p → Gives (.actFieldResume r) s { s.m with flt := { s.m.flt.dropStarted p with
        waits := s.m.flt.waits ++ [{ p with till := s.m.tb1 + 1000000 * max 1 p.arg }] } })
    ∧ ∀ p, (s.m.flt.waits.find? fun w => w.entry == r.val) = some p →
      let m : Mach := { s.m with flt := { s.m.flt with waits := s.m.flt.waits.erase p } }
      (s.m.crossingReady = true → Completes (.actFieldResumeWaitEnd r) s (ends m.queueResume · 2 0))
        ∧ (s.m.crossingReady = false → p.till ≤ s.m.tb1 → Completes (.actFieldResumeWaitEnd r) s (ends m · 2 1))

/-- STAGE, DISCARD, LOAD, STOP and ABORT act on the bank table and on the running weave, and a commit shows as one change of the
bank table. (R480, R481, R482, R483, R484, R490) -/
def Obligations.WeaveCommandsStageDiscardLoadAndStop : Prop :=
  ∀ (s : State) (ctl : W32),
    let m := s.m.wvTaken ctl
    let a := m.wvArgs
    let img := m.hostBytes (argImg a) (argLen a)
    (s.m.WvTakes 1 ctl → s.m.pwr.ddrReady = true → m.checkImage img = none → m.flash.used + img.length ≤ bankArea →
      (m.flash.sets.lookup m.curKey).isSome = true ∨ m.flash.sets.length < 17 →
      let m := m.readHost (argImg a) (argLen a)
      (s.m.sec.sdev = none → Gives (.weaveStage ctl) s ((m.commitBanks fun c =>
        { c with staged := some { img := img, key := none, digest := weaveDigest img, head := none } }).wvEnd 1 (argRes a) none
          { digest := weaveDigest img }))
      ∧ ∀ sd, s.m.sec.sdev = some sd →
        let iv := leBytes 12 (Config.drbg m.freeCtr).toNat
        let c := gcmSeal (BitVec.ofNat 256 (leNat (kSeal sd (weaveDigest img)))) iv [] img
        Gives (.weaveStage ctl) s ((({ m with freeCtr := m.freeCtr + 1 } : Mach).commitBanks fun k =>
          { k with staged := some { img := c.1, key := some (iv, c.2), digest := weaveDigest img, head := none } }).wvEnd 1 (argRes a) none
            { digest := weaveDigest img }))
    ∧ (s.m.WvTakes 6 ctl → s.m.pwr.ddrReady = true → Gives (.weaveDiscard ctl) s
        ((m.commitBanks fun c => { c with staged := none }).wvEnd 6 (argRes a) none {}))
    ∧ (∀ b, s.m.WvTakes 2 ctl → s.m.mayLoad = true → s.m.hif.lot.isOpen = false → s.m.wv.running = [] → m.banks.active = some b →
      Gives (.weaveLoad ctl) s (if (weaveOfImage b.img).budgets then m.wvBegin (newCmd 2 .loading (some b) none a false m.tb1) false
        else m.wvEnd 2 (argRes a) (some ⟨0xB, 0xD, 0, 0⟩) { digest := b.digest }))
    ∧ (s.m.WvTakes 5 ctl → s.m.wv.running ≠ [] → s.m.hif.lot.isOpen = false →
      Gives (.weaveStop ctl) s (if argFlag a 2 then (m.flushAll .flush).unloadAll.unloadRecipe.wvEnd 5 (argRes a) none {}
        else ({ m with wv := { m.wv with drain := some (argP1 a, none) } } : Mach).wvBegin
          (newCmd 5 .waitStop none none a true m.tb1) true))
    ∧ (∀ c, s.m.WvTakes 7 ctl → s.m.wv.cmd = some c → m.cmdPending c = true → Completes (.weaveAbort ctl) s fun m' =>
      m' = (m.abortCmd c).wvEnd 7 (argRes a) none {} ∧ m'.wv.cmd = none ∧ m'.flash = s.m.flash)
    ∧ ∀ f : BankCopy → BankCopy, (s.m.commitBanks f).banksOf s.m.curKey =
        { f (s.m.banksOf s.m.curKey) with seq := (s.m.banksOf s.m.curKey).seq + 1, ok := true }
      ∧ (∀ k, k ≠ s.m.curKey → (s.m.commitBanks f).banksOf k = s.m.banksOf k)
      ∧ ∃ x, s.m.commitBanks f = { s.m with flash := { s.m.flash with sets := x } }

/-- ACTIVATE and ROLLBACK begin a swap of an admitted pair, and RECIPE puts an admitted recipe in force for the running weave.
(R386, R387, R412, R481, R484, R486, R487, R489) -/
def Obligations.SwapsBeginAndRecipesLoad : Prop :=
  ∀ s : State,
    (∀ (ctl : W32) (op : Nat) (b : BankImg),
      let m := s.m.wvTaken ctl
      let a := m.wvArgs
      let staged := if op = 3 then m.banks.staged else m.banks.previous
      let w := weaveOfImage b.img
      let m := if argFlag a 1 then m.readHost (argRcp a) (argRcpLen a) else m
      let x := m.admitPair w a
      let c : Instr := if op = 3 then .weaveActivate ctl else .weaveRollback ctl
      op = 3 ∨ op = 4 → s.m.WvTakes op ctl → s.m.mayLoad = true → staged = some b →
      x.err = none →
      (s.m.wv.running = [] → Gives c s (m.wvBegin (newCmd op .loading (some b) x.recipe a false m.tb1) false))
      ∧ ∀ old, s.m.wv.running.getLast? = some old →
        (argFlag a 0 = true → Gives c s (({ m with wv := { m.wv with drain := some (argP1 a, none) } } : Mach).wvBegin
          (newCmd op .waitStop (some b) x.recipe a true m.tb1) true))
        ∧ (argFlag a 0 = false → Gives c s (match fitErr (weaveOfImage old.img) w old.recipe x.recipe with
          | none => m.wvBegin (newCmd op .loading (some b) x.recipe a false m.tb1) true
          | some e => m.wvEnd op (argRes a) (some e) { digest := b.digest, report := x.report })))
    ∧ ∀ (q : Fin 8192) (ent : Slot) (r : RunWeave),
      let e := slotBytes ent
      let m := s.m.qTake q
      let off := fieldAt e 8 8
      let len := fieldAt e 16 4
      let res := fieldAt e 24 8
      let isSealed := (fieldAt e 1 1).testBit 0
      let w := weaveOfImage r.img
      let n := m.readHost off len
      let x := if isSealed then (match n.openRecipe (n.hostBytes off len) with
        | some i => n.admitImage w i
        | none => recipeRefused) else n.admitImage w (n.hostBytes off len)
      s.m.CmdTakes q ent 1 → fieldAt e 1 1 ≤ 1 → reservedZero e [(8, 12), (24, 8)] = true → off % 64 = 0 → res % 64 = 0 →
      s.m.inHost off len = true → s.m.inHost res 128 = true →
      (s.m.hif.lot.isOpen = true → Completes (.recipeLoad q ent) s fun m' =>
        m'.prep = s.m.prep ∧ m'.wv = s.m.wv ∧ m'.hif.lot = s.m.hif.lot)
      ∧ (s.m.hif.lot.isOpen = false → s.m.wv.running.getLast? = some r → r.started = true → s.m.wv.cmd = none → s.m.fabricHeld = false →
        s.m.sec.conf = false ∨ isSealed = true →
        (x.recipe = none → Completes (.recipeLoad q ent) s fun m' =>
          m' = n.recipeEnd q res 1 (fieldAt e 2 2) len (s.m.queue q).ci x.err { digest := r.digest, report := x.report }
            ∧ m'.prep = s.m.prep ∧ m'.wv = s.m.wv)
        ∧ ∀ rc, x.recipe = some rc → Completes (.recipeLoad q ent) s fun m' =>
          m'.prep.recipe = some rc ∧ m'.prep.serial = r.serial
            ∧ m' = ((({ n with wv := { n.wv with running := n.wv.running.map fun y =>
                if y.serial = r.serial then { y with recipe := some rc } else y } } : Mach).loadRecipe w r.serial rc).measureRecipe).recipeEnd
                  q res 0 (fieldAt e 2 2) len (s.m.queue q).ci none { digest := r.digest, report := x.report })

/-- P_STOP, DRAIN_END, LOAD_COMPLETE, P_SW, OLD_WEAVE_DONE and P_RESUME carry a weave command to its end and rotate the banks
once. (R258, R481, R483, R487, R489) -/
def Obligations.SwapsReachTheirPositionsAndRotateTheBanks : Prop :=
  ∀ (s : State) (c : WvCmd), s.m.adapt.run = none → s.m.sec.switching = none → s.m.wv.cmd = some c →
    let rotated := fun m' : Mach => m'.banks = { (if c.op = 3 then s.m.banks.activated else s.m.banks.rolledBack) with
      seq := s.m.banks.seq + 1, ok := true }
    (c.phase = .waitStop → s.m.reached c.p1 = true →
      Gives .pStop s (({ s.m with wv := { s.m.wv with cmd := some { c with phase := .draining } } } : Mach).putBit rGlbWvStat 29 false))
    ∧ (c.phase = .draining → s.m.drained c.p1 = true → Completes .drainEnd s fun m' =>
      (c.op = 5 → m'.wv.cmd = none ∧ m'.wv.drain = none ∧ m'.prep.recipe = none)
        ∧ (c.op ≠ 5 → m'.wv.cmd = some { c with phase := .loading, t0 := s.m.tb1 } ∧ m'.prep.recipe = s.m.prep.recipe)
        ∧ m'.flash = s.m.flash)
    ∧ (∀ b, c.new = some b → c.phase = .loading → b.sound = true → c.drain = false →
      (s.m.wv.running = [] → c.op = 2 → Completes .loadComplete s fun m' =>
        m'.wv.cmd = none ∧ (∃ v, m'.wv.running = [v] ∧ v.digest = b.digest ∧ v.img = b.img ∧ v.started = s.m.startsNow)
          ∧ m'.flash = s.m.flash ∧ m'.rbits rGlbWvStat 23 16 = 0)
      ∧ (s.m.wv.running = [] → c.op = 3 ∨ c.op = 4 → Completes .loadComplete s fun m' =>
        m'.wv.cmd = none ∧ rotated m' ∧ ∃ v, m'.wv.running = [v] ∧ v.digest = b.digest)
      ∧ (s.m.wv.running ≠ [] → Completes .loadComplete s fun m' =>
        (∃ v, m'.wv.running = s.m.wv.running ++ [v] ∧ v.digest = b.digest ∧ v.recipe = c.recipe
            ∧ v.since = if s.m.reached c.p1 then none else some c.p1)
          ∧ m'.wv.cmd = some { c with phase := .loaded, late := s.m.reached c.p1 } ∧ m'.flash = s.m.flash))
    ∧ (∀ b, c.new = some b → c.phase = .loading → b.sound = true → c.drain = true → Completes .loadComplete s fun m' =>
      (∃ v, m'.wv.running = s.m.wv.running ++ [v] ∧ v.digest = b.digest) ∧ (∃ d, m'.wv.cmd = some d ∧ d.phase = .loaded)
        ∧ m'.flash = s.m.flash)
    ∧ (∀ v p, s.m.wv.running.getLast? = some v → v.since = some p → 2 ≤ s.m.wv.running.length → c.drain = false → c.phase = .loaded →
      s.m.reached p = true → Completes .pSw s fun m' =>
        rotated m' ∧ m'.reg rGlbSwapPos = p ∧ m'.wv.running = s.m.wv.running ∧ m'.wv.cmd = some { c with phase := .overlap }
          ∧ (∀ r, v.recipe = some r → m'.prep.recipe = some r ∧ m'.prep.serial = v.serial))
    ∧ (∀ old v rest, s.m.wv.running = old :: v :: rest → c.phase = .overlap →
      (∀ x ∈ s.m.prep.outstanding, x.weave ≠ old.serial) → (∀ k ∈ s.m.prep.markers, 0 ≤ diff32 k.pos (v.since.getD 0)) →
      Completes .oldWeaveDone s fun m' =>
        m'.wv.running = s.m.wv.running.filter (fun x => x.serial != old.serial) ∧ m'.wv.cmd = none ∧ m'.flash = s.m.flash
          ∧ m'.rbits rGlbWvStat 23 16 = 0)
    ∧ (∀ v b, s.m.wv.running.getLast? = some v → c.new = some b → c.drain = true → c.phase = .loaded → s.m.reached c.p2 = true →
      Completes .pResume s fun m' =>
        rotated m' ∧ m'.reg rGlbSwapPos = c.p2 ∧ m'.wv.cmd = none ∧ m'.wv.running = s.m.wv.running
          ∧ (∀ r, v.recipe = some r → m'.prep.recipe = some r ∧ m'.prep.serial = v.serial))

/-- RUN, SELECT, COMMIT, DISCARD, EXPORT, CLEAR, STATUS and LABEL act on versions and labels and answer. (R253, R254, R256,
R257, R265, R267, R270, R272, R273, R274) -/
def Obligations.AdaptationCommandsAnswer : Prop :=
  ∀ (s : State) (q : Nat) (a : AdaptSec) (ent : Slot),
    let e := slotBytes ent
    let m := s.m.qTake q
    let tag := fieldAt e 2 2
    let v := fieldAt e 4 4
    (s.m.AdaptTakes q a ent 1 [(8, 12)] 3 → s.m.runBusy = false → s.m.adapt.labelCount ≠ 0 →
      s.m.adapt.slots.any Option.isNone = true → Completes (.adaptRun ent) s fun m' =>
        m' = m.beginRun true e tag m.nextVersion
          ∧ ∃ r, m'.adapt.run = some r ∧ r.isRun = true ∧ r.phase = .waitStop ∧ r.version = s.m.nextVersion ∧ r.status = 0)
    ∧ (s.m.AdaptTakes q a ent 2 [(4, 12)] 0 → s.m.runBusy = false → (m.version a v).isSome = true → Completes (.adaptSelect ent) s fun m' =>
      m' = m.beginRun false e tag v ∧ ∃ r, m'.adapt.run = some r ∧ r.isRun = false ∧ r.phase = .waitStop ∧ r.version = v)
    ∧ (∀ x, s.m.AdaptTakes q a ent 3 [(4, 4)] 0 → m.version a v = some x →
      let commits := fun (m : Mach) h => (m.commitBanks fun c =>
        { c with active := c.active.map fun k => { k with head := h } }).adaptAbout 3 tag x
      (v = 0 → Gives (.adaptCommit ent) s (commits m none))
      ∧ (v ≠ 0 → s.m.sec.sdev = none → Gives (.adaptCommit ent) s (m.adaptRefuse 3 0xA tag v))
      ∧ ∀ sd, v ≠ 0 → s.m.sec.sdev = some sd →
        let iv := leBytes 12 (Config.drbg m.freeCtr).toNat
        let c := gcmSeal (BitVec.ofNat 256 (leNat (kSeal sd m.adapt.weave))) iv [] x.bytes
        Gives (.adaptCommit ent) s (commits { m with freeCtr := m.freeCtr + 1 } (some { iv := iv, ct := c.1, tag := c.2 })))
    ∧ (∀ x, s.m.AdaptTakes q a ent 4 [(4, 4)] 0 → v ≠ s.m.adapt.active → (∀ r, s.m.adapt.run = some r → v ≠ r.parent ∧ v ≠ r.version) →
      s.m.adapt.slotOf v = some x → Gives (.adaptDiscard ent) s (({ m with adapt := { m.adapt with
        slots := s.m.adapt.slots.map fun s => match s with
          | some y => if y.num = v then none else some y
          | none => none } } : Mach).adaptAbout 4 tag x))
    ∧ (∀ x c ctx sd, s.m.AdaptTakes q a ent 5 [(4, 4)] 0 → m.version a v = some x → s.m.sec.resident = some c → s.m.ctx c = some ctx →
      s.m.sec.sdev = some sd → Completes (.adaptExport ent) s fun m' =>
        ∃ key id ivs, ∃ m1 : Mach,
          m1 = { m with freeCtr := m1.freeCtr }
          ∧ let y := m1.makeBlob 2 (zeros 32) (bytes32 m.adapt.weave) (pkOf (slice ctx.owner 64 64)) (bytes32 key) 0 c
              (alk sd (m.sec.m 0) m.sec.svn)
            m' = ({ y.2 with adapt := { m.adapt with exported := y.1 ++ packHead key id m.adapt.weave ivs a x } } : Mach).adaptAbout 5 tag x)
    ∧ (s.m.AdaptTakes q a ent 6 [] 0 → Gives (.adaptClear ent) s (if s.m.adapt.run.isSome
      then { m with adapt := { m.adapt with waitingClear := m.adapt.waitingClear ++ [BitVec.ofNat 16 tag] } }
      else ({ m with adapt := { m.adapt with labels := [] } } : Mach).adaptRefuse 6 0 tag 0))
    ∧ (s.m.AdaptTakes q a ent 7 [] 0 → Gives (.adaptStatus ent) s (m.adaptReply
      { op := 7, status := 0, tag := tag, version := m.adapt.active, parent := (m.activeVersion a).parent, nlab := m.adapt.labelCount,
        wdigest := some (m.activeVersion a).wdigest,
        w32 := (m.adapt.slots.mapIdx fun i s => if s.isSome then 2 ^ i else 0).foldl (· + ·) 0
          + (m.bootVersion.map fun b => b.num).getD 0 * 2 ^ 32 }))
    ∧ ∀ (lab : BitVec 128) (k : Nat), ((List.range 8192).find? fun k => s.m.qReady k 7) = some k → s.m.fabricHeld = false →
      let b := leBytes 16 lab.toNat
      let h := (s.m.qTake k).handleLabel b
      Gives (.adaptLabel lab) s (h.2.2.qReply k (b.take 6 ++ leBytes 1 h.1 ++ [0#8] ++ leBytes 4 h.2.2.adapt.labelCount ++ leBytes 4 h.2.1))

/-- A label record is stored, replaced, removed or refused by the first rule that applies. (R253, R254, R255) -/
def Obligations.LabelStoreTakesRecords : Prop :=
  ∀ (m : Mach) (a : AdaptSec) (b : List Byte), m.section = some a →
    let idx := fieldAt b 0 6
    let cls := fieldAt b 6 1
    let weight := fieldAt b 8 2
    let new : LabelPos := { idx := BitVec.ofNat 48 idx, cls := BitVec.ofNat 8 cls, weight := BitVec.ofNat 16 weight }
    let found := m.adapt.labels.findIdx? fun l => match l with
      | some x => x.idx.toNat == idx
      | none => false
    let entry := m.storeBytes (m.featAddr a idx) (64 * a.fsz)
    let bad := (∃ x ∈ slice b 7 1 ++ slice b 10 6, x ≠ 0) ∨ a.ncls ≤ cls
    let h := m.handleLabel b
    (bad → h = (5, 0xFFFFFFFF, m))
    ∧ (¬bad → weight = 0 →
      (∀ k, found = some k → h = (2, k, { m with adapt := { m.adapt with labels := setNth m.adapt.labels k none } }))
      ∧ (found = none → h = (2, 0xFFFFFFFF, m)))
    ∧ (¬bad → weight ≠ 0 → ∀ k, found = some k → h.1 = 1 ∧ h.2.1 = k ∧ h.2.2.adapt.labels = setNth m.adapt.labels k (some new)
      ∧ h.2.2 = ({ m with adapt := h.2.2.adapt } : Mach).setStore (m.labAddr a k + 8) (labelTail cls weight))
    ∧ (¬bad → weight ≠ 0 → found = none →
      (fieldAt entry 0 6 ≠ idx → h = (3, 0xFFFFFFFF, m))
      ∧ (fieldAt entry 0 6 = idx → fieldAt entry 6 2 % 16 ≠ 0 → h = (4, 0xFFFFFFFF, m))
      ∧ (fieldAt entry 0 6 = idx → fieldAt entry 6 2 % 16 = 0 → a.nmax ≤ m.adapt.labels.length → h = (6, 0xFFFFFFFF, m))
      ∧ (fieldAt entry 0 6 = idx → fieldAt entry 6 2 % 16 = 0 → m.adapt.labels.length < a.nmax →
        h.1 = 0 ∧ h.2.1 = m.adapt.labels.length ∧ h.2.2.adapt.labels = m.adapt.labels ++ [some new]
          ∧ h.2.2 = ({ m with adapt := h.2.2.adapt } : Mach).setStore (m.labAddr a m.adapt.labels.length)
            (entry.take 8 ++ labelTail cls weight ++ entry.drop 64)))

/-- A run drains, loads its section, runs epochs, ends or fails, and reloads the inference weave with the version that is active
from then on. (R257, R258, R259, R260, R262, R263, R264, R265, R268) -/
def Obligations.AdaptationRunsGoThroughTheirPhases : Prop :=
  ∀ (s : State) (r : AdaptRun) (a : AdaptSec), s.m.adapt.run = some r → s.m.adapt.sec = some a →
    let runIs := fun (m' : Mach) (x : AdaptRun) => m'.adapt.run = some x
    let late := r.tStart + ceilDiv (5 * a.wRun) 7 + 1000000 < s.m.tb1
    (r.phase = .waitStop → s.m.reached r.pStop = true →
      Gives .pStop s { s.m with adapt := { s.m.adapt with run := some { r with phase := .draining } } })
    ∧ (r.phase = .draining → s.m.drained r.pStop = true → Completes .drainEnd s fun m' =>
      runIs m' { r with phase := if r.isRun then .loading else .reloading, serial := s.m.prep.serial } ∧ m'.flash = s.m.flash)
    ∧ (r.phase = .loading → Completes .loadComplete s fun m' =>
      (∃ x, runIs m' x ∧ x.phase = .running ∧ x.version = r.version ∧ x.nlab = s.m.adapt.labelCount
          ∧ x.slot = (s.m.adapt.slots.findIdx? Option.isNone).getD 0) ∧ m'.adapt.labels = s.m.adapt.labels
        ∧ m'.wv = s.m.wv ∧ m'.flash = s.m.flash)
    ∧ (r.phase = .running → r.status = 0 → s.m.allHalted a = false → ∀ w, (s.m.waits.find? fun w => w.who == Waiter.prep 0) = some w →
      w.granted.isSome = true → Gives .epochStart s { s.m with
        waits := s.m.waits.filter (fun v => v.who != Waiter.prep 0)
        flights := s.m.flights ++ (List.range a.nmax).map (fun k =>
          ({ writer := 0xC002, target := .slot a.ringTile ((a.ringSlot + (r.ring + k) % a.ringLen) % 8192),
             data := some (runDesc ((s.m.adapt.labels[k]?).getD none)), ovr := false, gen := none, issue := s.m.cyc, due := s.m.cyc,
             blocked := false, owner := .none } : Flight))
        adapt := { s.m.adapt with run := some { r with ring := r.ring + a.nmax } } })
    ∧ (r.phase = .running → r.status ≠ 0 ∨ s.m.runTainted a = true ∨ late → Completes .runEnd s fun m' =>
      runIs m' { r with phase := .reloading, status := if r.status ≠ 0 then r.status else if s.m.runTainted a then 6 else 7 } ∧ m'.adapt.slots = s.m.adapt.slots
        ∧ m'.adapt.labels = s.m.adapt.labels ∧ m'.mem = s.m.mem)
    ∧ (r.phase = .running → r.status = 0 → s.m.runTainted a = false → ¬late → s.m.allHalted a = true → s.m.plansDone a = true →
      Completes .runEnd s fun m' =>
        (∃ x, runIs m' x ∧ x.phase = .reloading ∧ x.status = 0 ∧ x.wdigest = s.m.headDigest a)
          ∧ m'.adapt.labels = (if r.keep then s.m.adapt.labels else [])
          ∧ (∃ x : VersionSlot, m'.adapt.slots = setNth s.m.adapt.slots r.slot (some x) ∧ x.num = r.version ∧ x.parent = r.parent
              ∧ x.data = headData s.m.mem.stack a ∧ x.wdigest = s.m.headDigest a
              ∧ x.masters = s.m.storeBytes (s.m.versionAt r.slot).1 (s.m.versionAt r.slot).2)
          ∧ m'.mem = s.m.mem)
    ∧ (r.phase = .running → r.tStart + ceilDiv (5 * a.wRun) 7 + 1000000 ≤ s.m.tb1 → Completes .runTimeout s fun m' =>
      runIs m' { r with phase := .reloading, status := if r.status = 0 then 7 else r.status } ∧ m'.adapt.slots = s.m.adapt.slots)
    ∧ (∀ b, r.phase = .reloading → s.m.banks.active = some b → Completes .loadComplete s fun m' =>
      let now := if r.isRun then (if r.status = 0 ∧ r.nosel = false then r.version else s.m.adapt.active) else r.version
      let n : Mach := { s.m with adapt := { s.m.adapt with active := now } }
      (∃ x, runIs m' x ∧ x.phase = .waitResume)
        ∧ m'.adapt.active = now ∧ m'.mem.stack = (n.writeHead (n.activeVersion a)).mem.stack
        ∧ ∃ v, m'.wv.running = s.m.wv.running ++ [v] ∧ v.digest = b.digest ∧ v.started = true)
    ∧ (r.phase = .waitResume → s.m.reached r.pResume = true → Completes .pResume s fun m' =>
      m'.adapt.run = none ∧ m'.adapt.waitingClear = [] ∧ m'.reg rGlbSwapPos = r.pResume ∧ m'.wv = s.m.wv ∧ m'.mem = s.m.mem)

/-- A stem takes its port's next line, writes a due row to its ring in unit order, drops rows whose place is held, and reports
finished rows. (R180, R181, R182, R183, R184, R194, R211, R228, R239) -/
def Obligations.StemEnginesTakeLinesAndWriteRows : Prop :=
  ∀ (s : State) (die : Fin 2) (port : Fin 6),
    let p := 6 * die.val + port.val
    let x := s.m.stem p
    let q := s.m.port p
    let c := x.cfg
    (∀ l rest, q.vbuf = l :: rest → c.en = true → l.r.l / c.b < x.oldest + c.kh + 1 → Gives (.stemLineTake die port) s
      ((s.m.setPort p { q with vbuf := rest }).setStem p { x with store := x.store ++ [l], taken := l.r.l + 1 }))
    ∧ (c.en = true → x.due q.vbuf.isEmpty = true →
      (∃ k, k / 6 = die.val ∧ k ≠ p ∧ s.m.stemDue k = true
        ∧ ((s.m.stem k).dueSince < x.dueSince ∨ ((s.m.stem k).dueSince = x.dueSince ∧ k < p))) → Gives (.stemRowWrite die port) s s.m)
    ∧ (c.en = true → x.due q.vbuf.isEmpty = true →
      (∀ k, k / 6 = die.val → k ≠ p → s.m.stemDue k = true →
        x.dueSince < (s.m.stem k).dueSince ∨ (x.dueSince = (s.m.stem k).dueSince ∧ p < k)) →
      let n := s.m.ringReady p
      let y := n.stem p
      let rsl := y.cfg.rsl (n.portWidth p)
      (y.nextRow < y.released + y.cfg.ringRows →
        Completes (.stemRowWrite die port) s fun m' =>
          m'.flights = n.flights ++ (List.range rsl).map (fun u =>
            ({ writer := BitVec.ofNat 16 (0xC000 + p / 6),
               target := .gran y.cfg.stack (y.cfg.base + (y.nextRow % y.cfg.ringRows) * rsl + u), data := some (y.unit (n.portWidth p) y.nextRow u), ovr := false,
               gen := none, issue := n.cyc, due := n.cyc, blocked := false, owner := .stem p y.nextRow } : Flight))
            ∧ (m'.stem p).nextRow = y.nextRow + 1
            ∧ (m'.stem p).checking = y.checking ++ [(y.nextRow, rsl, false, y.wecc == Ecc.ue)]
            ∧ (∀ k, k ≠ p → m'.stem k = n.stem k) ∧ m'.ports = n.ports ∧ m'.prep = n.prep ∧ m'.mem = n.mem
            ∧ (y.wecc = .ok → m'.regs = n.regs))
      ∧ (y.released + y.cfg.ringRows ≤ y.nextRow →
        Completes (.stemRowWrite die port) s fun m' =>
          m'.flights = n.flights ∧ m'.mem = n.mem ∧ (m'.stem p).nextRow = y.nextRow + n.restOfFrame p y
            ∧ m'.prep.rows = n.prep.rows ++ (List.range (n.restOfFrame p y)).map (fun i =>
              ({ die := p / 6, port := p % 6, row := y.nextRow + i, dropped := true, ue := false, t := n.tb1 } : RowRep))
            ∧ m'.port p = (match (n.port p).frame, n.rowsFrameOpen p y.nextRow with
              | some f, true => { n.port p with drop := true, frame := some { f with ovf := true } }
              | _, _ => n.port p)
            ∧ (n.rowsFrameOpen p y.nextRow = false → (m'.reg (rPortErr (p / 6) (p % 6))).getLsbD 10 = true)
            ∧ (m'.reg (rStemErr (p / 6))).getLsbD 2 = true))
    ∧ (x.nextRow < x.released + c.ringRows → s.m.ringReady p = s.m)
    ∧ (x.released + c.ringRows ≤ x.nextRow → s.m.ringReady p = s.m.sweep.release p)
    ∧ ∀ r dropped ue rest, x.checking = (r, 0, dropped, ue) :: rest → Completes (.stemRowDone die port) s fun m' =>
      m' = { s.m with stems := m'.stems, regs := m'.regs, prep := { s.m.prep with rows := s.m.prep.rows ++
          [{ die := p / 6, port := p % 6, row := r, dropped := dropped, ue := ue, t := s.m.tb1 }] } }
        ∧ (m'.stem p).checking = rest
        ∧ m'.reg (rStemRows (p / 6) (p % 6)) =
            (if s.m.sec.conf then s.m.reg (rStemRows (p / 6) (p % 6)) else s.m.reg (rStemRows (p / 6) (p % 6)) + 1)

/-- A sampler waits for its gate, reads its boxes and its map at the channels, writes the crops of a job, completes, is aborted,
and faults. (R102, R103, R186, R187, R188, R189, R190, R191, R192, R193, R194) -/
def Obligations.RoiSamplersRunTheirJobs : Prop :=
  ∀ (s : State) (d : Fin 2),
    let x := s.m.roi d
    let id : BitVec 16 := BitVec.ofNat 16 (0xC003 + d.val)
    let asks := fun (st : Nat) (l : List Nat) => l.map fun g =>
      ({ stack := st, gran := g, requester := 0xC003 + d.val, sched := false, due := s.m.cyc, read := some (.roi d), write := none } : ChanReq)
    (∀ j, x.jobs[x.job]? = some j → x.planMode = true → x.aborted = false → x.st = .idle ∨ x.st = .gate → x.start ≤ s.m.cyc →
      (j.gate = true → (s.m.waits.find? fun w => w.who == Waiter.roi d) = none →
        let m := ({ s.m with waits := s.m.waits ++
          [{ latch := j.glatch, who := .roi d, amount := j.gcnt, first := s.m.cyc, arrive := s.m.cyc, granted := none }] } : Mach).setRoi d
            { x with st := .gate }
        ((s.m.latch j.glatch).st ≠ .revoked → Gives (.roiJobStart d) s m)
          ∧ ((s.m.latch j.glatch).st = .revoked → Completes (.roiJobStart d) s (m.Raised · (rRoiErr d) 3)))
      ∧ (j.gate = false ∨ (∃ w, (s.m.waits.find? fun w => w.who == Waiter.roi d) = some w ∧ w.granted.isSome = true) →
        Completes (.roiJobStart d) s fun m' =>
          m'.chanQ = s.m.chanQ ++ asks j.bstack ((List.range ((j.maxb + 3) / 4 + 1)).map fun k => j.bgran.toNat + k)
            ∧ m'.roi d = { x with st := .read, left := (j.maxb + 3) / 4 + 1, got := [], listed := false, smp := 0, mask := 0, drops := 0,
                                  ue := false, ce := false, clamp := false }
            ∧ m'.flights = s.m.flights ∧ m'.mem = s.m.mem ∧ m'.tiles = s.m.tiles ∧ m'.regs = s.m.regs))
    ∧ (∀ j (st g : Nat), x.jobs[x.job]? = some j → s.m.granErrors st g = [] →
      let got := x.got ++ [(st * 2 ^ 22 + g, s.m.gran st g)]
      let seen := s.m.seenGrans got
      let list := seen.boxList j
      let used := list.2.2.mapIdx fun i b => if i < list.2.1 ∧ b.valid then some b else none
      let slots := used.flatMap fun b => (List.range j.oh).flatMap fun i => (List.range ((j.ow + 3) / 4)).flatMap fun g =>
        (List.range j.nk).map fun k => seen.cropSlot j b i g k
      let crops := fun m' : Mach =>
        m'.flights = s.m.flights ++ slots.mapIdx (fun i v =>
          ({ writer := id, target := .slot j.otile (j.oslot + (x.opos + i) % j.orl), data := some v, ovr := false, gen := none,
             issue := s.m.cyc, due := s.m.cyc, blocked := false, owner := .roi d } : Flight))
          ∧ (m'.roi d).st = .write ∧ (m'.roi d).left = slots.length ∧ (m'.roi d).opos = (x.opos + slots.length) % j.orl
          ∧ (m'.roi d).boxes = (if s.m.sec.conf then x.boxes else (x.boxes + (used.filter Option.isSome).length) % 2 ^ 64)
          ∧ m'.chanQ = s.m.chanQ ∧ m'.mem = s.m.mem
      let m' := s.m.roiGot d st g
      (x.left ≠ 1 → m' = s.m.setRoi d { x with got := got, left := x.left - 1 })
      ∧ (x.left = 1 → x.listed = true → crops m' ∧ m'.regs = s.m.regs)
      ∧ (x.left = 1 → x.listed = false → (m'.roi d).smp = BitVec.ofNat 48 list.1 ∧ (m'.roi d).clamp = decide (j.maxb < list.2.1)
        ∧ (j.maxb < list.2.1 → (m'.reg (rRoiErr d)).getLsbD 4 = true)
        ∧ (j.reads used = [] → crops m')
        ∧ (j.reads used ≠ [] → m'.chanQ = s.m.chanQ ++ asks j.fstack (j.reads used) ∧ (m'.roi d).left = (j.reads used).length
          ∧ (m'.roi d).got = got ∧ (m'.roi d).listed = true ∧ m'.flights = s.m.flights ∧ m'.mem = s.m.mem)))
    ∧ (∀ j (st g : Nat), x.jobs[x.job]? = some j → x.left ≠ 1 →
      let l := s.m.granErrors st g
      let m' := s.m.roiGot d st g
      m'.roi d = { x with got := x.got ++ [(st * 2 ^ 22 + g, s.m.gran st g)], left := x.left - 1, ue := x.ue || l.contains .ue,
                          ce := x.ce || ceCount l != 0 }
        ∧ (ceCount l ≠ 0 → (m'.reg (rRoiErr d)).getLsbD 0 = true) ∧ (l.contains .ue = true → (m'.reg (rRoiErr d)).getLsbD 1 = true))
    ∧ (∀ j, x.jobs[x.job]? = some j → x.st = .write → x.left = 0 →
      let rec_ : Flight := { writer := id, target := .slot j.ctile j.cslot, data := some (bytesSlot x.status), ovr := false, gen := none,
                             issue := s.m.cyc, due := s.m.cyc, blocked := false, owner := .rstat d }
      let sig : Signal := { latch := j.clatch, amount := j.ccnt, src := id, issue := s.m.cyc, due := s.m.cyc }
      Gives (.roiJobComplete d) s (({ s.m with
        flights := s.m.flights ++ [rec_], signals := s.m.signals ++ if j.csig then [sig] else [] } : Mach).setRoi d (x.next j)))
    ∧ (s.m.hostWrites (rRoiCtl d) = true → s.m.variant.hasDie d = true → x.st ≠ .fault → Gives (.roiAbort d) s
      (({ s.m with flights := s.m.flights.filter (fun f => f.owner != WOwner.roi d)
                   chanQ := s.m.chanQ.filter fun q => q.read != some (ReadFor.roi d)
                   waits := s.m.waits.filter fun w => w.who != Waiter.roi d } : Mach).setRoi d
          { x with st := .idle, aborted := true, left := 0, got := [] }))
    ∧ (s.m.variant.hasDie d = true → Completes (.roiFault d) s
      (((s.m.dropRoi d).setRoi d { x with st := .fault, left := 0, got := [] }).Raised · (rRoiErr d) 5))

/-- Camera ports and ring links are enabled, disabled and retrained, and weirs switch, with the effect of their rules on lanes,
links and frames. (R195, R201, R224, R229, R231, R344, R347, R352, R365, R366, R369, R370) -/
def Obligations.PortsRingLinksAndWeirsAreSwitched : Prop :=
  (∀ (s : State) (die : Fin 2) (port : Fin 6) (v : W32),
    let p := 6 * die.val + port.val
    let a := rPortCfg (p / 6) (p % 6)
    let n := s.m.writeReg a v
    s.m.hostUp = true → s.m.variant.hasDie (p / 6) = true →
    (∀ cable, bitAt v 0 = true → s.m.portEn p = false →
      ((n.putBit a 0 false).portOk p = false → Completes (.portEnable die port v cable) s
        ((n.putBit a 0 false).Raised · (rPortErr (p / 6) (p % 6)) 15))
      ∧ ((n.putBit a 0 false).portOk p = true → Completes (.portEnable die port v cable) s fun m' =>
        m'.portEn p = true ∧ (m'.port p).lidx = 0 ∧ (m'.port p).lastFn = none
          ∧ (m'.link p).stage = (if ((n.lanesOf p).all fun j => (laneClass (n.rbits (rClCtl j) 2 0) cable).isSome) then .locking else .failed)
          ∧ (∀ j ∈ n.lanesOf p, (m'.lane j).lock = false ∧ (m'.lane j).preset = laneClass (n.rbits (rClCtl j) 2 0) cable
            ∧ (m'.lane j).lowPower = cableLowPower cable)
          ∧ m'.lstate p = 1 ∧ (∀ k, k ≠ p → m'.port k = s.m.port k ∧ m'.link k = s.m.link k)
          ∧ m'.mem = s.m.mem ∧ m'.tiles = s.m.tiles))
    ∧ (∀ cable, bitAt v 0 = true → s.m.portEn p = true → Completes (.portEnable die port v cable) s fun m' =>
      if n.reg a = s.m.reg a then m' = s.m else s.m.Raised m' (rPortErr (p / 6) (p % 6)) 15)
    ∧ (bitAt v 0 = false → s.m.portEn p = false → Gives (.portDisable die port v) s n)
    ∧ (bitAt v 0 = false → s.m.portEn p = true → n.reg a ≠ (s.m.putBit a 0 false).reg a →
      Completes (.portDisable die port v) s (s.m.Raised · (rPortErr (p / 6) (p % 6)) 15))
    ∧ (bitAt v 0 = false → s.m.portEn p = true → n.reg a = (s.m.putBit a 0 false).reg a → Completes (.portDisable die port v) s fun m' =>
      m'.portEn p = false ∧ (m'.port p).frame = none ∧ m'.lstate p = 0 ∧ m'.link p = Link.off
        ∧ (∀ j ∈ s.m.lanesOf p, m'.lane j = Lane.quiet) ∧ (∀ k, k ≠ p → m'.port k = s.m.port k ∧ m'.link k = s.m.link k)
        ∧ m'.mem = s.m.mem ∧ m'.tiles = s.m.tiles ∧ m'.prep = s.m.prep))
    ∧ (∀ s : State,
    (∀ (p : Fin 4) (v : W32) (cable : Cable), s.m.hostUp = true → s.m.variant.absentReg (rRpCtl p) = false →
      let m := s.m.setReg (rRpCtl p) (rpCtlOf v)
      (s.m.bit (rRpCtl p) 0 = true → bitAt (rpCtlOf v) 0 = false → Gives (.ringLinkEnable p v cable) s
        ((s.m.ringPortOff p).setReg (rRpCtl p) (rpCtlOf v)))
      ∧ (s.m.bit (rRpCtl p) 0 = bitAt (rpCtlOf v) 0 → Gives (.ringLinkEnable p v cable) s m)
      ∧ (s.m.bit (rRpCtl p) 0 = false → bitAt (rpCtlOf v) 0 = true → Completes (.ringLinkEnable p v cable) s fun m' =>
        let c := laneClass (bits (rpCtlOf v) 3 1) cable
        (m'.link (12 + p.val)).stage = (if c.isSome = true then .locking else .off) ∧ m'.reg (rRpCtl p) = rpCtlOf v
          ∧ m'.reg (rRpStat p) = BitVec.ofNat 32 (c.elim 0 fun n => n * 2 ^ 8 + 1)
          ∧ (c = none → (m'.reg rLnkErr).getLsbD 8 = true)
          ∧ (∀ i ∈ s.m.lanesOf (12 + p.val), (m'.lane i).lock = false ∧ (m'.lane i).preset = c) ∧ m'.mem = s.m.mem ∧ m'.tiles = s.m.tiles))
    ∧ (∀ p : Fin 4, s.m.bit (rRpCtl p) 0 = true →
      let faulted := fun m' : Mach =>
        m' = s.m.faultLink p ∧ (m'.reg rLnkErr).getLsbD 4 = true
          ∧ (m'.link (12 + p.val)).stage
            = (if ((s.m.lanesOf (12 + p.val)).all fun i => (s.m.lane i).preset.isSome) then .locking else .off)
          ∧ (s.m.bit rLnkWrap 0 = true → s.m.ringOn = true → (m'.link (12 + p.val)).wrapped = true)
          ∧ m'.mem = s.m.mem ∧ m'.tiles = s.m.tiles
      (s.m.hostUp = true → Completes (.ringRetrain p) s faulted)
        ∧ ((s.m.link (12 + p.val)).stage ≠ .locking → (s.m.link (12 + p.val)).stage ≠ .off →
          Completes (.ringLinkFault p) s faulted))
    ∧ (∀ v : W32, s.m.hostUp = true →
      let w := bits v 1 0 % (if s.m.variant.io1 then 4 else 2)
      Gives (.weirInsert v) s ((s.m.setFld rLnkWeir 1 0 w).putBit rLnkWeir 6 (w != s.m.rbits rLnkWeir 5 4)))
    ∧ ∀ plane : Fin 2, s.m.bit rLnkWeir 6 = true → s.m.bit rLnkWeir plane ≠ s.m.bit rLnkWeir (4 + plane.val) →
      (Completes (.weirSwitchDone plane true) s fun m' =>
        m' = { s.m with regs := m'.regs } ∧ m'.bit rLnkWeir (4 + plane.val) = s.m.bit rLnkWeir plane
          ∧ ∀ a, a ≠ rLnkWeir → m'.reg a = s.m.reg a)
      ∧ Completes (.weirSwitchDone plane false) s fun m' =>
        s.m.OnlyReported m' ∧ (m'.reg rLnkErr).getLsbD 20 = true ∧ m'.bit rLnkWeir (4 + plane.val) = s.m.bit rLnkWeir (4 + plane.val))

/-- A lane locks, hears training blocks, answers with its own, steps its taps, and loses lock. (R338, R342, R345, R346, R347,
R350, R352, R365, R372) -/
def Obligations.LanesLockTrainAndLoseLock : Prop :=
  ∀ (s : State) (lane : LaneId),
    let j := laneNo lane
    let x := s.m.lane j
    (∀ (k : Nat) (marker : Option (BitVec 2)) (inv : Bool), s.m.linkOfLane j = some k →
      (s.m.link k).stage = .locking ∨ (s.m.link k).stage = .relock → x.preset.isSome = true →
      (x.lowPower = true → Gives (.blockLock lane marker inv) s s.m)
      ∧ (x.lowPower = false →
        let m := (s.m.setLane j { x with lock := true }).setCl j 3 3 1
        (k < 12 → Completes (.blockLock lane marker inv) s fun m' =>
          m' = m.onLocked k ∧ (m'.lane j).lock = true
            ∧ (m.allLocked k = true → (m'.link k).stage = if (s.m.link k).stage = .relock then .deskew else .mapping)
            ∧ (m.allLocked k = false → m'.links = s.m.links))
        ∧ (12 ≤ k → s.m.ringConnected (k - 12) = true → Completes (.blockLock lane marker inv) s fun m' =>
          let l := (j - 24) % 4
          let n := (if m.allLocked k = true then m.putBit (rRpStat (k - 12)) 3 true else m).putBit (rRpStat (k - 12)) (4 + l) inv
          m' = (if marker.any fun i => i.toNat != l then n.failRing (k - 12) 5 else n.onLocked k) ∧ (m'.lane j).lock = true)))
    ∧ (∀ (k : Nat) (o : W64) (inv : Bool), s.m.linkOfLane j = some k → trainingOk o = true → x.lock = true → (s.m.link k).stage ≠ .off →
      (12 ≤ k → Gives (.trainingBlock lane o inv) s
        ((((s.m.trainAlong k).setLane j (((s.m.trainAlong k).lane j).hear o inv)).askPartner k j).showTx k))
      ∧ Completes (.trainingBlock lane o inv) s fun m' =>
        (m'.lane j).seen = true ∧ (m'.lane j).inv = inv ∧ (m'.lane j).laneNo = BitVec.ofNat 2 (bits o 41 40)
          ∧ (m'.lane j).heard = BitVec.ofNat 2 (bits o 43 42) ∧ (m'.lane j).peerReady = bitAt o 36
          ∧ (k < 12 → ∀ i, i ≠ j → ∃ tx, m'.lane i = { s.m.lane i with tx := tx })
          ∧ m'.mem = s.m.mem ∧ m'.ports = s.m.ports)
    ∧ (let shown := fun m : Mach => (s.m.linkOfLane j).elim m fun k => m.showTx k
      (∀ n, x.reqSeen = true → x.reqPreset = some n → Gives (.tapUpdate lane) s
        (shown ((s.m.setLane j { x with reqSeen := false, reqPreset := none, stPre := 1, stPost := 1 }).setReg (tapsReg j)
          (BitVec.ofNat 32 ((48 - (presetTaps n.toNat).1 - (presetTaps n.toNat).2) * 2 ^ 16 + (presetTaps n.toNat).2 * 2 ^ 8
            + (presetTaps n.toNat).1)))))
      ∧ (x.reqSeen = true → x.reqPreset = none →
        let pre := tapStep x.reqPre (s.m.taps j).1 (s.m.taps j).2 8 x.stPre
        let post := tapStep x.reqPost (s.m.taps j).2 pre.1 20 x.stPost
        Gives (.tapUpdate lane) s (shown ((s.m.setLane j { x with reqSeen := false, stPre := pre.2, stPost := post.2 }).setReg (tapsReg j)
          (BitVec.ofNat 32 ((48 - pre.1 - post.1) * 2 ^ 16 + post.1 * 2 ^ 8 + pre.1))))))
    ∧ (∀ bad, bad < 16 → Gives (.blockLockLoss lane bad) s s.m)
    ∧ (∀ bad, 16 ≤ bad →
      let m := if s.m.receives j = true then s.m.addIhdr j bad else s.m
      (x.lock = false → Gives (.blockLockLoss lane bad) s m)
      ∧ (x.lock = true → 24 ≤ j → Gives (.blockLockLoss lane bad) s ((m.setLane j { x with lock := false }).faultLink ((j - 24) / 4)))
      ∧ (x.lock = true → j < 24 → Completes (.blockLockLoss lane bad) s fun m' => (m'.lane j).lock = false
          ∧ (∀ k, s.m.linkOfLane j = some k → (m'.reg rLnkErr).getLsbD 0 = true) ∧ m'.mem.spad = s.m.mem.spad ∧ m'.tiles = s.m.tiles))
    ∧ (∀ bad, x.lock = true → (∀ k, s.m.linkOfLane j = some k → (s.m.link k).stage ≠ .quality) →
      let m := if s.m.receives j = true then s.m.addIhdr j bad else s.m
      Gives (.windowFault lane bad) s (if 16 ≤ bad ∧ 24 ≤ j then m.faultLink ((j - 24) / 4) else m))

/-- QUALITY_CHECK, ADAPTIVE_TRAINING_END, DESKEW_DONE and the timeouts move a link from step to step, or fail it. (R338, R340,
R346, R347, R350, R352) -/
def Obligations.BringUpGoesStepByStep : Prop :=
  ∀ (s : State) (port : PortId),
    let k := linkNo port
    let x := s.m.link k
    let restarts := fun (m m' : Mach) (k : Nat) =>
      m' = m.startLink k
        ∧ (m'.link k).stage = (if ((s.m.lanesOf k).all fun i => (s.m.lane i).preset.isSome) then .locking else if k < 12 then .failed else .off)
        ∧ ∀ i ∈ s.m.lanesOf k, (m'.lane i).lock = false
    (∀ bad : List Nat, x.stage = .quality →
      let l := s.m.checked k bad
      let m := l.foldl (fun (m : Mach) e => m.badHeaders e.1 e.2) s.m
      ((∀ e ∈ l, e.2 = 0) → Completes (.qualityCheck port bad) s fun m' =>
        m' = m.checkPassed k ∧ (m'.link k).stage = (if k < 12 then .ready else .up) ∧ (12 ≤ k → m'.rpState (k - 12) = 3)
          ∧ (k < 12 → ∀ i ∈ s.m.lanesOf k, (m'.lane i).rxReady = true))
      ∧ ((∃ e ∈ l, e.2 ≠ 0) → (∀ e ∈ l, e.2 ≠ 0 → s.m.adaptOn k e.1 = true) → x.retried = false →
        Completes (.qualityCheck port bad) s fun m' =>
          m'.link k = { x with stage := .adapt, retried := true } ∧ m' = { s.m with links := m'.links, lanes := m'.lanes, regs := m'.regs })
      ∧ ((∃ e ∈ l, e.2 ≠ 0) → ((∃ e ∈ l, e.2 ≠ 0 ∧ s.m.adaptOn k e.1 = false) ∨ x.retried = true) →
        Gives (.qualityCheck port bad) s (if k < 12 then m.failCam k 1 else m.failRing (k - 12) 4)))
    ∧ (x.stage = .adapt → (12 ≤ k → ∀ i ∈ s.m.lanesOf k, (s.m.lane i).peerReady = true ∧ (s.m.lane i).rxReady = true) →
      Completes (.adaptiveTrainingEnd port) s fun m' =>
        m'.link k = { x with stage := .quality } ∧ m' = { s.m with links := m'.links, lanes := m'.lanes, regs := m'.regs }
          ∧ ∀ i ∈ s.m.lanesOf k, (m'.lane i).askPre = 0 ∧ (m'.lane i).askPost = 0)
    ∧ (∀ skew, x.stage = .deskew →
      (48 < skew → Gives (.deskewDone port skew) s (if k < 12 then s.m.failCam k 3 else s.m.failRing (k - 12) 3))
      ∧ (skew ≤ 48 → Completes (.deskewDone port skew) s fun m' =>
        m'.link k = { x with stage := if k < 12 then .up else .quality } ∧ (k < 12 → m'.lstate k = if s.m.lstate k = 5 then 5 else 2)
          ∧ m' = { s.m with links := m'.links, regs := m'.regs }))
    ∧ (x.stage = .locking → s.m.allLocked k = false → Gives (.lockTimeout port) s
        (if k < 12 then s.m.failCam k 1 else s.m.setLink k { x with timedOut := true }))
    ∧ (x.stage = .failed → Completes (.bringupRetry port) s (restarts s.m · k))
    ∧ (∀ (p : Fin 4), (s.m.link (12 + p.val)).timedOut = true →
      ((s.m.link (12 + p.val)).trial < 4 → Gives (.presetRetry p) s (((s.m.lanesOf (12 + p.val)).foldl (fun (m : Mach) j =>
          m.setTaps j (presetTaps (s.m.link (12 + p.val)).trial).1 (presetTaps (s.m.link (12 + p.val)).trial).2) s.m).setLink (12 + p.val)
            { s.m.link (12 + p.val) with timedOut := false, trial := (s.m.link (12 + p.val)).trial + 1 }))
      ∧ (4 ≤ (s.m.link (12 + p.val)).trial → Completes (.presetRetry p) s (restarts (s.m.raiseLnk 4 p) · (12 + p.val))))
    ∧ ∀ (die : Fin 2) (q : Fin 6), (s.m.link (6 * die.val + q.val)).stage = .relock →
      Completes (.relockTimeout die q) s (restarts s.m · (6 * die.val + q.val))

/-- FRAME_START opens a frame, LINE_START keeps the line's tag, FRAME_END closes the frame padded to its lines with one
statistics record. (R197, R198, R206, R207, R208, R211, R212, R213, R216, R218, R224) -/
def Obligations.FramesOpenAndClose : Prop :=
  ∀ (s : State) (die : Fin 2) (port : Fin 6) (blks : List Block) (k : Packet),
    let p := 6 * die.val + port.val
    Carries blks k → s.m.PacketTaken p k →
    let m := s.m.heard p k
    let x := m.port p
    let stat := rPortStat (p / 6) (p % 6)
    let count := rPortFrames (p / 6) (p % 6)
    let fabric := fun m' : Mach => m'.mem.spad = m.mem.spad ∧ m'.mem.stack = m.mem.stack ∧ m'.tiles = m.tiles
    (k.dt = 0 → Completes (.frameStart ⟨die, port⟩ blks) s fun m' =>
      (∃ f, (m'.port p).frame = some f ∧ f.fn = k.field.setWidth 8 ∧ f.gen = (k.field >>> 8).setWidth 8 ∧ f.lines = [] ∧ f.tfs = m'.tb1
          ∧ f.l0 = (m'.port p).lidx)
        ∧ (m'.port p).ls = none ∧ (m'.port p).lastFn = some (k.field.setWidth 8) ∧ m'.lstate p = 4 ∧ m'.bit stat 3 = true
        ∧ m'.bit (rPortFfc (p / 6) (p % 6)) 2 = m.bit (rPortFfc (p / 6) (p % 6)) 1 ∧ fabric m')
    ∧ (k.dt = 2 → x.frame.isSome = true → Gives (.lineStart ⟨die, port⟩ blks) s (m.setPort p { x with ls := some (k.field, m.stamp p) }))
    ∧ (k.dt = 3 → x.frame.isSome = true → Gives (.lineEnd ⟨die, port⟩ blks) s m)
    ∧ (∀ f, k.dt = 1 → x.frame = some f →
      let n := if k.field.setWidth 8 = f.fn then m else m.raisePort p 6
      Completes (.frameEnd ⟨die, port⟩ blks) s fun m' =>
        m' = n.closeFrame p .fe ∧ (m'.port p).frame = none ∧ (m'.port p).ls = none ∧ m'.bit stat 3 = false
          ∧ m'.reg count = satInc (m.reg count) ∧ (m'.port p).lidx = x.lidx + (m.portLines p - f.lines.length) ∧ fabric m'
          ∧ (m.portLines p ≤ f.lines.length → f.ovf = false →
            let d := (n.dropFrame p).inc count
            m' = (d.tapRing (p / 6) 0 (statRecord (p % 6) (d.reg count).toNat
              (2 * b2n f.long + 32 * b2n f.fnSkip + 64 * b2n f.ffcBypassed + 128 * b2n (f.lines.head?.any fun l => l.r.posv)) f)).addOverview p f))
    ∧ (x.frame = none → let gone := fun m' : Mach =>
        m' = (m.raisePort p 6).inc (rPortDisc (p / 6) (p % 6)) ∧ (m'.reg (rPortErr (p / 6) (p % 6))).getLsbD 6 = true ∧ fabric m'
      (k.dt = 2 → Completes (.lineStart ⟨die, port⟩ blks) s gone) ∧ (k.dt = 3 → Completes (.lineEnd ⟨die, port⟩ blks) s gone)
        ∧ (k.dt = 1 → Completes (.frameEnd ⟨die, port⟩ blks) s gone))

/-- A packet on the wrong channel, before READY, of another type or beyond its header's correction is discarded and counted, and
a scrub discards in silence. (R197, R198, R199, R200, R203, R205, R213, R229) -/
def Obligations.PacketsThatAreNotTakenAreDiscarded : Prop :=
  (∀ (s : State) (die : Fin 2) (port : Fin 6) (blks : List Block) (k : Packet),
    let p := 6 * die.val + port.val
    Carries blks k → s.m.portHears p = true →
    let m := s.m.heard p k
    let gone := fun (bit : Nat) => (m.raisePort p bit).inc (rPortDisc (p / 6) (p % 6))
    let turnedAway := fun (c : Instr) =>
      (m.scrubbing = true → Gives c s m)
        ∧ (m.scrubbing = false → m.rightChannel p k = false → Gives c s (gone 5))
        ∧ (m.scrubbing = false → m.rightChannel p k = true → m.lstate p ≠ 3 → m.lstate p ≠ 4 → Gives c s (gone 6))
    (k.dt = 0 → turnedAway (.frameStart ⟨die, port⟩ blks)) ∧ (k.dt = 1 → turnedAway (.frameEnd ⟨die, port⟩ blks))
    ∧ (k.dt = 2 → turnedAway (.lineStart ⟨die, port⟩ blks)) ∧ (k.dt = 3 → turnedAway (.lineEnd ⟨die, port⟩ blks))
    ∧ (k.dt = 0x31 → turnedAway (.camEcho ⟨die, port⟩ blks)) ∧ (k.dt = 0x33 → turnedAway (.pmark ⟨die, port⟩ blks))
    ∧ (4 ≤ k.dt.toNat → k.dt ≠ 0x31 → k.dt ≠ 0x33 → k.dt ≠ 0x34 → ∀ b rest, blks = b :: rest → turnedAway (.pixelPacket die port b rest))
    ∧ (k.dt = 0x34 → m.rightChannel p k = false → Gives (.camVer ⟨die, port⟩ blks) s (gone 5))
    ∧ (m.rightChannel p k =
      (let ivc := k.chan.toNat == m.rbits (rPortCfg (p / 6) (p % 6)) 7 4
      let cvc := k.chan.toNat == m.rbits (rPortCfg (p / 6) (p % 6)) 11 8
      if k.dt.toNat ≤ 3 ∨ (0x2A ≤ k.dt.toNat ∧ k.dt.toNat ≤ 0x2E) then ivc
      else if 0x30 ≤ k.dt.toNat ∧ k.dt.toNat ≤ 0x37 then cvc else ivc || cvc)))
    ∧ ∀ (s : State) (die : Fin 2) (port : Fin 6) (blks : List Block) (o : List Byte),
      let p := 6 * die.val + port.val
      let x := s.m.port p
      deframe none blks = .packet o → packetOf o = none → s.m.portHears p = true → Gives (.hdrUe ⟨die, port⟩ blks) s
        (((s.m.setPort p { x with ueGap := x.ueGap || x.frame.isSome }).raisePort p 1).inc (rPortDisc (p / 6) (p % 6)))

/-- A pixel packet of the port's type becomes the next line, left-aligned, corrected and stamped, and a faulty one is marked or
discarded. (R198, R200, R201, R206, R208, R209, R210, R212, R213, R216, R228) -/
def Obligations.PixelPacketsBecomeLines : Prop :=
  ∀ (s : State) (die : Fin 2) (port : Fin 6) (start : Block) (rest : List Block),
    let p := 6 * die.val + port.val
    let x := s.m.port p
    let lineOf := fun (m' : Mach) (payload : List Byte) (bad : Bool) =>
      let b := s.m.portBits p
      let w := s.m.portWidth p
      let got := ((unpack b payload).take w).map fun c => c * 2 ^ (16 - b)
      let pix := got ++ List.replicate (w - got.length) (s.m.rbits (rPortFill (p / 6) (p % 6)) 15 0)
      ∃ f g l, x.frame = some f ∧ (m'.port p).frame = some g ∧ g.lines = f.lines ++ [l] ∧ g.fn = f.fn
        ∧ l.pix = s.m.correct p pix ∧ l.r.l = x.lidx ∧ l.r.st = (if bad || (s.m.lineErrors p).contains .ue then .bad else .ok)
        ∧ l.r.posv = (!s.m.trigMode p || (s.m.tagStamp p).1.isSome)
        ∧ l.r.pos = (if s.m.trigMode p then (s.m.tagStamp p).1.getD 0 else match x.ls with
          | some (_, q) => q
          | none => s.m.stamp p)
        ∧ (m'.port p).lidx = x.lidx + 1 ∧ (m'.port p).ls = none ∧ m'.mem.spad = s.m.mem.spad ∧ m'.mem.stack = s.m.mem.stack
        ∧ m'.tiles = s.m.tiles
    let room := x.drop = false ∧ ((s.m.stem p).cfg.en = false ∨ x.vbuf.length < 8)
    (∀ k : Packet, Carries (start :: rest) k → s.m.PacketTaken p k →
      let m := s.m.heard p k
      let n := if k.trunc then m.raisePort p 7 else m
      (k.dt.toNat = s.m.portDt p →
        (∀ f, x.frame = some f → f.lines.length < s.m.portLines p → room → Completes (.pixelPacket die port start rest) s fun m' =>
          lineOf m' k.payload (k.trunc || (k.wc != s.m.portWc p || !k.crcOk)))
        ∧ (∀ f, x.frame = some f → s.m.portLines p ≤ f.lines.length → Gives (.pixelPacket die port start rest) s
          ((if f.long then n else n.raisePort p 9).setPort p { x with frame := some { f with long := true }, gapNext := true, ls := none }))
        ∧ (∀ f, x.frame = some f → f.lines.length < s.m.portLines p → ¬room → Gives (.pixelPacket die port start rest) s
          (n.setPort p { x with drop := true, frame := some { f with ovf := true }, ls := none }))
        ∧ (x.frame = none → Gives (.pixelPacket die port start rest) s ((n.raisePort p 6).inc (rPortDisc (p / 6) (p % 6)))))
      ∧ (4 ≤ k.dt.toNat → k.dt ≠ 0x31 → k.dt ≠ 0x33 → k.dt ≠ 0x34 → k.dt.toNat ≠ s.m.portDt p →
        Gives (.pixelPacket die port start rest) s ((m.raisePort p 4).inc (rPortDisc (p / 6) (p % 6)))))
    ∧ ∀ blks : List Block, s.m.portHears p = true →
      let m := s.m.raisePort p 7
      (deframe none blks = .broken none → Gives (.framingError die port blks) s m)
      ∧ ∀ o, deframe none blks = .broken (some o) →
        (packetOf o = none → Gives (.framingError die port blks) s
          (((m.setPort p { x with ueGap := x.ueGap || x.frame.isSome }).raisePort p 1).inc (rPortDisc (p / 6) (p % 6))))
        ∧ ∀ k, packetOf o = some k →
          let n := if k.ce then m.raisePort p 0 else m
          let own := k.dt.toNat = s.m.portDt p ∧ n.rightChannel p k = true ∧ (n.lstate p = 3 ∨ n.lstate p = 4)
          (n.scrubbing = true → Gives (.framingError die port blks) s n)
          ∧ (n.scrubbing = false → ¬own → Gives (.framingError die port blks) s (n.inc (rPortDisc (p / 6) (p % 6))))
          ∧ ∀ f, n.scrubbing = false → own → x.frame = some f → f.lines.length < s.m.portLines p → room →
            Completes (.framingError die port blks) s (lineOf · k.payload true)

/-- VER agrees a version, ECHO is copied, PMARK marks the place, triggers and exposure settings are sent down, and table entries
are written. (R203, R204, R205, R207, R210, R217, R219, R229, R348) -/
def Obligations.CameraControlPacketsAndTriggers : Prop :=
  ∀ (s : State) (die : Fin 2) (port : Fin 6),
    let p := 6 * die.val + port.val
    let x := s.m.port p
    let stat := rPortStat (p / 6) (p % 6)
    let lane := s.m.txLane p
    (s.m.variant.hasDie (p / 6) = true → s.m.lstate p = 2 →
      Gives (.verSend die port) s (s.m.setPort p { x with sent := x.sent ++ [(lane, ourVer)] }))
    ∧ (∀ (blks : List Block) (k : Packet), Carries blks k → k.dt = 0x34 → s.m.portHears p = true →
      let m := s.m.heard p k
      let pl := k.body 64
      m.rightChannel p k = true → k.wc = 8 → k.crcOk = true → bits pl 63 34 = 0 →
      (bits pl 31 24 = 0 → Gives (.camVer ⟨die, port⟩ blks) s ((m.raisePort p 6).inc (rPortDisc (p / 6) (p % 6))))
      ∧ (bits pl 31 24 = 1 →
        (s.m.lstate p = 2 → bits pl 7 0 = 1 → bits pl 23 16 ≤ min 1 (bits pl 15 8) → Completes (.camVer ⟨die, port⟩ blks) s fun m' =>
          m' = { m with regs := m'.regs, ports := m'.ports } ∧ m'.lstate p = 3 ∧ m'.rbits stat 23 16 = 1
            ∧ m'.rbits stat 15 8 = min 1 (bits pl 15 8) ∧ m'.port p = { x with sent := x.sent ++ [(lane, ourVer)] })
        ∧ (s.m.lstate p = 2 → ¬(bits pl 7 0 = 1 ∧ bits pl 23 16 ≤ min 1 (bits pl 15 8)) → Completes (.camVer ⟨die, port⟩ blks) s fun m' =>
          ((m.enterVersion p).setFld stat 2 0 5).Raised m' (rPortErr (p / 6) (p % 6)) 14)
        ∧ (s.m.lstate p = 3 ∨ s.m.lstate p = 4 → Gives (.camVer ⟨die, port⟩ blks) s
          ((((m.raisePort p 6).closeFrame p .fe).enterVersion p).agree p pl))
        ∧ (s.m.lstate p = 5 → Gives (.camVer ⟨die, port⟩ blks) s m)))
    ∧ (∀ (blks : List Block) (k : Packet), Carries blks k → s.m.PacketTaken p k → k.crcOk = true →
      let m := s.m.heard p k
      (k.dt = 0x31 → k.wc = 16 → bits (k.body 128) 31 18 = 0 → bits (k.body 128) 95 80 = 0 → Gives (.camEcho ⟨die, port⟩ blks) s
        ((m.setFld (rPortEcho (p / 6) (p % 6)) 31 24 (bits (k.body 128) 23 16)).setFld (rPortEcho (p / 6) (p % 6)) 23 16
          (bits (k.body 128) 7 0)))
      ∧ (let pl := k.body 64
        k.dt = 0x33 → k.wc = 8 → bits pl 7 0 ≤ 1 → bits pl 15 8 = 0 → bits pl 63 32 = 0 → s.m.rbits stat 15 8 ≠ 0 → s.m.lstate p = 4 →
        Gives (.pmark ⟨die, port⟩ blks) s { m with prep := { m.prep with markers := m.prep.markers ++
          [{ port := p, pmark := true, trail := bitAt pl 0, tag := BitVec.ofNat 16 (bits pl 31 16), pos := s.m.stamp p, l := x.lidx,
             t := x.tLast, ovs3 := s.m.ovs false, ovs4 := s.m.ovs true }] } }))
    ∧ (s.m.variant.hasDie (p / 6) = true → s.m.lstate p = 4 → s.m.trigMode p = true → s.m.scrubbing = false →
      0 ≤ diff32 (s.m.portPos p) x.target → Gives (.ltrig die port) s (s.m.setPort p { x with
        target := x.target + s.m.pitch p, tagCnt := x.tagCnt + 1,
        tags := (x.tags ++ [(x.tagCnt, x.target)]).drop ((x.tags ++ [(x.tagCnt, x.target)]).length - 64),
        sent := x.sent ++ [(lane, .ltrig x.tagCnt x.target)] }))
    ∧ (s.m.hostUp = true → s.m.variant.hasDie (p / 6) = true →
      let gen : BitVec 8 := if x.sgen = 255 then 1 else x.sgen + 1
      let tgt : BitVec 8 := x.lastFn.getD 0 + 2
      Completes (.portExpCommit die port) s fun m' =>
        m' = { s.m with regs := m'.regs, ports := m'.ports } ∧ (m'.port p).sgen = gen
          ∧ m'.rbits (rPortExpCmd (p / 6) (p % 6)) 15 8 = gen.toNat ∧ m'.rbits (rPortExpCmd (p / 6) (p % 6)) 23 16 = tgt.toNat
          ∧ (m'.port p).sent = x.sent ++ (if s.m.portHears p = true ∧ s.m.scrubbing = false then
            [(lane, .expctl gen tgt (s.m.reg (rPortExpTime (p / 6) (p % 6))) ((s.m.reg (rPortExpGain (p / 6) (p % 6))).setWidth 16)
              (s.m.reg (rPortExpAux (p / 6) (p % 6))))] else [])
          ∧ ∀ k, k ≠ p → m'.port k = s.m.port k)
    ∧ ∀ (bank : Bool) (c : BitVec 14) (v : W32), s.m.hostUp = true → s.m.variant.hasDie (p / 6) = true →
      let a := rPortFfc (p / 6) (p % 6)
      let inUse := s.m.bit a 2 = bank ∧ s.m.bit (rPortCfg (p / 6) (p % 6)) 0 = true ∧ s.m.bit a 0 = true
      let key := (2 * p + b2n bank) * 16384 + c.toNat
      (¬inUse → Gives (.ffcTableWrite die port bank c v) s { s.m with
        ffc := FMap.put (fun _ => 0) s.m.ffc key v, ffcEcc := FMap.put (fun _ => Ecc.ok) s.m.ffcEcc key .ok })
      ∧ (inUse → Completes (.ffcTableWrite die port bank c v) s (s.m.Raised · (rIntErr (p / 6)) 3))

/-- CROP_REQUEST joins the block's requests, CODER_START codes the next image that is ready, and ARCHIVE_RECORD writes the
finished one. (R222, R225, R226, R227) -/
def Obligations.ArchiveRequestsAreCodedInOrder : Prop :=
  ∀ (s : State) (d : Fin 2),
    let c := s.m.coder d
    (∀ (req : BitVec 256) q, s.m.variant.hasDie d = true →
      ((List.range 8192).find? fun q => s.m.qReady q 6 && s.m.rbits (rQLink q) 20 16 == d.val) = some q →
      let job : CodeJob := .crop (req.setWidth 16) (bits req 18 16) (BitVec.ofNat 32 (bits req 63 32)) (bits req 79 64 + 1) (bits req 95 80)
        (bits req 111 96 + 1)
      let now := (c.crops ++ [job]).takeWhile (s.m.cropReady d)
      Completes (.cropRequest d req) s fun m' =>
        m' = { s.m.qTake q with coders := m'.coders }
          ∧ m'.coder d = { c with crops := (c.crops ++ [job]).drop now.length, ready := c.ready ++ now }
          ∧ ∀ k, k ≠ d.val → m'.coder k = s.m.coder k)
    ∧ (∀ j rest, c.busy = none → c.ready = j :: rest →
      Gives (.coderStart d) s (s.m.setCoder d { c with ready := rest, busy := some (s.m.runCoder d j) }))
    ∧ ∀ o, c.busy = some o →
      let late := o.kind = 0 ∧ o.status ≤ 1 ∧ s.m.cropExpired (6 * d.val + o.port) o.l0 = true
      let m := s.m.setCoder d { c with busy := none }
      (s.m.scrubbing = true → Gives (.archiveRecord d) s m)
      ∧ (s.m.scrubbing = false → ¬late → Gives (.archiveRecord d) s (m.tapRing d 2 (o.bytes s.m.tb1)))
      ∧ (s.m.scrubbing = false → late → Gives (.archiveRecord d) s
        (m.tapRing d 2 (({ o with status := 2, stream := [] } : CodeOut).bytes s.m.tb1)))

/-- MARKER_RECORD opens a part at a principal leading marker, gives other ports their stripes, and closes stripes at trailing
markers. (R232, R235, R236, R237, R258, R300, R301, R388) -/
def Obligations.MarkersBecomePartsAndStripes : Prop :=
  ∀ (s : State) (k : Marker) (rest : List Marker), s.m.prep.markers = k :: rest →
    let m := (({ s.m.sweep with prep := { s.m.sweep.prep with markers := rest } } : Mach).lateSwitch k).drainPassed k
    let serial := m.weaveFor k.pos
    let stripe : Stripe := { port := k.port, lead := k.l, trail := none, t := 0 }
    (∀ r, m.recipeOf serial = some r → r.groupFor k = none → Gives .markerRecord s m.pump)
    ∧ (m.recipeOf serial = none → Gives .markerRecord s m.pump)
    ∧ ∀ r g cfg, m.recipeOf serial = some r → r.groupFor k = some (g, cfg) →
      let cur := m.findPart fun x => x.isOpen k.port && m.partHas x k.port
      let next := m.findPart fun x => (x.stripe k.port).isNone && m.partHas x k.port
      (k.trail = true → ∀ i, cur = some i → Gives .markerRecord s (m.closeStripe i k.port k.l k.t false).pump)
      ∧ (k.trail = true → cur = none → Gives .markerRecord s (m.raisePrep 6).pump)
      ∧ (cfg.principal k.port = false → k.trail = false →
        (next = none → Gives .markerRecord s (m.raisePrep 6).pump)
        ∧ ∀ i x, next = some i → m.prep.parts[i]? = some x →
          Gives .markerRecord s (m.setPart i { x with stripes := x.stripes ++ [stripe] }).pump)
      ∧ (cfg.principal k.port = true → k.trail = false →
        (∀ i, cur = some i → Gives .markerRecord s (((m.raisePrep 6).closeStripe i k.port k.l k.t true).openPart k g serial).pump)
        ∧ (cur = none → Gives .markerRecord s (m.openPart k g serial).pump))
      ∧ let n := m.openPart k g serial
        let inLot := (m.hif.lot.isOpen = true ∨ m.hif.lot.ending.isSome = true) ∧ (∀ e, m.hif.lot.ending = some e → diff32 k.pos e.1 < 0)
          ∧ m.bit rFltRplCtl 0 = false ∧ m.prep.idxEnd = false ∧ ((∃ w ∈ m.wv.running, w.started = true) ∨ m.inDrain k.pos = true)
        let outside := (∃ x : Part, n.prep.parts = m.prep.parts ++ [x] ∧ x.accepted = false ∧ x.idx = BitVec.allOnes 48 ∧ x.done = true
            ∧ x.stripes = [stripe]) ∧ n.prep.nextIdx = m.prep.nextIdx ∧ n.reg rHifCntNolot = satInc (m.reg rHifCntNolot)
        (inLot → m.prep.nextIdx ≠ BitVec.allOnes 48 → m.inDrain k.pos = false →
          ∃ x : Part, n.prep.parts = m.prep.parts ++ [x] ∧ x.idx = m.prep.nextIdx ∧ x.accepted = true ∧ x.group = g ∧ x.pt = k.pos
            ∧ x.stripes = [stripe] ∧ x.weave = serial ∧ x.done = false ∧ x.ovs = (if m.baseOf serial then k.ovs4 else k.ovs3)
            ∧ n.prep.nextIdx = m.prep.nextIdx + 1 ∧ n.hif.lot = { m.hif.lot with accepted := m.hif.lot.accepted + 1 })
        ∧ (inLot → m.prep.nextIdx ≠ BitVec.allOnes 48 → m.inDrain k.pos = true →
          ∃ (x : Part) (d : Mach), n = d.commitRecord x Ballot.none .swap ∧ d.prep.parts = m.prep.parts ++ [x] ∧ x.idx = m.prep.nextIdx
            ∧ x.accepted = false ∧ x.pt = k.pos ∧ x.weave = serial ∧ d.prep.nextIdx = m.prep.nextIdx + 1 ∧ d.hif.lot = m.hif.lot)
        ∧ (¬inLot → outside)
        ∧ (inLot → m.prep.nextIdx = BitVec.allOnes 48 → outside ∧ n.prep.idxEnd = true ∧ (n.reg rPrepErr).getLsbD 10 = true)

/-- A sample's granules are read and its planes written, SAMPLE_READY ends its copy, a deadline voids it, and a batch closes and
is handed over. (R234, R240, R241, R242, R243, R244, R245, R246, R300, R461) -/
def Obligations.SamplesAreCopiedAndHandedOver : Prop :=
  (∀ (m : Mach) (idx : BitVec 48) (st g : Nat) (x : Part) (left : Nat) (got : List (Nat × Slot)),
      m.wantedPart idx = some x → x.copy = .reading left got → m.granErrors st g = [] →
      let got' := got ++ [(st * 2 ^ 22 + g, m.gran st g)]
      (1 < left → m.prepGot idx st g = m.modAccepted idx fun x => { x with copy := .reading (left - 1) got' })
      ∧ ∀ cfg r b c q, left ≤ 1 → m.copyPlan x = some (cfg, r, b, c, q) →
        let slots := (List.range cfg.ens).flatMap ((m.seenGrans got').memberPlanes x r cfg c)
        let first := c.base + (q % c.nq * m.nbOf x.weave + x.place) * (slots.length / cfg.ens)
        (m.prepGot idx st g).flights = m.flights ++ slots.mapIdx (fun i v =>
          ({ writer := 0xC002, target := .gran c.stack (first + i), data := some v, ovr := false, gen := none, issue := m.cyc, due := m.cyc,
             blocked := false, owner := .sample x.idx } : Flight))
          ∧ (m.prepGot idx st g).prep.parts = m.prep.parts.map fun y =>
            if y.idx = x.idx ∧ y.accepted = true then { y with copy := .writing slots.length } else y)
    ∧ ∀ s : State,
    (∀ (idx : BitVec 48), let m := s.m.pump.judge idx
      (m.wantedPart idx = none → Gives (.sampleReady idx) s m.pump ∧ Gives (.prepDeadline idx) s m.pump)
      ∧ ∀ x : Part, m.wantedPart idx = some x →
        (x.copy = .writing 0 → (∀ q ∈ m.chanQ, ∀ f : Flight, q.write = some f → f.owner ≠ .sample idx) →
          Gives (.sampleReady idx) s (m.modAccepted idx fun x => { x with ready := true }).pump)
        ∧ (m.copied (.sample idx) x.copy = false → Gives (.sampleReady idx) s m)
        ∧ (∀ t, m.deadline x = some t → t ≤ m.tb1 →
          Gives (.prepDeadline idx) s (m.voidPart x (if m.allClosed x then .late else .corrupt)).pump)
        ∧ ((∀ t, m.deadline x = some t → m.tb1 < t) → Gives (.prepDeadline idx) s m))
    ∧ (∀ (d : Fin 2) (x : Part), let m := s.m.pump
      m.prep.decoding.lookup d.val = none → m.variant.hasDie d = true →
      (m.prep.parts.find? fun x => x.wanted && x.ref == .wait && m.refDie x == d.val) = some x → Completes (.refDecodeStart d) s fun m' =>
        m' = { m with prep := { m.prep with parts := m'.prep.parts, decoding := (d.val, x.idx) :: m.prep.decoding } }
          ∧ m'.prep.parts = m.prep.parts.map fun y => if y.idx = x.idx ∧ y.accepted then { y with ref := .decoding } else y)
    ∧ (∀ (d : Fin 2) idx, s.m.prep.decoding.lookup d.val = some idx →
      let m : Mach := { s.m with prep := { s.m.prep with decoding := s.m.prep.decoding.filter fun p => p.1 != d.val } }
      (m.wantedPart idx = none → Gives (.refDecodeDone d) s m.pump)
      ∧ ∀ (x : Part) g r b, m.wantedPart idx = some x → m.groupOf x = some g → m.recipeOf x.weave = some r → x.bucket = some b →
        (r.refOf g x = none → Gives (.refDecodeDone d) s ((m.raisePrep 7 { sample := some idx }).voidPart x .corrupt).pump)
        ∧ ∀ f c, r.refOf g x = some f → r.buckets.lookup b = some c →
          let n := if m.refReachable f then m.refErrors x f else m
          Gives (.refDecodeDone d) s (match m.decodeRef f (m.stem (g.list.headD 0)).cfg.b c with
            | some px => (n.modAccepted idx fun x => { x with ref := .done, refPix := px }).pump
            | none => ((n.raisePrep 7 { sample := some idx }).voidPart x .corrupt).pump))
    ∧ (∀ (b : Fin 8), let m := s.m.pump
      let due := m.bucketWith b fun w k => !k.closed && (m.closeAt w b k).any fun t => decide (t ≤ m.tb1)
      (due = none → Gives (.batchCloseTimeout b) s m)
      ∧ ∀ w k, due = some (w, k) → let x := m.bucket (8 * w.serial + b.val)
        Gives (.batchCloseTimeout b) s (m.setBucket (8 * w.serial + b.val)
          { x with batches := x.batches.map fun z => if z.id = k.id then { z with closed := true } else z }))
    ∧ ∀ (b : Fin 8) w k r c, let m := s.m.pump
      let key := 8 * w.serial + b.val
      let x := m.bucket key
      (m.bucketWith b fun s k => m.batchDone (8 * s + b.val) k && (m.bucket (8 * s + b.val)).batches.head? == some k) = some (w, k) →
      w.recipe = some r → r.buckets.lookup b.val = some c →
      let ds := match k.image with
        | some off => (m.expectImage w.serial b w.hdr.nb off r).2
        | none => (m.batchDescs k w.hdr.nb).1
      let pads := if k.image.isSome = true then 0 else (m.batchDescs k w.hdr.nb).2
      Completes (.batchHandover b) s fun m' => m'.mem.spad = s.m.mem.spad ∧ m'.tiles = s.m.tiles ∧ ∃ n : Mach, m' = n.pump
        ∧ n.flights = m.flights ++ ds.mapIdx (fun i v =>
          ({ writer := 0xC002, target := .slot c.dtile ((c.dslot + (x.dpos + i) % c.drl) % 8192), data := some v, ovr := false,
             gen := none, issue := m.cyc, due := m.cyc, blocked := false, owner := .prep b.val k.id } : Flight))
        ∧ n.signals = m.signals ++ (if c.rdy = 0xFFFF then [] else
          [{ latch := c.rdy, amount := 1, src := 0xC002, issue := m.cyc, due := m.cyc }])
        ∧ (n.bucket key).batches = x.batches.filter (fun z => z.id != k.id) ∧ (n.bucket key).handed = x.handed + 1
        ∧ n.reg (rPrepBktBatches b) = m.reg (rPrepBktBatches b) + 1 ∧ n.reg rPrepPads = satAdd (m.reg rPrepPads) pads

/-- An encoder step moves r and p by the quadrature rule, a loss holds the count, loads set it, and generators make their
markers in order. (R276, R277, R278, R279, R280, R281, R285, R310) -/
def Obligations.EncodersCountAndMarkersComeAtTheirPositions : Prop :=
  ∀ (s : State) (e : Fin 2),
    let b := encBase e
    let x := s.m.pos.enc b
    let stat := rEncStat e
    (∀ (a' b' close : Bool) (fwd : Bool), s.m.bit (rEncCfg e) 0 = true → s.m.rbits stat 2 0 = 0 →
      (if fwd then a' = !x.b ∧ b' = x.a else a' = x.b ∧ b' = !x.a) →
      let d : Int := if fwd = s.m.bit (rEncCfg e) 1 then -1 else 1
      let r := x.r + d
      let p := if r < x.p then r else if x.p < r - 1 then r - 1 else x.p
      let n := (s.m.setEnc b { x with a := a', b := b', r := r, p := p }).putBit stat 3 (decide (d = -1))
      let n := match n.hif.lot.ending with
        | some e => if 0 ≤ diff32 (n.pos32 n.lotBase) e.1 then { n with hif := { n.hif with lot := { n.hif.lot with isOpen := false } } } else n
        | none => n
      Gives (.encoderStep e a' b' close) s (if close then n.raiseEnc e 1 else n))
    ∧ (∀ close : Bool, s.m.bit (rEncCfg e) 0 = true → Gives (.encoderStep e (!x.a) (!x.b) close) s
      ((s.m.setEnc b { x with a := !x.a, b := !x.b }).raiseEnc e 0))
    ∧ (∀ a' b' close : Bool, s.m.bit (rEncCfg e) 0 = false ∨ (s.m.rbits stat 2 0 ≠ 0 ∧ (a' = x.a ∨ b' = x.b)) →
      Gives (.encoderStep e a' b' close) s (s.m.setEnc b { x with a := a', b := b' }))
    ∧ (∀ pin : EncPin, (∀ i, i = losBit pin → Completes (.los e pin) s fun m' => m'.bit stat i = true ∧ m'.pos = s.m.pos)
      ∧ Completes (.losClear e pin) s fun m' => m'.bit stat (losBit pin) = false ∧ m' = { s.m with regs := m'.regs }
        ∧ ∀ a, a ≠ stat → m'.reg a = s.m.reg a)
    ∧ (s.m.bit (rEncCfg e) 5 = true → (∀ t : Nat, t < 4 → (s.m.ptOn t 1 && s.m.ptBase t == b) = false) → Completes (.indexEdge e) s fun m' =>
      m'.reg64 (rEncZcapLo e) = BitVec.ofInt 64 x.p ∧ m'.pos.enc b = { x with lastCap := some x.p } ∧ m'.pos.trig = s.m.pos.trig
        ∧ ((x.lastCap = none ∨ s.m.reg (rEncZper e) = 0) → m'.reg (rEncErr e) = s.m.reg (rEncErr e))
        ∧ ∀ c, x.lastCap = some c → s.m.reg (rEncZper e) ≠ 0 →
          (let dist := diff32 (BitVec.ofInt 32 x.p) (BitVec.ofInt 32 c); dist.natAbs ≠ (s.m.reg (rEncZper e)).toNat) →
          (m'.reg (rEncErr e)).getLsbD 3 = true)
    ∧ (∀ t : Fin 4, s.m.bit (rEncCfg e) 5 = false → s.m.ptOn t 1 = true → s.m.ptBase t = b →
      (∀ u : Nat, u < 4 → u ≠ t.val → (s.m.ptOn u 1 && s.m.ptBase u == b) = false) → Gives (.indexEdge e) s (s.m.leadAt t (s.m.pos32 b)))
    ∧ (s.m.hostUp = true → s.m.namesBase b = false → (∀ k ∈ s.m.pos.spouts, k.2.tb4 ≠ b) → Gives (.encCmdLoad e) s (s.m.setEnc b
      { x with r := (s.m.reg64 (rEncLoadLo e)).toInt, p := (s.m.reg64 (rEncLoadLo e)).toInt, d := 0, u := 0, w := 0, pUpd := (s.m.reg64 (rEncLoadLo e)).toInt }))
    ∧ (s.m.hostUp = true → (s.m.namesBase b = true ∨ ∃ k ∈ s.m.pos.spouts, k.2.tb4 = b) → Gives (.encCmdLoad e) s (s.m.raiseEnc e 5))
    ∧ (∀ v : W32, s.m.hostUp = true → s.m.namesBase b = false → Completes (.encCfgWrite e v) s fun m' =>
      m'.reg (rEncCfg e) = (s.m.writeReg (rEncCfg e) v).reg (rEncCfg e) ∧ m' = { s.m with regs := m'.regs, pos := m'.pos }
        ∧ m'.pos.enc b = if m'.encDiv b = s.m.encDiv b then x else { x with d := 0, u := 0, w := 0 })
    ∧ ∀ (t : Fin 4), let g := s.m.ptrig t
      (s.m.ptOn t 2 = true → 0 ≤ diff32 (s.m.pos32 (s.m.ptBase t)) g.next → s.m.bit (rEncStat (b2n (s.m.ptBase t))) 3 = false →
        Completes (.pitchMarker t) s fun m' =>
          m'.ptrig t = { g with
            next := g.next + s.m.reg (rPtPitch t)
            trail := g.trail ++ [{ pos := g.next + s.m.reg (rPtLen t), tb4 := s.m.ptBase t, ports := s.m.ptPorts t }] }
          ∧ m'.reg (rPtCount t) = s.m.reg (rPtCount t) + 1
          ∧ m'.prep.markers = s.m.prep.markers ++ ((List.range 12).filter fun p =>
              bitAt (s.m.ptPorts t) p && s.m.variant.hasDie (p / 6) && s.m.lstate p == 4).map fun p =>
              ({ port := p, pmark := false, trail := false, tag := 0, pos := g.next, l := (s.m.port p).lidx,
                 t := (s.m.port p).tLast, ovs3 := s.m.ovs false, ovs4 := s.m.ovs true } : Marker))
      ∧ (∀ k pre post, g.trail = pre ++ k :: post → (∀ j ∈ pre, diff32 (s.m.pos32 j.tb4) j.pos < 0) → 0 ≤ diff32 (s.m.pos32 k.tb4) k.pos →
        Completes (.trailingMarker t) s fun m' => m'.ptrig t = { g with trail := pre ++ post } ∧ m'.regs = s.m.regs
          ∧ m'.prep.markers = s.m.prep.markers ++ ((List.range 12).filter fun p =>
              bitAt k.ports p && s.m.variant.hasDie (p / 6) && s.m.lstate p == 4).map fun p =>
              ({ port := p, pmark := false, trail := true, tag := 0, pos := k.pos, l := (s.m.port p).lidx,
                 t := (s.m.port p).tLast, ovs3 := s.m.ovs false, ovs4 := s.m.ovs true } : Marker))
      ∧ ∀ (r : PtReg) (v : W32), s.m.hostUp = true →
        let n := s.m.writeReg (ptReg t r) v
        (s.m.ptUsed t = true ∨ (n.ptOn t 2 = true ∧ (n.reg (rPtPitch t)).toNat ≤ (n.reg (rPtLen t)).toNat) →
          Gives (.ptWrite t r v) s (s.m.raisePos 8))
        ∧ (s.m.ptUsed t = false → (n.ptOn t 2 = false ∨ (n.reg (rPtLen t)).toNat < (n.reg (rPtPitch t)).toNat) →
          Completes (.ptWrite t r v) s fun m' => m' = { n with pos := m'.pos } ∧ ∀ k, k ≠ t.val → m'.ptrig k = s.m.ptrig k)

/-- OBSERVER_UPDATE runs the observer and raises OVERSPEED above V_MAX, which clears at 63/64 of it; late samples and the
backstop get records. (R166, R283, R284, R299, R300, R301, R309) -/
def Obligations.ObserversUpdateAndLateSamplesGetTheirRecords : Prop :=
  ∀ (s : State) (e : Fin 2),
    let b := encBase e
    let x := s.m.pos.enc b
    let div := s.m.encDiv b
    (∀ v : W32, s.m.hostUp = true → s.m.namesBase b = false → Gives (.obsG3Write e v) s ((s.m.setReg (rObsG3 e) v).setEnc b
      { x with gHeld := some ((s.m.reg (rObsG1 e)).toNat, (s.m.reg (rObsG2 e)).toNat, v.toNat) }))
    ∧ (∀ v : W32, s.m.hostUp = true → s.m.namesBase b = true → Gives (.obsG3Write e v) s (s.m.raiseEnc e 6))
    ∧ (∀ g : Nat × Nat × Nat, x.gHeld = some g ∨ (x.gHeld = none ∧ g = (x.g1, x.g2, x.g3)) →
      let sat : Int → Int := fun z => max (-2 ^ 63) (min (2 ^ 63 - 1) z)
      let dq := sat (x.d + x.u + x.w / 2 - diff32 (BitVec.ofInt 32 x.p) (BitVec.ofInt 32 x.pUpd) * 2 ^ 40)
      let y : Enc := { x with
        d := sat (dq + g.1 * sat (-dq) / 2 ^ 32)
        u := sat (x.u + x.w + g.2.1 * sat (-dq) / 2 ^ 40)
        w := sat (x.w + g.2.2 * sat (-dq) / 2 ^ 48)
        g1 := g.1
        g2 := g.2.1
        g3 := g.2.2
        gHeld := none
        tUpd := s.m.tb1
        pUpd := x.p }
      Completes (.observerUpdate e) s fun m' => m'.pos.enc b = y ∧ m'.mem = s.m.mem ∧ m'.wv = s.m.wv
        ∧ m'.reg (rObsSpeed e) = BitVec.ofInt 32 (y.speed div) ∧ m'.reg (rObsAccel e) = BitVec.ofInt 32 (y.accel div)
        ∧ m'.reg (rObsDev e) = BitVec.ofInt 32 y.dev
        ∧ (∀ r, s.m.recipeOn b = some r →
          ((s.m.ovs b = true ∨ (-(r.vMax : Int) ≤ y.speed div ∧ y.speed div ≤ r.vMax)) → m'.ovs b = s.m.ovs b ∧ m'.prep = s.m.prep
            ∧ m'.reg (rEncOvsCnt e) = s.m.reg (rEncOvsCnt e))
          ∧ (s.m.ovs b = false → ((r.vMax : Int) < y.speed div ∨ y.speed div < -(r.vMax : Int)) → m'.ovs b = true
            ∧ (m'.reg (rEncErr e)).getLsbD 4 = true ∧ m'.reg (rEncOvsCnt e) = satInc (s.m.reg (rEncOvsCnt e))
            ∧ ∀ (i : Nat) (p : Part), s.m.prep.parts[i]? = some p → m'.prep.parts[i]? =
                some (if s.m.baseOf p.weave = b then { p with ovs := true } else p))
            ∧ m'.prep.markers = s.m.prep.markers.map fun k => if b then { k with ovs4 := true } else { k with ovs3 := true }))
    ∧ (∀ r, s.m.recipeOn b = some r →
      (64 * (s.m.obsSpeed b).natAbs ≤ 63 * r.vMax → Completes (.overspeedClear e) s fun m' => m'.ovs b = false ∧ m' = { s.m with regs := m'.regs })
      ∧ (63 * r.vMax < 64 * (s.m.obsSpeed b).natAbs → Gives (.overspeedClear e) s s.m))
    ∧ ((∀ p ∈ s.m.prep.parts, p.done = false → s.m.ovs (s.m.baseOf p.weave) = true → s.m.isLate p = false) → Gives .lateCheck s s.m)
    ∧ (∀ pre post p, s.m.prep.outstanding = pre ++ p :: post → s.m.ovs (s.m.baseOf p.weave) = true → s.m.isLate p = true →
      (∀ q ∈ pre ++ post, s.m.ovs (s.m.baseOf q.weave) = false ∨ s.m.isLate q = false) →
      Gives .lateCheck s (((s.m.commitRecord p Ballot.none .late).inc rPosLate).raisePos 3))
    ∧ (∀ (idx : BitVec 48) p r, s.m.prep.part idx = some p → s.m.recipeOf p.weave = some r → p.accepted = true →
      (diff32 (s.m.pos32 r.tb4) p.pt < (r.d : Int) - (ceilDiv (2000 * r.vMax) (10 ^ 9) + 1 : Nat) → Gives (.backstop idx) s s.m)
      ∧ ((r.d : Int) - (ceilDiv (2000 * r.vMax) (10 ^ 9) + 1 : Nat) ≤ diff32 (s.m.pos32 r.tb4) p.pt →
        Gives (.backstop idx) s (s.m.commitRecord p Ballot.none (if p.ovs then .late else .slip))))
    ∧ (s.m.hostUp = true → Completes .posSnapCapture s fun m' => m' = { s.m with regs := m'.regs }
      ∧ m'.reg64 (rPosSnapTbLo 0) = BitVec.ofNat 64 s.m.tb0 ∧ m'.reg64 (rPosSnapTbLo 1) = BitVec.ofNat 64 s.m.tb1
      ∧ m'.reg64 (rPosSnapTbLo 2) = BitVec.ofNat 64 s.m.tb2 ∧ m'.reg64 (rPosSnapTbLo 3) = BitVec.ofInt 64 s.m.pos.enc0.p
      ∧ m'.reg64 (rPosSnapTbLo 4) = BitVec.ofInt 64 s.m.pos.enc1.p)

/-- An arm request takes the lowest free entry or is refused with its status, pulses begin at their targets and end with one
final record. (R287, R288, R289, R290, R291, R292, R293, R294, R296) -/
def Obligations.SpoutsAreArmedFiredAndEnded : Prop :=
  ∀ (s : State),
    (∀ (q : Fin 8192) (ent : BitVec 256) (m : Mach), s.m.qReady q 0xB = true → m = s.m.qTake q →
      let f := fieldAt (leBytes 32 ent.toNat)
      let peer := m.rbits (rQLink q) 12 0
      let b := (f 1 1).testBit 0
      let mask := BitVec.ofNat 24 (f 8 3)
      let target := BitVec.ofNat 32 (f 4 4)
      let seq := m.pos.armseq + 1
      let ahead := diff32 (m.pos32 b) target * 2 ^ 40 + (if bits mask 23 8 = 0 then 0 else m.lead b)
      let well := f 1 1 < 4 ∧ f 11 1 = 0 ∧ f 15 1 = 0 ∧ f 22 10 = 0 ∧ mask ≠ 0 ∧ f 12 3 ≠ 0
      let armed : Mach := { m with pos := { m.pos with armseq := seq } }
      let told := fun (m : Mach) (n st : Nat) => m.qPush peer (spoutRecord n seq.toNat (f 2 2) st 0 (f 16 6) 0 0)
      (f 0 1 = 1 → well → (diff32 target (m.pos32 b)).natAbs ≤ 2 ^ 30 → ahead < 0 → m.pos.spouts.length < 4096 →
        ∀ n < 4096, m.spout n = none → (∀ k < n, (m.spout k).isSome = true) →
        let x : Spout :=
          { tb4 := b, ct := (f 1 1).testBit 1, tag := BitVec.ofNat 16 (f 2 2), target := target, mask := mask, width := f 12 3,
            smp := BitVec.ofNat 48 (f 16 6), armseq := seq, src := 0, doneq := peer, stbOn := false, stbDone := false, outOn := false,
            outDone := false, tStb := 0, tOut := 0, posFire := 0, tFire := 0, maxon := false }
        Gives (.spoutArm q ent) s (told (armed.setSpout n x) n 0))
      ∧ (f 0 1 = 1 → ¬well → Gives (.spoutArm q ent) s (told armed 0xFFFF 5))
      ∧ (f 0 1 = 1 → well → 2 ^ 30 < (diff32 target (m.pos32 b)).natAbs → Gives (.spoutArm q ent) s (told armed 0xFFFF 5))
      ∧ (f 0 1 = 1 → well → (diff32 target (m.pos32 b)).natAbs ≤ 2 ^ 30 → 0 ≤ ahead →
        Gives (.spoutArm q ent) s (told ((armed.inc rSptPast).raisePos 4) 0xFFFF 2))
      ∧ (f 0 1 = 1 → well → (diff32 target (m.pos32 b)).natAbs ≤ 2 ^ 30 → ahead < 0 → 4096 ≤ m.pos.spouts.length →
        Gives (.spoutArm q ent) s (told (armed.raisePos 5) 0xFFFF 4))
      ∧ (f 0 1 ≠ 1 → f 0 1 ≠ 2 →
        let range := m.qPush peer (spoutRecord 0xFFFF 0 (f 2 2) 5 0 (f 16 6) 0 0)
        Gives (.spoutArm q ent) s range ∧ Gives (.spoutCancel q ent) s range)
      ∧ (f 0 1 = 2 → ¬(f 1 1 = 0 ∧ f 4 18 = 0 ∧ f 26 6 = 0 ∧ f 24 2 < 4096) → Gives (.spoutCancel q ent) s
        (m.qPush peer (spoutRecord (f 24 2) (f 22 2) (f 2 2) 5 0 (f 16 6) 0 0)))
      ∧ (f 0 1 = 2 → f 1 1 = 0 → f 4 18 = 0 → f 26 6 = 0 → f 24 2 < 4096 →
        let own := fun (m : Mach) (st : Nat) => m.qPush peer (spoutRecord (f 24 2) (f 22 2) (f 2 2) st 0 (f 16 6) 0 0)
        (∀ x, m.spout (f 24 2) = some x → x.armseq.toNat = f 22 2 → Gives (.spoutCancel q ent) s
          (own (m.endSpout (f 24 2) x (if x.stbOn || x.stbDone || x.outOn || x.outDone then (if x.maxon then 8 else 1) else 3)) 3))
        ∧ ((∀ x, m.spout (f 24 2) = some x → x.armseq.toNat ≠ f 22 2) →
          Gives (.spoutCancel q ent) s (own (m.raisePos 6) 6))))
    ∧ (∀ r rest, s.m.pos.rules = r :: rest →
      let m : Mach := { s.m with pos := { s.m.pos with rules := rest } }
      ((∀ k x, r.rules.lookup k = some x → x.cond.testBit r.decision = false) → Gives .spoutRuleArm s m)
      ∧ Gives .spoutRuleArm s ((List.range 8).foldl (fun (n : Mach) k => match r.rules.lookup k with
        | some x => if x.cond.testBit r.decision then n.arm
            { reserved := false, tb4 := r.tb4, ct := x.wunit, tag := 0, target := r.pt + BitVec.ofInt 32 x.offset, mask := x.mask,
              width := x.width, smp := r.smp, src := BitVec.ofNat 8 (k + 1), doneq := x.doneq } else n
        | none => n) m))
    ∧ ∀ (n : Fin 4096) x, s.m.spout n = some x →
      let now := { x with posFire := s.m.pos32 x.tb4, tFire := s.m.tb1 }
      (bits x.mask 7 0 ≠ 0 → x.stbOn = false → x.stbDone = false → s.m.scrubbing = false →
        (diff32 (s.m.pos32 x.tb4) x.target < 0 → Gives (.strobeFire n) s s.m)
        ∧ (0 ≤ diff32 (s.m.pos32 x.tb4) x.target → Gives (.strobeFire n) s
          (if x.outOn || x.outDone then s.m.setSpout n { x with stbOn := true, tStb := s.m.tb1 }
           else (s.m.setSpout n { now with stbOn := true, tStb := s.m.tb1 }).inc rSptFired)))
      ∧ (bits x.mask 23 8 ≠ 0 → x.outOn = false → x.outDone = false → s.m.scrubbing = false →
        let est := diff32 (BitVec.ofInt 32 ((s.m.xq x.tb4 s.m.tb1 + s.m.lead x.tb4) / 2 ^ 40)) x.target
        (est < 0 → diff32 (s.m.pos32 x.tb4) x.target < 0 → Gives (.commandInstant n) s s.m)
        ∧ (0 ≤ est ∨ 0 ≤ diff32 (s.m.pos32 x.tb4) x.target → Gives (.commandInstant n) s
          (if x.stbOn || x.stbDone then s.m.setSpout n { x with outOn := true, tOut := s.m.tb1 }
           else (s.m.setSpout n { now with outOn := true, tOut := s.m.tb1 }).inc rSptFired).commandOuts))
      ∧ let estAt := fun t : BitVec 32 => 0 ≤ diff32 (BitVec.ofInt 32 ((s.m.xq x.tb4 s.m.tb1 + s.m.lead x.tb4) / 2 ^ 40)) t
          ∨ 0 ≤ diff32 (s.m.pos32 x.tb4) t
        let stop := x.target + BitVec.ofNat 32 x.width
        let ends := fun (stb out : Bool) =>
          ({ x with stbOn := x.stbOn && !stb, stbDone := x.stbDone || stb, outOn := x.outOn && !out, outDone := x.outDone || out } : Spout)
        let all := fun y : Spout => (bits y.mask 7 0 = 0 ∨ y.stbDone = true) ∧ (bits y.mask 23 8 = 0 ∨ y.outDone = true)
        let stbOver := x.stbOn = true ∧ if x.ct = true then 0 ≤ diff32 (s.m.pos32 x.tb4) stop else x.tStb + 10 * x.width ≤ s.m.tb1
        let outOver := x.outOn = true ∧ if x.ct = true then estAt stop else x.tOut + 10 * x.width ≤ s.m.tb1
        let long := fun t : Nat => t + 1000000 * s.m.rbits rSptCfg 15 0 ≤ s.m.tb1
        (∀ stb out : Bool, (stb = true ↔ stbOver) → (out = true ↔ outOver) →
          (stb = false → out = false → Gives (.pulseEnd n) s s.m)
          ∧ (stb = true ∨ out = true →
            (all (ends stb out) → Gives (.pulseEnd n) s (s.m.endSpout n (ends stb out) (if x.maxon then 8 else 1)))
            ∧ (¬all (ends stb out) → Gives (.pulseEnd n) s (s.m.setSpout n (ends stb out)).commandOuts)))
        ∧ ∀ stb out : Bool, (stb = true ↔ x.stbOn = true ∧ long x.tStb) → (out = true ↔ x.outOn = true ∧ long x.tOut) →
          let y := { ends stb out with maxon := true }
          (stb = false → out = false → Gives (.pulseMaxon n) s s.m)
          ∧ (stb = true ∨ out = true →
            (all y → Gives (.pulseMaxon n) s ((s.m.raisePos 7).endSpout n y 8))
            ∧ (¬all y → Gives (.pulseMaxon n) s ((s.m.raisePos 7).setSpout n y).commandOuts))

/-- PTP takes masters, stamps an exchange, measures its offset, slews or asks for a step, and holds over on a loss or change of
master. (R304, R305, R306, R307, R308) -/
def Obligations.PtpDisciplinesTB0 : Prop :=
  ∀ (s : State),
    let m := s.m
    let p := s.m.pos.ptp
    (∀ v : W32, m.hostUp = true → bitAt v 0 = true → m.ptpOn = false → Completes (.ptpEnable v) s fun m' =>
      m'.reg rPtpCfg = (m.writeReg rPtpCfg v).reg rPtpCfg ∧ m'.ptpState = 1 ∧ m'.pos.ptp = { p with foreign := [], master := none, t1 := none }
        ∧ m'.reg64 rPtpGmLo = 0 ∧ m' = { m with regs := m'.regs, pos := m'.pos })
    ∧ (∀ v : W32, m.hostUp = true → bitAt v 0 = false → m.ptpOn = true → Completes (.ptpEnable v) s fun m' =>
      m'.ptpOn = false ∧ m'.ptpState = 0 ∧ m'.rbits rPtpCfg 31 16 = m.rbits rPtpCfg 31 16
        ∧ m'.pos.ptp = { p with foreign := [], master := none, t1 := none })
    ∧ (m.ptpOn = true → p.mgmtUp = true →
      (∀ a : AnnounceMsg, m.rbits rPtpCfg 15 8 ≠ a.domain.toNat → Gives (.ptpAnnounce a) s m)
      ∧ (∀ a : AnnounceMsg, m.rbits rPtpCfg 15 8 = a.domain.toNat →
        let old := p.foreign.find? fun f => f.msg.src == a.src
        let q : Ptp := { p with foreign := (p.foreign.filter fun f => f.msg.src != a.src) ++ [{ msg := a, last := m.tb1, prev := old.map (·.last) }] }
        let quiet := fun (m' : Mach) => m' = { m with regs := m'.regs, pos := m'.pos }
        (q.best m.tb1 = none → Gives (.ptpAnnounce a) s { m with pos := { m.pos with ptp := q } })
        ∧ (∀ b, p.master = none → q.best m.tb1 = some b → Completes (.ptpAnnounce a) s fun m' =>
          m'.pos.ptp = { q with master := some b, t1 := none } ∧ m'.reg64 rPtpGmLo = b.gm
            ∧ m'.ptpState = (if m.ptpState = 1 then 2 else m.ptpState) ∧ quiet m')
        ∧ (∀ b c, p.master = some c → q.best m.tb1 = some b → b.gm = c.gm → Completes (.ptpAnnounce a) s fun m' =>
          m'.pos.ptp = { q with master := some b, t1 := if c.src = b.src then q.t1 else none } ∧ m'.reg64 rPtpGmLo = b.gm
            ∧ m'.ptpState = m.ptpState ∧ quiet m')
        ∧ (∀ b c, p.master = some c → q.best m.tb1 = some b → b.gm ≠ c.gm → Completes (.ptpAnnounce a) s fun m' =>
          m'.pos.ptp = { q with master := some b, t1 := if c.src = b.src then q.t1 else none } ∧ m'.reg64 rPtpGmLo = b.gm ∧ m'.ptpState = 4
            ∧ m'.bit rPosStat 4 = true ∧ m'.bit rPosErr 10 = true ∧ m'.bit rPosErr 12 = true ∧ m'.pos.tb0 = m.pos.tb0
            ∧ m'.reg rPtpAdj = m.reg rPtpAdj)
        ∧ (p.master = none → p.foreign = [] → q.best m.tb1 = none)
        ∧ (∀ f, p.master = none → p.foreign = [f] → f.msg.src = a.src → a.stepsRemoved.toNat < 255 → m.tb1 ≤ f.last + announceWindow a →
          q.best m.tb1 = some a))
      ∧ (∀ b, p.master = some b →
        (∀ x : SyncMsg, x.src ≠ b.src ∨ m.rbits rPtpCfg 15 8 ≠ x.domain.toNat → Gives (.ptpSync x) s m)
        ∧ (∀ x : SyncMsg, x.src = b.src → m.rbits rPtpCfg 15 8 = x.domain.toNat → Completes (.ptpSync x) s fun m' =>
          m'.pos.ptp = { p with
            syncSeq := x.seq
            t2 := BitVec.ofInt 64 ((m.tb0 : Int) - (m.reg rPtpRxlat).toNat)
            t2b := BitVec.ofInt 64 ((m.tb1 : Int) - (m.reg rPtpRxlat).toNat)
            t1 := if x.twoStep then none else some x.t1 }
          ∧ m'.bit rPtpStat 3 = x.twoStep ∧ m' = { m with regs := m'.regs, pos := m'.pos })
        ∧ (∀ (seq : BitVec 16) (t1 : W64), m.bit rPtpStat 3 = true → p.t1 = none →
          (p.syncSeq = seq → Gives (.ptpFollowUp ⟨b.src, seq⟩ t1) s { m with pos := { m.pos with ptp := { p with t1 := some t1 } } })
          ∧ (p.syncSeq ≠ seq → Gives (.ptpFollowUp ⟨b.src, seq⟩ t1) s m) ∧ ∀ src, src ≠ b.src → Gives (.ptpFollowUp ⟨src, seq⟩ t1) s m)
        ∧ (∀ seq : BitVec 16, let lat := (m.reg rPtpTxlat).toNat
          (p.queue.length < 16 → Gives (.ptpDelayReq seq) s { m with pos := { m.pos with ptp := { p with queue := p.queue ++
            [{ mtype := 1, seq := seq, tb0 := BitVec.ofNat 64 (m.tb0 + lat), tb1 := BitVec.ofNat 64 (m.tb1 + lat) }] } } })
          ∧ (16 ≤ p.queue.length → Completes (.ptpDelayReq seq) s fun m' => m'.pos = m.pos ∧ m'.bit rPtpTsqStat 8 = true
            ∧ m'.bit rPosErr 13 = true ∧ m'.rbits rPtpTsqStat 31 16 = min 65535 (m.rbits rPtpTsqStat 31 16 + 1)))
        ∧ ∀ (seq : BitVec 16) (t4 : W64) pre k post, p.queue = pre ++ k :: post → k.mtype = 1 → k.seq = seq →
          (∀ j ∈ pre, ¬(j.mtype = 1 ∧ j.seq = seq)) →
          (p.t1 = none → Gives (.ptpDelayResp ⟨b.src, seq⟩ t4) s { m with pos := { m.pos with ptp := { p with queue := pre ++ post } } })
          ∧ ∀ t1, p.t1 = some t1 →
            let off : Int := ((p.t2 - t1).toInt - (t4 - k.tb0).toInt) / 2
            Completes (.ptpDelayResp ⟨b.src, seq⟩ t4) s fun m' =>
              m'.pos = { m.pos with ptp := { p with queue := pre ++ post } }
              ∧ m'.reg rPtpOffset = BitVec.ofInt 32 (max (-2 ^ 31) (min (2 ^ 31 - 1) off))
              ∧ (off.natAbs ≤ 1000 * m.rbits rPtpCfg 31 16 → m'.ptpState = 3 ∧ m'.bit rPosStat 3 = true ∧ m'.bit rPosStat 4 = false
                ∧ ((m'.reg rPtpAdj).toInt.natAbs : Int) * 1000000 ≤ 500 * 2 ^ 40)
              ∧ (1000 * m.rbits rPtpCfg 31 16 < off.natAbs → m'.reg rPtpAdj = m.reg rPtpAdj ∧ m'.ptpState = m.ptpState)))
    ∧ (∀ (v : W64) b, m.ptpOn = true → p.master = some b → Completes (.tb0Step v) s fun m' =>
      m'.pos = { m.pos with tb0 := m.pos.tb0 + v.toInt * 2 ^ 40 } ∧ m'.bit rPosErr 11 = true
        ∧ m'.ptpState = (if m.ptpState = 2 ∨ m.ptpState = 4 then 3 else m.ptpState))
    ∧ (∀ change : Bool, m.ptpOn = true → Completes (.holdover change) s fun m' => m'.ptpState = 4 ∧ m'.bit rPosStat 4 = true
      ∧ m'.bit rPosErr 10 = true ∧ (change = true → m'.bit rPosErr 12 = true) ∧ m'.pos.tb0 = m.pos.tb0
      ∧ (change = true → m'.pos.ptp = p)
      ∧ (change = false →
        let q : Ptp := { p with foreign := p.foreign.filter fun f => !(p.master.any fun a => a.src == f.msg.src), master := none, t1 := none }
        m'.pos.ptp = { q with master := q.best m.tb1 }))
    ∧ (p.mgmtUp = true → m.ptpOn = true → Completes .mgmtLinkDown s fun m' => m'.ptpState = 4 ∧ m'.bit rPosErr 10 = true
      ∧ m'.pos.ptp = { p with mgmtUp := false, foreign := [], master := none, t1 := none })
    ∧ (p.mgmtUp = true → m.ptpOn = false → Gives .mgmtLinkDown s { m with pos := { m.pos with ptp := { p with mgmtUp := false, foreign := [] } } })
    ∧ Gives .mgmtLinkUp s { m with pos := { m.pos with ptp := { p with mgmtUp := true } } }

/-- The field side drives every output by the first rule that applies, takes valid frames, and enters and leaves SAFE. (R311,
R312, R315, R316, R318, R323, R325, R327, R330, R331) -/
def Obligations.FieldSideDrivesItsOutputsAndEntersSafe : Prop :=
  ∀ (s : State),
    let x := s.m.side
    (∀ (y : FieldSide) (i : Nat), i < 16 → bitAt y.drive.outputs i =
      if y.lplus = false ∨ bitAt y.oc i = true then false
      else if y.safe = true then (if y.safeOf i = 2 then bitAt y.hold i else decide (y.safeOf i = 1))
      else if y.everApplied = true then bitAt y.applied i else bitAt y.hold i)
    ∧ (∀ (fr : W64) (c : Instr), x.running = true →
      c = .eventFrame fr ∨ c = .configurationFrame fr ∨ c = .fldResume fr ∨ c = .fldForceSafe fr →
      let taken : Mach := { s.m with fld := { s.m.fld with down := (s.m.fld.down.filter fun p => decide (s.m.tb1 ≤ 400 * p.1 + 800)).drop 1 } }
      (frameOk fr = false →
        let m := taken.setSide { x with goodRun := 0, badRun := x.badRun + 1, heardAt := some s.m.tb1 }
        let n := if s.m.pwr.inReset = true then m else (m.inc rFldDcrcCnt).raiseFld 0
        Gives c s (if 3 ≤ x.badRun then n.loseDown else n))
      ∧ (frameOk fr = true → x.downLock = false →
        (c = .eventFrame fr → bitAt fr 23 = false) → (c = .configurationFrame fr → bitAt fr 23 = true ∧ bits fr 31 24 ≠ 0x20 ∧ bits fr 31 24 ≠ 0x21) →
        (c = .fldResume fr → bitAt fr 23 = true ∧ bits fr 31 24 = 0x20) → (c = .fldForceSafe fr → bitAt fr 23 = true ∧ bits fr 31 24 = 0x21) →
        let m := taken.setSide { x with goodRun := x.goodRun + 1, badRun := 0, heardAt := some s.m.tb1, downLock := decide (1 ≤ x.goodRun) }
        Gives c s (if s.m.pwr.inReset = true then m else m.inc rFldDcrcCnt)))
    ∧ (∀ (fr : W64) k, s.m.DownTaken fr k →
      let m := s.m.downHeard
      let y := m.side
      let d := BitVec.ofNat 16 (bits fr 47 32)
      (bitAt fr 23 = false → bits fr 22 16 < 80 → y.safe = false →
        let a := (400 * k + 800 + 5 * bits fr 22 16, BitVec.ofNat 16 (bits fr 15 0))
        (bitAt fr 47 = false → Gives (.eventFrame fr) s (m.setSide { y with todo := y.todo ++ [a] }))
        ∧ (bitAt fr 47 = true → bits fr 22 16 < bits fr 46 40 → bits fr 46 40 < 80 → Gives (.eventFrame fr) s (m.setSide
          { y with todo := y.todo ++ [a, (400 * k + 800 + 5 * bits fr 46 40, BitVec.ofNat 16 (bits fr 39 24))] })))
      ∧ (bitAt fr 23 = false → (y.safe = true ∨ 80 ≤ bits fr 22 16 ∨ (bitAt fr 47 = true ∧ (80 ≤ bits fr 46 40 ∨ bits fr 46 40 ≤ bits fr 22 16))) →
        Gives (.eventFrame fr) s m)
      ∧ (bitAt fr 23 = true → bits fr 31 24 ≠ 0x20 → bits fr 31 24 ≠ 0x21 →
        let a := bits fr 31 24
        let set := fun (z : FieldSide) => Gives (.configurationFrame fr) s
          (m.setSide { z with cfgCount := y.cfgCount + 1, lastAddr := BitVec.ofNat 8 a, lastData := d })
        (a < 16 → set { y with deb := FMap.put (fun _ => 10) y.deb a d })
        ∧ (a = 0x10 ∨ a = 0x11 → ∃ w h, set { y with safeCfg := w, hold := h }
          ∧ w = (if a = 0x10 then setBits y.safeCfg 15 0 d.toNat else setBits y.safeCfg 31 16 d.toNat)
          ∧ ∀ i < 16, bitAt h i = if bits w (2 * i + 1) (2 * i) = 2 ∧ bits y.safeCfg (2 * i + 1) (2 * i) ≠ 2 then bitAt y.outputs i else bitAt y.hold i)
        ∧ (a = 0x12 → set { y with timeout := d })
        ∧ (a = 0x13 → set { y with wben := d, wb := y.wb &&& d })
        ∧ (a = 0x15 → set { y with oc := y.oc &&& ~~~d })
        ∧ (a = 0x14 ∨ 0x16 ≤ a → Gives (.configurationFrame fr) s m))
      ∧ (bitAt fr 23 = true → bits fr 31 24 = 0x20 → Completes (.fldResume fr) s fun m' =>
        m'.side.safe = false ∧ m'.side.hold = y.outputs ∧ m'.side.lastAddr = 0x20
          ∧ m' = { m with fld := { m.fld with side := m'.fld.side, rbSince := m'.fld.rbSince } })
      ∧ (bitAt fr 23 = true → bits fr 31 24 = 0x21 → y.safe = false → Completes (.fldForceSafe fr) s fun m' =>
        m'.side.safe = true ∧ m'.side.hold = y.outputs ∧ m'.side.todo = [] ∧ m'.side.lastAddr = 0x21
          ∧ m' = { m with regs := m'.regs, fld := { m.fld with side := m'.fld.side, rbSince := m'.fld.rbSince } }
          ∧ (s.m.pwr.inReset = false → m'.reg rFldSafeCnt = satInc (s.m.reg rFldSafeCnt) ∧ m'.reg rFldErr = s.m.reg rFldErr)))
    ∧ (∀ t st rest, x.todo = (t, st) :: rest →
      (t ≤ s.m.tb1 → Gives .stateApply s (s.m.setSide { x with applied := st, everApplied := true, todo := rest }))
      ∧ (s.m.tb1 < t → Gives .stateApply s s.m))
    ∧ (x.running = true → x.safe = false → s.m.pwr.inReset = false →
      let fell := fun m' : Mach => m'.side.safe = true ∧ m'.side.todo = [] ∧ m'.reg rFldSafeCnt = satInc (s.m.reg rFldSafeCnt)
        ∧ (m'.reg rFldErr).getLsbD 3 = true ∧ m'.mem = s.m.mem ∧ m'.pos = s.m.pos ∧ m'.tiles = s.m.tiles
      let silent := ∀ t, x.validAt = some t → t + 1000 * x.timeout.toNat ≤ s.m.tb1
      let deaf := ∀ t, x.heardAt = some t → t + 400 * (4 - x.badRun) ≤ s.m.tb1
      (silent → Completes .silenceTimeout s (fun m' => fell m' ∧ m'.side.hold = x.outputs))
      ∧ (¬silent → Gives .silenceTimeout s s.m)
      ∧ (deaf → x.downLock = true → Completes .downLockLoss s fun m' => fell m' ∧ m'.side.downLock = false)
      ∧ (¬deaf ∨ x.downLock = false → Gives .downLockLoss s s.m))
    ∧ (x.running = false → s.m.pwr.inReset = false → Completes .controllerStart s fun m' =>
      m' = (s.m.setSide { FieldSide.off with running := true }).inc rFldSafeCnt
        ∧ m'.side.safe = true ∧ m'.side.outputs = 0 ∧ m'.side.timeout = 50)
    ∧ Gives .lplusLoss s (s.m.setSide FieldSide.off)
    ∧ (x.running = true → Gives .lplusUv s (s.m.setSide { x with lplus := false }) ∧ Gives .lplusOk s (s.m.setSide { x with lplus := true })
      ∧ (∀ on : Bool, Gives (.fieldSideOvertemp on) s (s.m.setSide { x with overtemp := on }))
      ∧ ∀ i : Fin 16,
        Completes (.overcurrent i) s (fun m' => m' = s.m.setSide { x with oc := m'.side.oc } ∧ bitAt m'.side.outputs i = false
          ∧ ∀ k < 16, bitAt m'.side.oc k = (bitAt x.oc k || k == i.val))
        ∧ Completes (.wireBreak i) s (fun m' => m' = (if bitAt x.wben i then s.m.setSide { x with wb := m'.side.wb } else s.m)
          ∧ ∀ k < 16, bitAt m'.side.wb k = (bitAt x.wb k || (k == i.val && bitAt x.wben i)))
        ∧ Completes (.wireBreakClear i) s (fun m' => m' = s.m.setSide { x with wb := m'.side.wb }
          ∧ ∀ k < 16, bitAt m'.side.wb k = (bitAt x.wb k && k != i.val))
        ∧ ∀ level : Bool, (bitAt x.inputs i = level → Gives (.inputEdge i level) s s.m)
          ∧ (bitAt x.inputs i ≠ level → Completes (.inputEdge i level) s fun m' =>
            m' = s.m.setSide { x with inputs := m'.side.inputs, edges := x.edges ++ [{ i := i, level := level, te := some s.m.tb1 }] }
              ∧ ∀ k < 16, bitAt m'.side.inputs k = if k = i.val then level else bitAt x.inputs k))

/-- DOWN_FRAME sends the window's changes or one setting, UP_FRAME takes levels, diagnostics and edges, and lock queues every
setting. (R318, R319, R320, R322, R324, R326, R327, R328, R329, R332, R334, R335) -/
def Obligations.ModuleSideFramesTheCrossing : Prop :=
  (∀ v : Nat, v < 2 ^ 48 → frameOk (frameOf v) = true ∧ (frameOf v).toNat % 2 ^ 48 = v)
    ∧ ∀ (s : State),
    let f := s.m.fld
    let x := s.m.side
    (∀ k, k = s.m.tb1 / 400 → s.m.pwr.aligned = true → f.slot ≤ k →
      let due := f.changes.filter fun c => decide (c.1 < 400 * k)
      let later := f.changes.filter fun c => !decide (c.1 < 400 * k)
      let off := fun (c : Nat × BitVec 16) => (c.1 + 400 - 400 * k) / 5
      let sends := fun (m : Mach) (v : Nat) (st : BitVec 16) =>
        ({ m with fld := { f with changes := later, framed := st, slot := k + 1, down := if f.side.running = true then f.down ++ [(k, frameOf v)] else [] } } : Mach).putBit rFldStat 0 true
      (due = [] → s.m.cfgNext = none → Gives .downFrame s (sends s.m f.framed.toNat f.framed))
      ∧ (due = [] → ∀ w, s.m.cfgNext = some w → Gives .downFrame s (({ s.m with fld := { f with
        cfgq := f.cfgq.drop 1
        slot := k + 1
        down := if f.side.running = true then f.down ++ [(k, frameOf (w.2.toNat * 2 ^ 32 + w.1.toNat * 2 ^ 24 + 2 ^ 23))] else [] } } : Mach).putBit rFldStat 0 true))
      ∧ (∀ a, due = [a] → Gives .downFrame s (sends s.m (off a * 2 ^ 16 + a.2.toNat) a.2))
      ∧ (∀ a b, due = [a, b] → Gives .downFrame s
        (sends s.m (2 ^ 47 + off b * 2 ^ 40 + b.2.toNat * 2 ^ 24 + off a * 2 ^ 16 + a.2.toNat) b.2))
      ∧ ∀ a c b mid, due = a :: c :: mid ++ [b] → Gives .downFrame s
        ((sends s.m (2 ^ 47 + off b * 2 ^ 40 + b.2.toNat * 2 ^ 24 + off a * 2 ^ 16 + a.2.toNat) b.2).raiseFld 4))
    ∧ (∀ k, x.running = true → 800 ≤ s.m.tb1 → k = (s.m.tb1 - 800) / 400 → x.upK ≤ k → Completes .upFrameSend s fun m' =>
      ∃ fr, m'.fld.up = f.up ++ [(k, fr)] ∧ frameOk fr = true ∧ bits fr 15 0 = x.inputs.toNat ∧ m'.side.upK = k + 1 ∧ m' = { s.m with fld := m'.fld }
        ∧ (k % 8 = 7 → bits fr 47 44 = 8 + k / 8 % 4 ∧ m'.side.edges = x.edges
          ∧ (k / 8 % 4 = 0 → bits fr 31 16 = x.wb.toNat) ∧ (k / 8 % 4 = 1 → bits fr 31 16 = x.oc.toNat)
          ∧ (k / 8 % 4 = 2 → bits fr 31 16 = b2n x.lplus + 2 * b2n x.safe + 4 * b2n x.overtemp)
          ∧ (k / 8 % 4 = 3 → bits fr 31 16 = x.lastData.toNat ∧ bits fr 39 32 = x.lastAddr.toNat ∧ bits fr 43 40 = x.cfgCount.toNat))
        ∧ (k % 8 ≠ 7 → (∀ i < 16, bitAt fr (16 + i) =
            if FMap.get (fun _ => 0) x.chg i + 2000 ≤ s.m.tb1 ∨ FMap.get (fun _ => 0) x.chg i = 0 then bitAt x.outputs i else bitAt x.rb i)
          ∧ (x.edges = [] ∨ s.m.bit rFldStat 1 = false → bits fr 47 32 = 0 ∧ m'.side.edges = x.edges)
          ∧ (∀ e rest, s.m.bit rFldStat 1 = true → x.edges = e :: rest → e.te = none →
            bits fr 47 46 = 3 ∧ bits fr 45 42 = e.i.val ∧ bitAt fr 34 = e.level ∧ m'.side.edges = rest)
          ∧ ∀ e rest n t, s.m.bit rFldStat 1 = true → x.edges = e :: rest → e.te = some t → 800 + 400 * n ≤ t → t < 1200 + 400 * n → n < k →
            bits fr 45 42 = e.i.val ∧ bitAt fr 34 = e.level ∧ m'.side.edges = rest
              ∧ (k - 1 - n ≤ 3 → bits fr 47 46 = 1 ∧ bits fr 41 35 = (t - 800 - 400 * n) / 5 ∧ bits fr 33 32 = k - 1 - n)
              ∧ (3 < k - 1 - n → bits fr 47 46 = 3)))
    ∧ (∀ (fr : W64), s.m.pwr.inReset = false → 400 * f.upSlot s.m.tb1 + 1300 ≤ s.m.tb1 →
      let got : Fld := { f with up := f.up.drop 1, upHeardAt := s.m.tb1 }
      (frameOk fr = false → f.upBad < 3 → Completes (.upFrame fr) s fun m' =>
        m'.fld = { got with upGood := 0, upBad := f.upBad + 1 } ∧ m'.reg rFldUcrcCnt = satInc (s.m.reg rFldUcrcCnt)
          ∧ (m'.reg rFldErr).getLsbD 1 = true ∧ m'.reg rFldIn = s.m.reg rFldIn ∧ m'.bit rFldStat 1 = s.m.bit rFldStat 1)
      ∧ (frameOk fr = false → 3 ≤ f.upBad → Completes (.upFrame fr) s fun m' => m'.bit rFldStat 1 = false ∧ m'.fld.upGood = 0
          ∧ m'.reg rFldUcrcCnt = satInc (s.m.reg rFldUcrcCnt) ∧ (s.m.bit rFldStat 1 = true → (m'.reg rFldErr).getLsbD 2 = true))
      ∧ (frameOk fr = true → s.m.bit rFldStat 1 = false → Gives (.upFrame fr) s
        (({ s.m with fld := { got with upGood := f.upGood + 1, upBad := 0 } } : Mach).inc rFldUcrcCnt)))
    ∧ (∀ (fr : W64) j, s.m.UpTaken fr j →
      let m := s.m.upHeard fr
      let rb := (m.setReg rFldRb (BitVec.ofNat 32 (bits fr 31 16))).compareRb (bits fr 31 16)
      let ta : Int := 400 * (j : Int) + 1300
      let page := bits fr 45 44
      (bits fr 47 46 = 0 → Gives (.upFrame fr) s rb)
      ∧ (bits fr 47 46 = 1 → Gives (.upFrame fr) s ((rb.inc rFldEdgeCnt).inputMarker (bits fr 45 42) (bitAt fr 34)
        (400 * ((j : Int) - 1 - (bits fr 33 32 : Nat)) + 800 + 5 * (bits fr 41 35 : Nat)) ta false))
      ∧ (bits fr 47 46 = 3 → Gives (.upFrame fr) s (((rb.inc rFldEdgeCnt).raiseFld 5).inputMarker (bits fr 45 42) (bitAt fr 34) ta ta true))
      ∧ (bits fr 47 46 = 2 → page < 2 → Completes (.upFrame fr) s fun m' =>
        let a := if page = 0 then rFldWb else rFldOc
        m'.reg a = BitVec.ofNat 32 (bits fr 31 16) ∧ m'.fld = m.fld ∧ m'.reg rFldRb = s.m.reg rFldRb
          ∧ ((∃ i < 16, bitAt fr (16 + i) = true ∧ s.m.bit a i = false) → (m'.reg rFldErr).getLsbD (if page = 0 then 7 else 6) = true))
      ∧ (bits fr 47 46 = 2 → page = 2 → Completes (.upFrame fr) s fun m' =>
        m'.bit rFldStat 3 = bitAt fr 16 ∧ m'.bit rFldStat 2 = bitAt fr 17 ∧ m'.bit rFldStat 4 = bitAt fr 18 ∧ m'.fld = m.fld
          ∧ m'.reg rFldRb = s.m.reg rFldRb ∧ (s.m.bit rFldStat 3 = true → bitAt fr 16 = false → (m'.reg rFldErr).getLsbD 9 = true)
          ∧ (s.m.bit rFldStat 4 = false → bitAt fr 18 = true → (m'.reg rFldErr).getLsbD 10 = true))
      ∧ (bits fr 47 46 = 2 → page = 3 →
        let echoed := f.cfgq = [] ∧ f.awaiting = some (BitVec.ofNat 8 (bits fr 39 32), BitVec.ofNat 16 (bits fr 31 16))
        (echoed → Gives (.upFrame fr) s (({ m with fld := { m.fld with awaiting := none } } : Mach).putBit rFldStat 5 false))
        ∧ (¬echoed → Gives (.upFrame fr) s m)))
    ∧ (∀ (m : Mach) (rb i : Nat), i < 16 → (m.compareRb rb).fld.rbSince.lookup i =
      if bitAt (BitVec.ofNat 16 rb) i = bitAt m.side.outputs i then none else some ((m.fld.rbSince.lookup i).getD m.tb1))
    ∧ (s.m.pwr.inReset = false → s.m.bit rFldStat 1 = false → 2 ≤ f.upGood → Completes .upLock s fun m' =>
      m'.bit rFldStat 1 = true ∧ m'.bit rFldStat 5 = true ∧ m'.fld.cfgq = f.cfgq ++
        ((List.range 16).map fun i => ((BitVec.ofNat 8 i, (s.m.reg (rFldDeb i)).setWidth 16) : BitVec 8 × BitVec 16)) ++
        ([(0x10, (s.m.reg rFldSafe).setWidth 16), (0x11, (s.m.reg rFldSafe >>> 16).setWidth 16), (0x12, (s.m.reg rFldTimeout).setWidth 16),
          (0x13, (s.m.reg rFldWben).setWidth 16)] : List (BitVec 8 × BitVec 16)))
    ∧ (f.upHeardAt + 400 * (4 - f.upBad) ≤ s.m.tb1 → s.m.bit rFldStat 1 = true → Completes .upLost s fun m' =>
      m'.bit rFldStat 1 = false ∧ (m'.reg rFldErr).getLsbD 2 = true
      ∧ m'.fld = { f with upGood := 0, rbSince := [] } ∧ ∀ a, a = rFldIn ∨ a = rFldRb ∨ a = rFldWb ∨ a = rFldOc → m'.reg a = s.m.reg a)
    ∧ (s.m.tb1 < f.upHeardAt + 400 * (4 - f.upBad) ∨ s.m.bit rFldStat 1 = false → Gives .upLost s s.m)
    ∧ (∀ i : Fin 16,
      let long := ∃ t, f.rbSince.lookup i.val = some t ∧ t + 1000 * s.m.rbits rFldRbt 15 0 ≤ s.m.tb1
      (s.m.bit rFldStat 1 = true → long → Completes (.rbMis i) s fun m' =>
        m'.bit rFldRbMis i = true ∧ (m'.reg rFldErr).getLsbD 8 = true ∧ m'.fld = f)
      ∧ (s.m.bit rFldStat 1 = false ∨ ¬long → Gives (.rbMis i) s s.m))
    ∧ (s.m.hostUp = true →
      let queued := fun (m' : Mach) (l : List (BitVec 8 × BitVec 16)) => m'.fld.cfgq = f.cfgq ++ l ∧ m'.fld.awaiting = l.getLast?
        ∧ m'.bit rFldStat 5 = true ∧ m'.side = x ∧ m' = { s.m with regs := m'.regs, fld := m'.fld }
      Completes .fldCmdResume s (queued · [(0x20, 0)]) ∧ Completes .fldCmdForceSafe s (queued · [(0x21, 0)])
      ∧ (∀ v : W32, v.setWidth 16 ≠ (0 : BitVec 16) → Completes (.fldOcClear v) s fun m' => queued m' [(0x15, v.setWidth 16)]
        ∧ m'.reg rFldOc = (s.m.writeReg rFldOc v).reg rFldOc)
      ∧ (∀ v : W32, Completes (.fldOutHostWrite v) s fun m' => m'.fld.commanded = s.m.pos.outMask ||| (m'.reg rFldOutHost).setWidth 16
        ∧ m'.reg rFldOutHost = (s.m.writeReg rFldOutHost v).reg rFldOutHost ∧ m'.fld.framed = f.framed)
      ∧ (∀ (i : Fin 16) (v : W32), let us := if bits v 15 0 = 0 then 1 else bits v 15 0
        Completes (.configurationWrite (.deb i) v) s fun m' => queued m' [(BitVec.ofNat 8 i.val, BitVec.ofNat 16 us)]
          ∧ m'.reg (rFldDeb i) = BitVec.ofNat 32 us)
      ∧ ∀ v : W32, let us := max 2 (min 10000 (bits v 13 0))
        Completes (.configurationWrite .timeout v) s (fun m' => queued m' [(0x12, BitVec.ofNat 16 us)] ∧ m'.reg rFldTimeout = BitVec.ofNat 32 us)
        ∧ Completes (.configurationWrite .wben v) s (fun m' => queued m' [(0x13, v.setWidth 16)])
        ∧ Completes (.configurationWrite .safe v) s (fun m' => queued m' [(0x10, (m'.reg rFldSafe).setWidth 16),
          (0x11, (m'.reg rFldSafe >>> 16).setWidth 16)] ∧ ∀ i < 16, bits (m'.reg rFldSafe) (2 * i + 1) (2 * i) =
            if bits v (2 * i + 1) (2 * i) = 3 then 0 else bits v (2 * i + 1) (2 * i)))

/-- A ring frame for another module goes on, an unauthentic one is discarded, and one taken writes, reports, delivers or pauses
as its type says. (R353, R354, R355, R356, R357, R361, R366, R389, R390, R414) -/
def Obligations.RingFramesGoOnOrActAtTheirTarget : Prop :=
  ∀ (s : State) (p : Fin 4) (f : RFrame),
    let m := s.m
    (m.RingHeard p f → ∀ (ty : Nat) (c : Instr), (ty, c) ∈ [(0x10, .ringWrite p f), (0x11, .ringDrop p f), (0x20, .ringVerdict p f),
        (0x30, .ringRemap p f), (6, .ringWrapn p f), (5, .ringToken p f)] →
      (f.dst.toNat ≠ m.modId → f.dst ≠ 0xFF → Gives c s (m.forward p ty f))
      ∧ (f.dst = 0xFF → f.dst.toNat ≠ m.modId → f.src.toNat = m.modId → Gives c s m)
      ∧ (f.dst.toNat = m.modId → m.authentic ty f = none → Gives c s (m.raiseLnk 21 p))
      ∧ (f.dst = 0xFF → f.dst.toNat ≠ m.modId → f.src.toNat ≠ m.modId → (m.forward p ty f).authentic ty f = none →
        Gives c s ((m.forward p ty f).raiseLnk 21 p)))
    ∧ (∀ c ∈ [Instr.ringWrite p f, .ringDrop p f, .ringVerdict p f, .ringRemap p f, .ringWrapn p f, .ringToken p f],
      (m.ringHears p = false → Gives c s m)
      ∧ (m.ringHears p = true → f.payload.length ≤ 64 → m.scrubbing = true → Gives c s m.scrubbed))
    ∧ (∀ g, m.RingTakes p 0x10 f g true → let n := m.ringTaken p 0x10 f true
      Gives (.ringWrite p f) s { n with flights := n.flights ++ g.payload.mapIdx fun k d =>
        ({ writer := BitVec.ofNat 16 (0x8000 + g.src.toNat),
           target := if oct g 18 1 % 2 = 1 then .gran (oct g 16 2 % 8) (oct g 20 4 + k) else .slot (oct g 16 2 % 1024) (oct g 20 4 + k),
           data := some d, ovr := (oct g 18 1).testBit 1, gen := some (oct g 24 2), issue := n.cyc, due := n.cyc, blocked := false,
           owner := .ring g.src.toNat g.seq.toNat } : Flight) })
    ∧ (∀ g, m.RingTakes p 0x11 f g true → let n := m.ringTaken p 0x11 f true
      Completes (.ringDrop p f) s fun m' => m'.rbits rLnkDropStat 15 0 = min 65535 (n.rbits rLnkDropStat 15 0 + 1)
        ∧ (m'.reg rLnkErr).getLsbD 18 = true ∧ m'.bit rLnkDropStat 31 = true
        ∧ (n.bit rLnkDropStat 31 = true → m'.reg rLnkDropInfo = n.reg rLnkDropInfo ∧ m'.reg rLnkDropAddr = n.reg rLnkDropAddr)
        ∧ (n.bit rLnkDropStat 31 = false → m'.rbits rLnkDropInfo 25 16 = oct f 28 2 % 1024 ∧ m'.rbits rLnkDropInfo 11 9 = oct f 20 1 % 8
          ∧ m'.rbits rLnkDropInfo 4 0 = f.src.toNat % 32 ∧ (m'.reg rLnkDropAddr).toNat = oct f 24 4 % 2 ^ 22)
        ∧ m'.mem = n.mem ∧ m'.ring = n.ring)
    ∧ (∀ g u, m.RingTakes p 0x20 f g true → g.payload = [u] → let n := m.ringTaken p 0x20 f true
      Gives (.ringVerdict p f) s { n with hif := { n.hif with vouts := n.hif.vouts ++
        [{ idx := BitVec.ofNat 48 (fieldAt (slotBytes u) 32 6), flags := BitVec.ofNat 16 (fieldAt (slotBytes u) 38 2),
           payload := bytesSlot (padTo 64 ((slotBytes u).take 32)), remote := true }] } })
    ∧ (∀ g, m.RingTakes p 0x30 f g true → let n := m.ringTaken p 0x30 f true
      (oct g 16 2 ≠ n.ring.gen.toNat → Gives (.ringRemap p f) s n)
      ∧ (n.queueOfType 0xE = none → Gives (.ringRemap p f) s n)
      ∧ ∀ q, oct g 16 2 = n.ring.gen.toNat → n.queueOfType 0xE = some q → FMap.get (fun _ => Ecc.ok) n.hif.ecc q = .ok →
        let cnt := g.payload.length + 1
        let room := n.qSize q - (n.queue q).held
        Completes (.ringRemap p f) s fun m' => (m'.queue q).pi = (n.queue q).pi + BitVec.ofNat 32 (min cnt room)
          ∧ (m'.queue q).ci = (n.queue q).ci ∧ (room < cnt → m'.bit (rQStat q) 0 = true ∧ (m'.queue q).lostBefore = true)
          ∧ m'.mem = n.mem ∧ m'.ring = n.ring)
    ∧ (∀ g, m.RingTakes p 6 f g true → let n := m.ringTaken p 6 f true
      let w := 4 * (oct f 16 1 % 32) + oct f 17 1 % 4
      Completes (.ringWrapn p f) s fun m' => m' = { n with ring := { n.ring with wraps := m'.ring.wraps, syncHops := [] } }
        ∧ ∀ k, (k ∈ m'.ring.wraps ↔ if k = w then oct f 18 1 % 2 = 1 else k ∈ n.ring.wraps))
    ∧ (∀ cls : Fin 6, m.ringHears p = true → let x := m.link (12 + p)
      (cls.val < 2 ∨ cls.val ∈ x.paused → Gives (.ringXoff p cls) s m)
      ∧ (2 ≤ cls.val → cls.val ∉ x.paused → Gives (.ringXoff p cls) s (m.setLink (12 + p) { x with paused := cls.val :: x.paused }))
      ∧ Completes (.ringXon p cls) s fun m' => (∀ k, k ∈ (m'.link (12 + p)).paused ↔ k ∈ x.paused ∧ k ≠ cls.val)
        ∧ (m'.link (12 + p)).out = x.out
          ++ x.held.filter (fun f => frameClass f.type.toNat == cls.val && !(f.fr.src.toNat == m.modId))
          ++ x.held.filter (fun f => frameClass f.type.toNat == cls.val && f.fr.src.toNat == m.modId)
        ∧ (∀ f, f ∈ (m'.link (12 + p)).held ↔ f ∈ x.held ∧ frameClass f.type.toNat ≠ cls.val) ∧ m' = m.setLink (12 + p) (m'.link (12 + p)))
    ∧ (m.up = true → m.ringConnected p = true → 3 ≤ m.rpState p →
      Gives (.frameCrcFail p .crc) s ((m.inc (rRpCrc p)).raiseLnk 10 p) ∧ Gives (.frameCrcFail p .tag) s (m.raiseLnk 21 p)
        ∧ Gives (.frameCrcFail p .seq) s (m.raiseLnk 21 p))

/-- VER and ECHO make a link ACTIVE, HELLO makes and silence ends a member, the token passes and expires by its rules, and TB2
follows its master. (R352, R354, R358, R359, R360, R361, R362, R363, R366, R367) -/
def Obligations.RingModulesMeetAndKeepTokenAndTime : Prop :=
  ∀ (s : State) (p : Fin 4),
    let m := s.m
    let x := m.link (12 + p)
    (m.up = true → m.ringConnected p = true → (m.rpState p = 3 ∨ m.rpState p = 5) → x.verSeen = false →
      Gives (.rillVerSend p) s (m.sendNear p 1 [1, 0, 0, BitVec.ofNat 8 p.val, BitVec.ofNat 8 m.modId]))
    ∧ (∀ f : RFrame, m.up = true → m.ringConnected p = true → m.rpState p = 3 → x.verSeen = false → m.scrubbing = false →
      let n := ((m.setLink (12 + p) { x with verSeen := true, hops := 0, minH := 0, maxH := 0 }).setFld (rRpStat p) 30 29
        (oct f 19 1 % 4)).setFld (rRpStat p) 28 24 (oct f 20 1 % 32)
      (oct f 16 1 ≠ 1 ∨ oct f 18 1 ≠ 0 → Gives (.rillVer p f) s ((n.setRpState p 5).raiseLnk 7 p))
      ∧ (oct f 16 1 = 1 → oct f 18 1 = 0 → oct f 19 1 ≠ otherPort p → Gives (.rillVer p f) s ((n.setRpState p 6).raiseLnk 6 p))
      ∧ (oct f 16 1 = 1 → oct f 18 1 = 0 → oct f 19 1 = otherPort p → Completes (.rillVer p f) s fun m' =>
        m'.rpState p = 3 ∧ m'.rbits (rRpStat p) 30 29 = otherPort p ∧ m'.rbits (rRpStat p) 28 24 = oct f 20 1 % 32
          ∧ m'.rbits (rRpStat p) 23 16 = 0 ∧ ∃ r : Mach, m' = r.sendNear p 3 (leBytes 8 (m.cyc * 80 / 7)) ∧ r = { n with regs := r.regs }))
    ∧ (∀ (f : RFrame) (t : W64), m.up = true → m.ringConnected p = true → m.scrubbing = false →
      (m.rpState p = 3 ∨ m.rpState p = 4 → oct f 24 8 = 0 → Gives (.rillEcho p f t) s
        (m.sendNear p 3 (leBytes 8 (oct f 16 8) ++ leBytes 4 t.toNat ++ leBytes 4 (m.cyc * 80 / 7))))
      ∧ (m.rpState p = 3 → x.verSeen = true → oct f 24 8 ≠ 0 → x.hops = 63 →
        let h := hopOf (oct f 16 8) (oct f 24 4) (oct f 28 4) t.toNat
        Completes (.rillEcho p f t) s fun m' => m'.rpState p = 4 ∧ m'.rbits (rRpHop p) 19 0 = min 0xFFFFF (min x.minH h)
          ∧ m'.rbits (rRpHop p) 27 20 = min 0xFF (max x.maxH h - min x.minH h) ∧ (m'.link (12 + p)).activeAt = m.tb1
          ∧ (max x.maxH h - min x.minH h ≤ 32 → m'.reg rLnkErr = m.reg rLnkErr)))
    ∧ (m.up = true → m.bit rLnkRingCfg 9 = false → Gives .helloSend s (m.sendClear 0 2 0xFF [BitVec.ofNat 8
      (b2n (m.bit rLnkRingCfg 10) + 2 * b2n (m.rbits rLnkRingStat 27 24 != 0) + 4 * b2n m.ring.held), 0]))
    ∧ (∀ f : RFrame, m.ringHears p = true → m.scrubbing = false → f.src.toNat = m.modId → m.foreignHello p f = true →
      Completes (.ringHello p f) s fun m' => m'.dupId = true ∧ (m'.reg rLnkErr).getLsbD 15 = true ∧ m'.ring = m.ring)
    ∧ (∀ f g : RFrame, m.RingTakes p 2 f g true → f.src.toNat < 32 → (f.src.toNat ≠ m.modId ∨ m.foreignHello p f = false) →
      Completes (.ringHello p f) s fun m' => m'.ring.members.lookup f.src.toNat = some m.tb1
        ∧ (m.ringOn = true → (m'.reg rLnkMembers).getLsbD f.src.toNat = true) ∧ m'.mem = m.mem)
    ∧ (∀ (k : Fin 32) t, m.ring.members.lookup k.val = some t →
      (m.tb1 < t + 200000 → Gives (.memberExpiry k) s m)
      ∧ (t + 200000 ≤ m.tb1 → Completes (.memberExpiry k) s fun m' => m'.ring.members.lookup k.val = none
        ∧ (k.val ≠ m.modId → (m'.reg rLnkMembers).getLsbD k.val = false) ∧ m'.mem = m.mem))
    ∧ (m.up = true → m.ringOn = true → m.ring.held = true → Completes .tokenSend s fun m' =>
      m'.ring.tokenT = m.tb1 ∧ m'.ring.tokenValid = true ∧ m'.ring.held = true ∧ m'.ring.gen = m.ring.gen)
    ∧ (∀ f g : RFrame, m.RingTakes p 5 f g true → let gen := BitVec.ofNat 16 (oct f 16 2)
      let accepted := m.ring.tokenAny = false ∨ 0 < (gen - m.ring.gen).toInt ∨ (gen = m.ring.gen ∧ oct f 18 1 % 32 ≤ m.ring.holder)
      (accepted → Completes (.ringToken p f) s fun m' => m'.ring.gen = gen ∧ m'.ring.tokenValid = true
        ∧ m'.ring.tokenT = m.tb1 ∧ m'.ring.holder = (if oct f 19 1 < 32 then oct f 19 1 else oct f 18 1 % 32)
        ∧ m'.ring.held = (m'.ring.holder == m.modId))
      ∧ (¬accepted → Gives (.ringToken p f) s (m.ringTaken p 5 f true)))
    ∧ (m.up = true → (m.ringOn = true ∨ m.ring.tokenValid = true) →
      (m.tb1 < m.ring.tokenT + m.rbits rLnkToken 15 0 * 1000 → Gives .tokenExpiry s m)
      ∧ (m.ring.tokenT + m.rbits rLnkToken 15 0 * 1000 ≤ m.tb1 → Completes .tokenExpiry s fun m' =>
        (m'.reg rLnkErr).getLsbD 16 = true
        ∧ (m.ringOn = true → m.bit rLnkToken 16 = true → m.memberNos.head? = some m.modId → m'.ring.gen = m.ring.gen + 1 ∧ m'.ring.held = true
          ∧ m'.ring.holder = m.modId ∧ m'.ring.tokenValid = true ∧ (m'.reg rLnkErr).getLsbD 17 = true)
        ∧ (m.ringOn = false ∨ m.bit rLnkToken 16 = false ∨ m.memberNos.head? ≠ some m.modId →
          m'.ring = { m.ring with tokenValid := false, tokenT := m.tb1 })))
    ∧ (m.hostUp = true → m.ringOn = true → m.ring.held = true → Completes .tokenPass s fun m' =>
      m'.ring.holder = m.rbits rLnkToken 22 18 ∧ m'.ring.held = (m.rbits rLnkToken 22 18 == m.modId) ∧ m'.ring.gen = m.ring.gen
        ∧ m'.ring.tokenT = m.tb1)
    ∧ (m.up = true → m.ringOn = true → m.ring.isTb2Master = true → Gives .tb2syncSend s
      ((m.sendClear 0 4 0xFF (leBytes 8 m.tb2 ++ [0])).sendClear 1 4 0xFF (leBytes 8 m.tb2 ++ [0])))
    ∧ (∀ f g : RFrame, m.RingTakes p 4 f g false →
      let off : Int := 16 * (oct f 16 8 : Nat) + (m.rbits (rRpHop p) 19 0 : Nat) - m.tb2x
      let first := m.ring.isTb2Master = false ∧ p.val < 2 ∧ m.ring.syncHops = []
      (m.ring.isTb2Master = true ∨ 2 ≤ p.val → Gives (.tb2sync p f) s (m.ringTaken p 4 f false))
      ∧ (first → Completes (.tb2sync p f) s fun m' =>
        m'.bit rPosStat 5 = true ∧ m'.pos.tb2Set = true ∧ m'.ring.syncHops = [(p.val, oct f 24 1)] ∧ m'.ring.tb2T = m.tb1
          ∧ ((m.bit rPosStat 5 = false ∨ 16000 < off.natAbs) → m'.pos.tb2 = m.pos.tb2 + m.slewed + off ∧ m'.pos.tb2Slew = 0)
          ∧ (m.bit rPosStat 5 = true → off.natAbs ≤ 16000 → m'.pos.tb2 = m.pos.tb2 + m.slewed ∧ m'.pos.tb2Slew = max (-16) (min 16 off)))
      ∧ (∀ h, m.ring.isTb2Master = false → p.val < 2 → m.ring.syncHops.lookup (otherPort p) = some h →
        (h < oct f 24 1 ∨ (h = oct f 24 1 ∧ p.val = 0)) → Completes (.tb2sync p f) s fun m' =>
          m'.pos = m.pos ∧ m'.links = m.links ∧ m'.ring.tb2T = m.ring.tb2T))
    ∧ (m.up = true → m.ring.isTb2Master = false → m.bit rPosStat 5 = true → m.ring.tb2T + 100000 ≤ m.tb1 →
      Completes .tb2Lost s fun m' => m'.bit rPosStat 5 = false ∧ (m'.reg rLnkErr).getLsbD 19 = true ∧ m'.pos = m.pos
        ∧ m'.ring.syncHops = [])
    ∧ (m.up = true → m.bit rLnkWrap 1 = true → x.wrapped = true → m.rpState p = 4 →
      x.activeAt + m.rbits rLnkWrap 31 16 * 1000000 ≤ m.tb1 → Completes (.unwrapHoldoff p) s fun m' =>
        m' = m.setWrap p false ∧ (m'.link (12 + p)).wrapped = false)
    ∧ (m.hostUp = true → Gives .unwrap s ((List.range 4).foldl (fun (n : Mach) k =>
      if (n.link (12 + k)).wrapped = true ∧ n.rpState k = 4 ∧ (n.link (12 + k)).activeAt + n.rbits rLnkWrap 31 16 * 1000000 ≤ n.tb1
      then n.setWrap k false else n) m))

/-- A ring plan's descriptors start through their gates and complete in order, RING_TX is answered, and VERDICT_COMMIT routes,
records or discards. (R127, R130, R356, R361, R389, R390, R391, R392, R394) -/
def Obligations.RingPlansMessagesAndVerdictsLeave : Prop :=
  ∀ (s : State),
    let m := s.m
    (∀ plane : Fin 2, let x := m.ringEng plane
      (m.nextRing plane = none → Gives (.ringPlanDescriptor plane) s m)
      ∧ (∀ d, m.nextRing plane = some d →
        let n := m.advanceTo x.start
        let id := BitVec.ofNat 16 (0x8000 + m.modId)
        (d.d.gate = true → (n.gate (.ring plane) d.d.glatch d.d.gcnt).2 = false → Completes (.ringPlanDescriptor plane) s fun m' =>
          (m'.ringEng plane).inflight = x.inflight ∧ (m'.ringEng plane).next = x.next ∧ (m'.ringEng plane).pass = x.pass
            ∧ m' = { (n.gate (.ring plane) d.d.glatch d.d.gcnt).1 with ring := m'.ring })
        ∧ (d.d.gate = false → (∀ r ∈ x.inflight, (r.sent = false → r.run.left ≠ 0) ∧ ¬(r.run.index = x.next ∧ r.run.pass = x.pass)) →
          (d.d.op = 0 ∨ ringInRange d.d = false ∨ 0 < d.d.len) → Completes (.ringPlanDescriptor plane) s fun m' =>
          let moves := d.d.op ≠ 0 ∧ ringInRange d.d = true
          (∃ r : RingRun, (m'.ringEng plane).inflight = x.inflight ++ [r] ∧ r.run.desc = d.d ∧ r.run.index = x.next ∧ r.run.pass = x.pass
            ∧ r.dmod = d.dmod ∧ r.run.range = !ringInRange d.d ∧ (moves → r.run.left = d.d.len ∧ r.sent = false)
            ∧ (¬moves → r.run.left = 0 ∧ (r.sent = true ↔ ∀ y ∈ x.inflight, y.sent = true)))
          ∧ (m'.ringEng plane).st = .move
          ∧ (d.d.last = true ∨ x.plan.length ≤ x.next + 1 → (m'.ringEng plane).pass = x.pass + 1 ∧ (m'.ringEng plane).next = 0)
          ∧ (d.d.last = false → x.next + 1 < x.plan.length → (m'.ringEng plane).next = x.next + 1 ∧ (m'.ringEng plane).plan = x.plan)
          ∧ m' = { n with ring := m'.ring, chanQ := m'.chanQ }
          ∧ (¬moves → m'.chanQ = n.chanQ)
          ∧ (moves → m'.chanQ = n.chanQ ++ (List.range d.d.len).map fun k =>
            { stack := d.d.sstack, gran := d.d.sgran.toNat + k, requester := id.toNat, sched := false, due := n.cyc,
              read := some (.ring plane x.next x.pass k), write := none })))
      ∧ (∀ r rest, x.inflight = r :: rest → r.sent = false ∨ m.waitsAt plane r = true → Gives (.ringPlanComplete plane) s m)
      ∧ ∀ r rest, x.inflight = r :: rest → r.sent = true → m.waitsAt plane r = false → Completes (.ringPlanComplete plane) s fun m' =>
        (m'.ringEng plane).inflight = rest ∧ (m'.ringEng plane).plan = x.plan
          ∧ m'.flights = m.flights ++ (if r.run.desc.crec then
            [{ writer := BitVec.ofNat 16 (0x8000 + m.modId), target := .slot r.run.desc.ctile r.run.desc.cslot,
               data := some (bytesSlot r.run.record), ovr := false, gen := some r.run.cgen, issue := m.cyc, due := m.cyc, blocked := false,
               owner := .crec (32 + plane.val) }] else [])
          ∧ (r.run.desc.csig = false → m'.signals = m.signals)
          ∧ (r.run.desc.csig = true → ∃ g, m'.signals = m.signals ++ [g] ∧ g.latch = r.run.desc.clatch ∧ g.amount = r.run.desc.ccnt))
    ∧ (∀ (q : Fin 8192) (msg : List Slot), m.qReady q 0xD = true →
      let bytes := msg.flatMap slotBytes
      let l := fieldAt bytes 4 4
      let cnt := max 1 ((min l 4096 + 79) / 64)
      let taken := (List.range cnt).foldl (fun (n : Mach) _ => n.qTake q) m
      let dst := fieldAt bytes 0 1
      let gen := leBytes 2 m.ring.gen.toNat
      let answers := fun (n : Mach) (st : Nat) => Gives (.ringTx q msg) s (match n.queueOfType 3 with
        | some d => n.qPush d (leBytes 1 5 ++ leBytes 1 st ++ leBytes 2 (fieldAt bytes 2 2)
            ++ leBytes 4 (m.queue q).ci.toNat ++ leBytes 8 m.tb1 ++ padTo 8 gen ++ zeros 8)
        | none => n)
      let well := 0 < l ∧ l ≤ 4096 ∧ fieldAt bytes 1 1 = 0 ∧ fieldAt bytes 8 8 = 0 ∧ (dst < 32 ∨ dst = 0xFF)
      ((m.queue q).held < cnt ∨ msg.length ≠ cnt → Gives (.ringTx q msg) s m)
      ∧ (cnt ≤ (m.queue q).held → msg.length = cnt →
        (¬well → answers taken 5)
        ∧ (well → m.ring.held = false → answers taken 6)
        ∧ (well → m.ring.held = true → answers (taken.sendSealed (if dst = 0xFF then 0 else taken.routeTo 0 dst) 0x30 dst gen
          ((List.range ((l + 63) / 64)).map fun i => bytesSlot (padTo 64 (slice ((bytes.drop 16).take l) (64 * i) 64)))) 0)))
    ∧ ∀ v rest, m.hif.vouts = v :: rest →
      let n : Mach := { m with hif := { m.hif with vouts := rest } }
      let b := slotBytes v.payload
      let away := v.remote = false ∧ fieldAt b 24 1 = 1 ∧ fieldAt b 25 1 ≠ m.modId
      (away → Gives .verdictCommit s (({ n with flt := n.flt.dropTallies v.idx.toNat } : Mach).sendSealed (n.routeTo 0 (fieldAt b 25 1)) 0x20
        (fieldAt b 25 1) [] [v.unit]))
      ∧ (¬away → v.flags.getLsbD 1 = true → Gives .verdictCommit s n)
      ∧ (¬away → v.flags.getLsbD 1 = false →
        (∀ x, m.prep.part v.idx = some x → Gives .verdictCommit s (n.commitRecord x (n.ballotOf v) (voutReason v.flags v.payload)))
        ∧ (∀ x, m.prep.part v.idx = none → (m.prep.injected.find? fun y => y.idx == v.idx) = some x →
          Gives .verdictCommit s (n.commitInjected x (n.ballotOf v) (voutReason v.flags v.payload)))
        ∧ (m.prep.part v.idx = none → (m.prep.injected.find? fun y => y.idx == v.idx) = none →
          (v.remote = true → Gives .verdictCommit s ((n.inc rHifCntVdisc).raiseHif 7 0))
          ∧ (v.remote = false → Completes .verdictCommit s fun m' => m' = { n with regs := m'.regs, flt := n.flt.dropTallies v.idx.toNat }
            ∧ m'.reg rHifCntVdisc = satInc (m.reg rHifCntVdisc))))

/-- Host accesses: wrong widths are refused and logged, staging reaches the host region alone, reads answer each BAR, and writes
follow their codes. (R10, R14, R15, R16, R17, R18, R374, R376, R377, R381, R383, R384) -/
def Obligations.HostAccessesAreCheckedStagedAndWritten : Prop :=
  ∀ (s : State), s.m.hostUp = true →
    (∀ (bar : Bar) (off : W32) (size : Nat) (write : Bool),
      let allowed := match bar with
        | .bar0 => size = 4 ∧ off.toNat % 4 = 0
        | .bar2 => 1 ≤ size ∧ size ≤ 4096
        | .bar4 => if off.toNat < 0x00100000 then size = 4 ∧ off.toNat % 4 = 0
            else write = false ∧ size ∈ [4, 8, 16, 32, 64] ∧ off.toNat % size = 0
      (allowed ∨ barSize bar < off.toNat + size → Gives (.badWidthAccess bar off size write) s s.m)
      ∧ (¬allowed → off.toNat + size ≤ barSize bar → s.m.closedTo bar off.toNat = true → Gives (.badWidthAccess bar off size write) s
        (if write then s.m else { s.m with hif := { s.m.hif with rd := List.replicate size 0xFF } }))
      ∧ (¬allowed → off.toNat + size ≤ barSize bar → s.m.closedTo bar off.toNat = false → Completes (.badWidthAccess bar off size write) s fun m' => (m'.reg rHifErr).getLsbD 0 = true ∧ m'.mem = s.m.mem
        ∧ (bar = .bar4 → write = true → 0x00100000 ≤ off.toNat → (m'.reg rHifErr).getLsbD 2 = true)
        ∧ m'.hif.rd = (if write then s.m.hif.rd else List.replicate size 0xFF)
        ∧ (s.m.bit rHifErrInfo 31 = true → m'.reg rHifErrInfo = s.m.reg rHifErrInfo ∧ m'.reg rHifErrAddrLo = s.m.reg rHifErrAddrLo)
        ∧ (s.m.bit rHifErrInfo 31 = false → m'.reg rHifErrAddrLo = off ∧ m'.bit rHifErrInfo 31 = true ∧ m'.bit rHifErrInfo 3 = write
          ∧ m'.rbits rHifErrInfo 15 4 = min size 0xFFF ∧ m'.rbits rHifErrInfo 2 0 = barCode bar)))
    ∧ (∀ (off : BitVec 24) (size : Nat), 0x00100000 ≤ off.toNat →
      (s.m.closedTo .bar4 off.toNat = true → Gives (.recordAreaWrite off size) s s.m)
      ∧ (s.m.closedTo .bar4 off.toNat = false → Completes (.recordAreaWrite off size) s fun m' => (m'.reg rHifErr).getLsbD 0 = true
        ∧ (m'.reg rHifErr).getLsbD 2 = true ∧ m'.mem = s.m.mem ∧ m'.hif.queues = s.m.hif.queues))
    ∧ (∀ (off : BitVec 30) (size : Nat) (data : List Byte), 1 ≤ size → size ≤ 4096 → off.toNat + size ≤ 2 ^ 30 →
      let a := s.m.stgBase + off.toNat
      let whole := ∀ k < size, s.m.stgReach (a + k) = true
      (Completes (.stagingAccess false off size data) s fun m' => m'.mem = s.m.mem ∧ m'.hif.rd.length = size
        ∧ (∀ k < size, m'.hif.rd[k]? = some (if s.m.stgReach (a + k) then s.m.ddrByte (a + k) else 0xFF))
        ∧ (whole → m' = { s.m with hif := { s.m.hif with rd := m'.hif.rd } }) ∧ (¬whole → (m'.reg rHifErr).getLsbD 1 = true))
      ∧ (Completes (.stagingAccess true off size data) s fun m' =>
        (∀ b, m'.ddrByte b = if a ≤ b ∧ b < a + size ∧ s.m.stgReach b = true then data.getD (b - a) 0 else s.m.ddrByte b)
        ∧ m'.mem.spad = s.m.mem.spad ∧ m'.mem.stack = s.m.mem.stack
        ∧ (whole → m' = { s.m with mem := { s.m.mem with ddr := m'.mem.ddr, eccDdr := m'.mem.eccDdr } }) ∧ (¬whole → (m'.reg rHifErr).getLsbD 1 = true)))
    ∧ (∀ (a : BitVec 26) r, a.toNat % 4 = 0 → regRow a.toNat = some r → r.pair = true → s.m.closedTo .bar0 a.toNat = false →
      let m' : Mach := { s.m with hif := { s.m.hif with
        rd := leBytes 4 (s.m.readReg a.toNat).toNat, shadow := s.m.readReg (a.toNat + 4), shadowAt := some (a.toNat + 4) } }
      Gives (.lowHalfRead a) s m' ∧ ((regRow (a.toNat + 4)).any (·.pair) = false → ∀ n : Mach, n.hif = m'.hif → n.hostUp = true →
        n.closedTo .bar0 (a.toNat + 4) = false → a.toNat + 8 ≤ 2 ^ 26 →
        hostRead .bar0 (a.toNat + 4) 4 n = (leBytes 4 (s.m.readReg (a.toNat + 4)).toNat, { n with hif := { n.hif with shadowAt := none } })))
    ∧ (∀ (a : BitVec 26) r, a.toNat % 4 = 0 → regRow a.toNat = some r → r.pair = true → s.m.closedTo .bar0 a.toNat = true →
      Gives (.lowHalfRead a) s { s.m with hif := { s.m.hif with rd := List.replicate 4 0xFF } })
    ∧ (∀ a, a % 4 = 0 → a + 4 ≤ 2 ^ 26 → (regRow a).any (·.pair) = false → s.m.hif.shadowAt ≠ some a →
      hostRead .bar0 a 4 s.m = (if s.m.closedTo .bar0 a then List.replicate 4 0xFF else leBytes 4 (s.m.readReg a).toNat, s.m))
    ∧ (∀ q : Fin 8192, hostRead .bar4 (8 * q) 4 s.m = (leBytes 4 (if isH2D (s.m.qType q) then (s.m.queue q).ci else (s.m.queue q).pi).toNat, s.m)
      ∧ hostRead .bar4 (8 * q + 4) 4 s.m = ([0, 0, 0, 0], s.m))
    ∧ (∀ k : Fin 8192, hostRead .bar4 (0x10000 + 4 * k) 4 s.m = (leBytes 4 (FMap.get msixReset s.m.hif.msix k).toNat, s.m))
    ∧ (∀ k : Fin 64, let r := hostRead .bar4 (0x18000 + 4 * k) 4 s.m
      r.2 = s.m ∧ ∀ i < 32, (BitVec.ofNat 32 (leNat r.1)).getLsbD i = FMap.get (fun _ => false) s.m.hif.pba (32 * k + i))
    ∧ (∀ o size, 0x00100000 ≤ o → o + size ≤ 2 ^ 24 → size ∈ [4, 8, 16, 32, 64] → o % size = 0 →
      (s.m.closedTo .bar4 o = true → hostRead .bar4 o size s.m = (List.replicate size 0xFF, s.m))
      ∧ (s.m.areaAt o = none → hostRead .bar4 o size s.m = (zeros size, s.m))
      ∧ ∀ q k j, s.m.closedTo .bar4 o = false → s.m.areaAt o = some q → j + size ≤ entrySize (s.m.qType q) →
        o = (s.m.areaOf q (s.m.qType q)).1 + entrySize (s.m.qType q) * k + j →
        hostRead .bar4 o size s.m = ((List.range size).map fun i => (FMap.get (fun _ => []) (s.m.queue q).ents k).getD (j + i) 0, s.m))
    ∧ (∀ (a : BitVec 26) (v : W32), (a.toNat % 4 ≠ 0 ∨ regRow a.toNat = none ∨ s.m.variant.absentReg a.toNat = true ∨ (s.m.windowsClosed = true ∧ inContextWindow a.toNat = true)) →
      Gives (.registerWrite .bar0 a v) s s.m)
    ∧ (∀ (a : BitVec 26) (v : W32) r, a.toNat % 4 = 0 → regRow a.toNat = some r → 0x10000 ≤ a.toNat → a.toNat < 0x1000000 →
      (s.m.windowsClosed = false ∨ inContextWindow a.toNat = false) → ∃ w : W32, Gives (.registerWrite .bar0 a v) s (s.m.setReg a.toNat w)
        ∧ ∀ i < 32, w.getLsbD i = ((if r.rw.testBit i ∨ (r.rwl.testBit i ∧ s.m.sec.conf = false) then v.getLsbD i
            else (s.m.reg a.toNat).getLsbD i) && !(v.getLsbD i && r.w1c.testBit i && !s.m.justSet.contains (a.toNat, i))))
    ∧ ∀ (k : Fin 2048) (v : W32),
      let at_ := BitVec.ofNat 26 (0x10000 + 16 * k.val + 12)
      let n : Mach := { s.m with hif := { s.m.hif with msix := FMap.put msixReset s.m.hif.msix (4 * k.val + 3) (v &&& 1) } }
      (v.getLsbD 0 = true ∨ FMap.get (fun _ => false) s.m.hif.pba k.val = false → Gives (.registerWrite .bar4 at_ v) s n)
      ∧ (v.getLsbD 0 = false → FMap.get (fun _ => false) s.m.hif.pba k.val = true → Completes (.registerWrite .bar4 at_ v) s fun m' =>
        FMap.get (fun _ => false) m'.hif.pba k.val = false ∧ m'.hif.irqs = k.val :: s.m.hif.irqs ∧ m'.regs = s.m.regs)

/-- Doorbells move the host's index within bounds, queues are enabled and disabled under their checks, and lots, fences and
timers answer. (R123, R379, R381, R382, R383, R384, R385, R388, R398) -/
def Obligations.QueuesAreRungEnabledAndLotsRun : Prop :=
  ∀ (s : State) (q : Fin 8192),
    let x := s.m.queue q
    let size := s.m.qSize q
    (s.m.hostUp = true →
      (∀ v : W32, s.m.qEn q = false → Gives (.doorbellWrite q v) s (s.m.badDoorbell q))
      ∧ (∀ v : W32, s.m.qEn q = true → isH2D (s.m.qType q) = true →
        ((v - x.ci).toNat ≤ size → Gives (.doorbellWrite q v) s (s.m.setQueue q { x with pi := v }))
        ∧ (size < (v - x.ci).toNat → Gives (.doorbellWrite q v) s (s.m.badDoorbell q)))
      ∧ (∀ v : W32, s.m.qEn q = true → isH2D (s.m.qType q) = false →
        (size < (x.pi - v).toNat → Gives (.doorbellWrite q v) s (s.m.badDoorbell q))
        ∧ ((x.pi - v).toNat ≤ size → x.held < (v - x.ci).toNat → Gives (.doorbellWrite q v) s (s.m.setQueue q { x with ci := v }))
        ∧ ((x.pi - v).toNat ≤ size → (v - x.ci).toNat ≤ x.held → Completes (.doorbellWrite q v) s fun m' =>
          m' = s.m.setQueue q { x with ci := v, ents := (m'.queue q).ents }
            ∧ ∀ k, FMap.get (fun _ => []) (m'.queue q).ents k = if ∃ j < (v - x.ci).toNat, k = (x.ci.toNat + j) % size then []
              else FMap.get (fun _ => []) x.ents k))
      ∧ (∀ v : W32, s.m.qEn q = false → bitAt v 0 = true →
        let n := (((s.m.setFld (rQCfg q) 19 9 (bits v 19 9)).putBit (rQCfg q) 8 (bitAt v 8)).setFld (rQCfg q) 4 1 (bits v 4 1))
        (n.mayEnable q (bits v 4 1) = false → Gives (.qCfgWrite q v) s (n.badCfg q))
        ∧ (n.mayEnable q (bits v 4 1) = true → Completes (.qCfgWrite q v) s fun m' => m'.qEn q = true ∧ m'.qType q = bits v 4 1
          ∧ m'.rbits (rQCfg q) 19 9 = bits v 19 9 ∧ m'.bit (rQCfg q) 8 = bitAt v 8 ∧ m'.queue q = Queue.empty ∧ m'.reg (rQLost q) = 0
          ∧ (bits v 4 1 = 4 → let e := s.m.rbits (rQLink q) 20 16
            m'.engine e = (if (s.m.engine e).st = .revoked then s.m.engine e else { Engine.free with mode := .queue, feeds := true, queue := q.val })
              ∧ ∀ h, h ∈ m'.revoked ↔ h ∈ s.m.revoked ∧ h ≠ .queue q)
          ∧ ∀ k, k ≠ q.val → m'.queue k = s.m.queue k))
      ∧ (∀ v : W32, s.m.qEn q = false → bitAt v 0 = false → Gives (.qCfgWrite q v) s
        (((s.m.setFld (rQCfg q) 19 9 (bits v 19 9)).putBit (rQCfg q) 8 (bitAt v 8)).setFld (rQCfg q) 4 1 (bits v 4 1)))
      ∧ (∀ v : W32, s.m.qEn q = true → bitAt v 0 = true →
        (bits v 4 1 = s.m.qType q → Gives (.qCfgWrite q v) s ((s.m.setFld (rQCfg q) 19 9 (bits v 19 9)).putBit (rQCfg q) 8 (bitAt v 8)))
        ∧ (bits v 4 1 ≠ s.m.qType q → Completes (.qCfgWrite q v) s fun m' => m'.qEn q = true ∧ m'.qType q = s.m.qType q
          ∧ (m'.reg rHifErr).getLsbD 3 = true ∧ m'.queue q = x))
      ∧ (∀ v : W32, s.m.qEn q = true → bitAt v 0 = false → bits v 4 1 = s.m.qType q →
        (s.m.qType q = 1 → s.m.hif.lot.isOpen = true → Completes (.qCfgWrite q v) s fun m' => m'.qEn q = true ∧ (m'.reg rHifErr).getLsbD 3 = true
          ∧ m'.queue q = x)
        ∧ ((s.m.qType q ≠ 1 ∨ s.m.hif.lot.isOpen = false) → Completes (.qCfgWrite q v) s fun m' => m'.qEn q = false
          ∧ m'.queue q = { x with ents := [] })))
    ∧ (s.m.qEn q = true → s.m.bit (rQCfg q) 8 = true → s.m.rbits (rQMod q) 31 16 ≠ 0 → x.unsig ≠ 0 →
      (s.m.tb1 < x.oldest + 1000 * s.m.rbits (rQMod q) 31 16 → Gives (.irqTimer q) s s.m)
      ∧ (x.oldest + 1000 * s.m.rbits (rQMod q) 31 16 ≤ s.m.tb1 → Gives (.irqTimer q) s ((s.m.setQueue q { x with unsig := 0 }).signal (s.m.rbits (rQCfg q) 19 9))))
    ∧ (s.m.qEn q = true → isH2D (s.m.qType q) = true → Completes (.queueFetchFail q) s fun m' =>
      m'.qEn q = false ∧ m'.bit (rQStat q) 2 = true ∧ (m'.reg rHifErr).getLsbD 5 = true ∧ (m'.queue q).ci = x.ci)
    ∧ (∀ ent : Slot, let b := slotBytes ent
      let n := s.m.qTake q
      (s.m.CmdTakes q ent 2 → fieldAt b 1 1 = 0 → reservedZero b [(4, 2), (8, 6)] = true → fieldAt b 8 6 ≠ 2 ^ 48 - 1 →
        (s.m.hif.lot.isOpen = true → Gives (.lotStart q ent) s (n.cmdDone q 2 2 (fieldAt b 2 2) x.ci []))
        ∧ (s.m.hif.lot.isOpen = false → s.m.prep.recipe = none → Gives (.lotStart q ent) s (n.cmdDone q 2 4 (fieldAt b 2 2) x.ci []))
        ∧ (s.m.hif.lot.isOpen = false → s.m.prep.recipe ≠ none → Gives (.lotStart q ent) s
          (({ n with
            hif := { n.hif with lot := { isOpen := true, num := BitVec.ofNat 16 (fieldAt b 4 2), base := BitVec.ofNat 48 (fieldAt b 8 6), accepted := 0, records := 0, ending := none } }
            prep := { n.prep with nextIdx := BitVec.ofNat 48 (fieldAt b 8 6), idxEnd := false } } : Mach).cmdDone q 2 0 (fieldAt b 2 2) x.ci
              (leBytes 6 (fieldAt b 8 6)))))
      ∧ (s.m.CmdTakes q ent 2 → (fieldAt b 1 1 ≠ 0 ∨ reservedZero b [(4, 2), (8, 6)] = false ∨ fieldAt b 8 6 = 2 ^ 48 - 1) →
        Gives (.lotStart q ent) s (n.cmdDone q 2 5 (fieldAt b 2 2) x.ci []))
      ∧ (∀ op, s.m.CmdTakes q ent op → (op = 0 ∨ 4 < op) → Gives (.fence q ent) s (n.cmdDone q op 5 (fieldAt b 2 2) x.ci []))
      ∧ (s.m.CmdTakes q ent 3 → fieldAt b 1 1 = 0 → reservedZero b [(8, 4)] = true →
        let p := BitVec.ofNat 32 (fieldAt b 8 4)
        (s.m.hif.lot.isOpen = false → Gives (.lotEnd q ent) s (n.cmdDone q 3 3 (fieldAt b 2 2) x.ci []))
        ∧ (s.m.hif.lot.isOpen = true → 2 ^ 30 < (diff32 p (s.m.pos32 s.m.lotBase)).natAbs → Gives (.lotEnd q ent) s (n.cmdDone q 3 5 (fieldAt b 2 2) x.ci []))
        ∧ (s.m.hif.lot.isOpen = true → (diff32 p (s.m.pos32 s.m.lotBase)).natAbs ≤ 2 ^ 30 → Gives (.lotEnd q ent) s { n with hif := { n.hif with
          lot := { n.hif.lot with ending := some (p, BitVec.ofNat 16 (fieldAt b 2 2), x.ci), isOpen := decide (diff32 (s.m.pos32 s.m.lotBase) p < 0) } } }))
      ∧ (s.m.CmdTakes q ent 4 → fieldAt b 1 1 = 0 → reservedZero b [] = true →
        Gives (.fence q ent) s (n.cmdDone q 4 0 (fieldAt b 2 2) x.ci []))
      ∧ (s.m.CmdTakes q ent 4 → (fieldAt b 1 1 ≠ 0 ∨ reservedZero b [] = false) →
        Gives (.fence q ent) s (n.cmdDone q 4 5 (fieldAt b 2 2) x.ci [])))
    ∧ ∀ p tag idx, s.m.hif.lot.ending = some (p, tag, idx) →
      let lot := s.m.hif.lot
      let shut : Mach := { s.m with hif := { s.m.hif with lot := { lot with ending := none } } }
      ((lot.isOpen = true ∨ lot.records ≠ lot.accepted) → Gives .lotEndDone s s.m)
      ∧ (lot.isOpen = false → lot.records = lot.accepted → (∀ k ∈ s.m.prep.markers, 0 ≤ diff32 k.pos p) →
        ∀ c, s.m.queueOfType 2 = some c → Gives .lotEndDone s (shut.cmdDone c 3 0 tag.toNat idx (leBytes 4 lot.accepted ++ leBytes 4 lot.records)))

/-- The mailbox shows its result, gives identity and quotes, writes the certificates, and takes the host region, the CA and
firmware under their checks. (R399, R401, R402, R403, R404, R407, R408, R423, R424, R425, R426, R427) -/
def Obligations.MailboxAnswersIdentityQuotesAndFirmware : Prop :=
  ∀ (s : State),
    (∀ st (out : List Byte), out.length ≤ 1024 → let n := s.m.mbxResult true st out
      n.bit rSecMbxStat 30 = true ∧ n.bit rSecMbxStat 31 = false ∧ n.rbits rSecMbxStat 23 16 = st.code ∧ n.rbits rSecMbxStat 10 0 = out.length
        ∧ ∀ i < 256, (n.reg (rSecMbxOut i)).toNat = fieldAt out (4 * i) 4)
    ∧ (∀ ctl : W32, s.m.rotUp = true → s.m.hif.d3 = false → bitAt ctl 31 = true → bits ctl 7 0 = 1 →
      (s.m.bit rSecMbxStat 31 = true → Gives (.mbxGetId (.host ctl)) s (s.m.mbxTaken ctl))
      ∧ (s.m.bit rSecMbxStat 31 = false → (∃ i < 256, s.m.mbxIn.getD i 0 ≠ 0) →
        Gives (.mbxGetId (.host ctl)) s ((s.m.mbxTaken ctl).mbxResult true .range [])))
    ∧ (∀ ctl : W32, let m := s.m.mbxTaken ctl
      let a := s.m.mbxIn
      (s.m.MbxTakes ctl 1 [] →
        (s.m.sec.sdev = none → Gives (.mbxGetId (.host ctl)) s (m.mbxResult true .noid []))
        ∧ ∀ sd, s.m.sec.sdev = some sd → Gives (.mbxGetId (.host ctl)) s (m.mbxResult true .ok (pkBytes (publicKey (idk sd))
          ++ pkBytes (publicKey (alk sd (s.m.sec.m 0) s.m.sec.svn)) ++ leBytes 4 s.m.sec.svn.toNat ++ devId sd)))
      ∧ (s.m.MbxTakes ctl 2 [(0, 12)] → ∀ sd, s.m.sec.sdev = some sd →
        let c := s.m.certChain sd
        (fieldAt a 0 8 + fieldAt a 8 4 ≤ s.m.sec.hostSize → c.length ≤ fieldAt a 8 4 → Gives (.mbxGetCerts (.host ctl)) s
          ((m.setDdrBytes (s.m.sec.hostBase + fieldAt a 0 8) c).mbxResult true .ok (leBytes 4 c.length)))
        ∧ (s.m.sec.hostSize < fieldAt a 0 8 + fieldAt a 8 4 ∨ fieldAt a 8 4 < c.length →
          Gives (.mbxGetCerts (.host ctl)) s (m.mbxResult true .range [])))
      ∧ (s.m.MbxTakes ctl 3 [(0, 1), (2, 2), (8, 32)] → ∀ sd, s.m.sec.sdev = some sd → 1 ≤ fieldAt a 0 1 → fieldAt a 0 1 ≤ 4 →
        ((fieldAt a 2 2 ≠ 0xFFFF ∧ s.m.ctx (fieldAt a 2 2) = none) → fieldAt a 2 2 ≤ 15 → Gives (.mbxQuote (.host ctl)) s (m.mbxResult true .noctx []))
        ∧ ((fieldAt a 2 2 = 0xFFFF ∨ (fieldAt a 2 2 ≤ 15 ∧ (s.m.ctx (fieldAt a 2 2)).isSome = true)) → ∃ (priv k : BitVec 256) (sec : Sec),
          let body := m.quoteBody sd (fieldAt a 0 1) (fieldAt a 2 2) (slice a 8 32)
            (if 3 ≤ fieldAt a 0 1 then pkBytes (publicKey priv) else [])
          let quote := body ++ beBytes 64 (ecdsaSign (alk sd (s.m.sec.m 0) s.m.sec.svn) k (sha256 body)).toNat
          Gives (.mbxQuote (.host ctl)) s (({ m with sec := sec, freeCtr := m.freeCtr + 2 } : Mach).mbxResult true .ok quote)
            ∧ sec = { m.sec with ephems := sec.ephems }
            ∧ (fieldAt a 0 1 < 3 → sec.ephems = m.sec.ephems)
            ∧ (3 ≤ fieldAt a 0 1 → ∃ e ∈ sec.ephems, e.priv = priv ∧ e.ctx = fieldAt a 2 2 ∧ e.kind = fieldAt a 0 1 ∧ e.quote = sha quote ∧ e.t = s.m.tb1
              ∧ e.nonce = slice a 8 32)))
      ∧ (s.m.MbxTakes ctl 4 [(0, 16)] →
        (s.m.sec.ctxs ≠ [] → Gives (.mbxHostRegion (.host ctl)) s (m.mbxResult true .exists_ []))
        ∧ (s.m.sec.ctxs = [] → fieldAt a 0 8 % 2 ^ 30 = 0 → fieldAt a 8 8 % 2 ^ 30 = 0 → fieldAt a 8 8 ≠ 0 →
          fieldAt a 0 8 + fieldAt a 8 8 ≤ s.m.variant.ddr * 2 ^ 30 - 2 ^ 26 → Gives (.mbxHostRegion (.host ctl)) s
            (({ m with sec := { m.sec with hostBase := fieldAt a 0 8, hostSize := fieldAt a 8 8 } } : Mach).mbxResult true .ok [])))
      ∧ (s.m.MbxTakes ctl 0xC [(0, 1), (8, 16)] → fieldAt a 0 1 ≤ 1 → fieldAt a 16 4 ≠ 0 →
        fieldAt a 8 8 + fieldAt a 16 4 ≤ s.m.sec.hostSize → fieldAt a 20 4 = 0 →
        let b := m.readHost (fieldAt a 8 8) (fieldAt a 16 4)
        let cert := s.m.hostBytes (fieldAt a 8 8) (fieldAt a 16 4)
        (s.m.flash.ca = none ∨ s.m.flash.caLock = false → Gives (.mbxMgmtCa (.host ctl)) s (({ b with flash := { b.flash with
          ca := some cert, caLock := s.m.flash.caLock || fieldAt a 0 1 == 1 } } : Mach).mbxResult true .ok []))
        ∧ (s.m.flash.ca ≠ none → s.m.flash.caLock = true → Gives (.mbxMgmtCa (.host ctl)) s (b.mbxResult true .sig [])))
      ∧ (s.m.MbxTakes ctl 0xC [(0, 1), (8, 16)] → fieldAt a 0 1 ≤ 1 → fieldAt a 16 4 ≠ 0 →
        fieldAt a 8 8 + fieldAt a 16 4 ≤ s.m.sec.hostSize → fieldAt a 20 4 ≠ 0 → fieldAt a 20 4 + 64 ≤ s.m.sec.hostSize →
        let b := (m.readHost (fieldAt a 8 8) (fieldAt a 16 4)).readHost (fieldAt a 20 4) 64
        let cert := s.m.hostBytes (fieldAt a 8 8) (fieldAt a 16 4)
        let sig := s.m.hostBytes (fieldAt a 20 4) 64
        (∀ old, s.m.flash.ca = some old → Config.caSigns old cert sig = true → Gives (.mbxMgmtCa (.host ctl)) s (({ b with flash := { b.flash with
          ca := some cert, caLock := fieldAt a 0 1 == 1 } } : Mach).mbxResult true .ok []))
        ∧ (∀ old, s.m.flash.ca = some old → Config.caSigns old cert sig = false → s.m.flash.caLock = true →
          Gives (.mbxMgmtCa (.host ctl)) s (b.mbxResult true .sig [])))
      ∧ ((s.m.rotUp = true ∨ (s.m.pwr.inReset = false ∧ s.m.sec.romOnly = true)) → s.m.MbxAsks ctl 0xD [(8, 12)] → fieldAt a 8 8 + fieldAt a 16 4 ≤ s.m.sec.hostSize →
        let img := s.m.hostBytes (fieldAt a 8 8) (fieldAt a 16 4)
        let svn := (Config.fwCheck img).2
        let b := m.readHost (fieldAt a 8 8) (fieldAt a 16 4)
        ((Config.fwCheck img).1 = false → Gives (.mbxFwUpdate (.host ctl)) s (b.mbxResult true .sig []))
        ∧ ((Config.fwCheck img).1 = true → svn.toNat < s.m.flash.svnMin.toNat → Gives (.mbxFwUpdate (.host ctl)) s (b.mbxResult true .policy []))
        ∧ ((Config.fwCheck img).1 = true → s.m.flash.svnMin.toNat ≤ svn.toNat → ∃ f : FwCopy, f.valid = true ∧ f.rotOk = true ∧ f.svn = svn
          ∧ Completes (.mbxFwUpdate (.host ctl)) s fun m' => m'.flash.fwA = f ∧ m'.flash.svnMin = s.m.flash.svnMin
            ∧ m'.flash.fwB = (if s.m.flash.fwA.valid && s.m.flash.fwA.rotOk then s.m.flash.fwA else s.m.flash.fwB)
            ∧ m'.rbits rSecMbxStat 23 16 = 0)))
    ∧ (∀ args, (s.m.sec.dexUp = false → ∀ c ∈ [Instr.mbxGetId, .mbxGetCerts, .mbxQuote, .mbxMgmtCa, .mbxFwUpdate], Gives (c (.dexzon args)) s s.m)
      ∧ (∀ c ∈ [Instr.mbxHostRegion, .mbxCtxCreate, .mbxCtxDelete, .mbxCtxSwitch, .mbxKeyImport, .mbxRevoke, .mbxRingKeygen, .mbxRingInstall],
        Gives (c (.dexzon args)) s s.m)
      ∧ (s.m.rotUp = true → s.m.sec.dexUp = true → (∀ i < 256, (padTo 256 args).getD i 0 = 0) → s.m.sec.sdev = none →
        Gives (.mbxGetId (.dexzon args)) s { s.m with sec := { s.m.sec with dexOut := [], dexStatus := 0xC } })
      ∧ (s.m.rotUp = true → s.m.sec.dexUp = true → (∀ i < 256, (padTo 256 args).getD i 0 = 0) → ∀ sd, s.m.sec.sdev = some sd →
        Gives (.mbxGetId (.dexzon args)) s { s.m with sec := { s.m.sec with dexStatus := 0, dexOut := (pkBytes (publicKey (idk sd))
          ++ pkBytes (publicKey (alk sd (s.m.sec.m 0) s.m.sec.svn)) ++ leBytes 4 s.m.sec.svn.toNat ++ devId sd) } })
      ∧ (s.m.rotUp = true → s.m.sec.dexUp = true → (∀ i < 256, (2 ≤ i ∧ i < 4) ∨ (8 ≤ i ∧ i < 40) ∨ i = 0 ∨ (padTo 256 args).getD i 0 = 0) →
        s.m.sec.sdev ≠ none → 3 ≤ fieldAt (padTo 256 args) 0 1 →
        Gives (.mbxQuote (.dexzon args)) s { s.m with sec := { s.m.sec with dexOut := [], dexStatus := 2 } }))
    ∧ (Completes .ephemeralExpiry s fun m' => m' = { s.m with sec := { s.m.sec with ephems := m'.sec.ephems } }
      ∧ ∀ e, e ∈ m'.sec.ephems ↔ e ∈ s.m.sec.ephems ∧ s.m.tb1 < e.t + 60000000000)
    ∧ (∀ (hello : DexzonHello) (chain : List Byte), s.m.pwr.inReset = false → s.m.sec.steward = true → s.m.pos.ptp.mgmtUp = true →
      Completes (.dexzonConnect hello chain) s fun m' => m' = { s.m with sec := { s.m.sec with dexUp := m'.sec.dexUp } }
        ∧ (m'.sec.dexUp = true ↔ ∃ ca, s.m.flash.ca = some ca ∧ (Config.chainKey ca chain).isSome = true ∧ helloAgrees hello.tls = true ∧ hello.major = 1))
    ∧ ∀ v : W32, s.m.hostUp = true →
      (s.m.sec.conf = true → Completes (.secCfgWrite v) s fun m' => m'.reg rSecCfg = s.m.reg rSecCfg ∧ m'.sec = s.m.sec)
      ∧ (s.m.sec.conf = false → Completes (.secCfgWrite v) s fun m' => m'.rbits rSecCfg 1 0 = bits v 1 0
        ∧ (m'.reg rSecCfg = s.m.reg rSecCfg → m'.sec = s.m.sec)
        ∧ (m'.reg rSecCfg ≠ s.m.reg rSecCfg → m'.sec = { s.m.sec with meas := s.m.sec.meas.set 3 (extend (s.m.sec.m 3) m'.m3Record) }))

/-- Contexts are created and deleted, a switch scrubs the fabric and keys its target, and imports, revocations and ring keys
take their effect. (R408, R409, R410, R412, R413, R415, R417, R418, R421, R422, R426) -/
def Obligations.ContextsAreMadeSwitchedAndKeyed : Prop :=
  ∀ (s : State) (ctl : W32),
    let m := s.m.mbxTaken ctl
    let a := s.m.mbxIn
    let c := fieldAt a 0 2
    (s.m.MbxTakes ctl 5 [(0, 3), (4, 8), (64, 128)] → s.m.sec.switching = none → s.m.sec.sdev ≠ none → c ≤ 15 → fieldAt a 2 1 ≤ 1 →
      (s.m.ctx c ≠ none → Gives (.mbxCtxCreate (.host ctl)) s (m.mbxResult true .exists_ []))
      ∧ ∀ pb tb, s.m.ctx c = none → m.placeFor m.usedRanges (fieldAt a 4 4 * 2 ^ 26) = some pb →
        m.placeFor ((pb, fieldAt a 4 4 * 2 ^ 26) :: m.usedRanges) (fieldAt a 8 4 * 2 ^ 26) = some tb →
        ∃ x : Ctx, x.owner = slice a 64 128 ∧ x.conf = (fieldAt a 2 1 == 1) ∧ x.pbase = pb ∧ x.tbase = tb ∧ x.psize = fieldAt a 4 4 * 2 ^ 26
          ∧ x.tsize = fieldAt a 8 4 * 2 ^ 26 ∧ x.kt = none ∧ x.kw = none ∧ x.pkg = none ∧ x.pkgSha = []
          ∧ Gives (.mbxCtxCreate (.host ctl)) s (((({ m with freeCtr := m.freeCtr + 1 } : Mach).setCtx c x).rekey pb x.psize x.kp).mbxResult
            true .ok (leBytes 8 pb ++ leBytes 8 tb)))
    ∧ (s.m.MbxTakes ctl 6 [(0, 2)] → s.m.sec.switching = none →
      (s.m.ctx c = none → Gives (.mbxCtxDelete (.host ctl)) s (m.mbxResult true .noctx []))
      ∧ ∀ x, s.m.ctx c = some x →
        (s.m.sec.resident = some c → Gives (.mbxCtxDelete (.host ctl)) s (m.mbxResult true .state []))
        ∧ (s.m.sec.resident ≠ some c → Completes (.mbxCtxDelete (.host ctl)) s fun m' => m'.ctx c = none
          ∧ (∀ k, k ≠ c → m'.ctx k = s.m.ctx k) ∧ (∀ e ∈ m'.sec.ephems, e.ctx ≠ c)
          ∧ m'.adapt = (if s.m.adapt.owner = c + 1 then { Adapt.empty with owner := c + 1 } else s.m.adapt) ∧ (∀ p ∈ m'.parked, p.1 ≠ c + 1)
          ∧ let inside := fun b => (x.pbase ≤ b ∧ b < x.pbase + x.psize) ∨ (x.tbase ≤ b ∧ b < x.tbase + x.tsize)
            (∀ b, inside b → (∀ r ∈ s.m.mem.rekeys, r.1 ≤ b → b < r.1 + r.2.1 → (r.1 = x.pbase ∧ r.2.1 = x.psize) ∨ (r.1 = x.tbase ∧ r.2.1 = x.tsize)) →
              m'.ddrByte b = 0)
            ∧ ∀ b, ¬inside b → ¬inside (64 * (b / 64)) → m'.ddrByte b = s.m.ddrByte b))
    ∧ (s.m.MbxTakes ctl 7 [(0, 3)] → s.m.sec.switching = none → s.m.wv.cmd = none → fieldAt a 2 1 ≤ 1 → ∀ x, s.m.ctx c = some x →
      (s.m.hif.lot.isOpen = true → fieldAt a 2 1 = 0 → Gives (.mbxCtxSwitch (.host ctl)) s (m.mbxResult true .lotOpen []))
      ∧ (s.m.hif.lot.isOpen = false ∨ fieldAt a 2 1 = 1 → Completes (.mbxCtxSwitch (.host ctl)) s fun m' =>
        m'.sec.switching = some { target := c, outgoing := s.m.sec.resident.getD 0x1F, phase := 2, t0 := s.m.tb1, tScrub := 0, frames := 0, ue := false }
          ∧ m'.flash = { s.m.flash with journal := some (c, s.m.sec.resident.getD 0x1F) } ∧ m'.hif.lot.isOpen = false ∧ m'.prep = Prep.empty
          ∧ m'.sec.conf = false ∧ m'.bit rSecMbxStat 31 = true ∧ m'.pos.spouts = [] ∧ (x.conf = true → m'.rbits rSecCfg 1 0 = 0)))
    ∧ (∀ w, s.m.sec.switching = some w → w.phase ≤ 2 → Completes .scrubDone s fun m' =>
      m'.mem.spad = [] ∧ m'.mem.stack = [] ∧ m'.mem.tags = [] ∧ m'.mem.pmem = [] ∧ m'.tiles = [] ∧ m'.latches = [] ∧ m'.windows = [] ∧ m'.engines = s.m.queueEngines
        ∧ m'.prep = Prep.empty ∧ m'.sec.resident = some w.target
        ∧ (∀ x, s.m.ctx w.target = some x → m'.sec.conf = x.conf ∧ (x.conf = true → m'.flt.frozen = false))
        ∧ (∀ x, s.m.ctx w.outgoing = some x → ∀ b, x.tbase ≤ b → b < x.tbase + x.tsize → readByte m'.mem.ddr b = 0)
        ∧ (∀ x, s.m.ctx w.outgoing = some x → ∃ k, (x.tbase, x.tsize, k) ∈ m'.mem.fills)
        ∧ (∀ x, s.m.ctx w.target = some x → ∃ k, m'.ctx w.target = some { x with kt := some k } ∧ (x.tbase, x.tsize, k) ∈ m'.mem.rekeys)
        ∧ ((s.m.mem.eccSpad ++ s.m.mem.eccStack ++ s.m.mem.eccPmem).any (fun e => e.2 == .ue) = true → (m'.reg rSecErr).getLsbD 1 = true))
    ∧ (∀ k x, s.m.sec.importing = some k → s.m.ctx k = some x → (x.kw = none ∨ x.pkg = none) → s.m.sec.switching = none →
      Gives .importDone s { s.m with sec := { s.m.sec with importing := none } })
    ∧ (∀ k x kw pkg, s.m.sec.importing = some k → s.m.ctx k = some x → x.kw = some kw → x.pkg = some pkg → s.m.sec.switching = none →
      (let n : Mach := { s.m with sec := { s.m.sec with importing := none } }
      let r := n.importPackage x kw (n.activeDigest (some k)) pkg.1 pkg.2
      (r.2 = .ok → Gives .importDone s (r.1.setCtx k { x with pkgSha := sha256 (r.1.hostBytes pkg.1 pkg.2) }).startLoaded) ∧ (r.2 ≠ .ok → Gives .importDone s (r.1.raiseSec 3))))
    ∧ (s.m.MbxTakes ctl 8 [(0, 2), (8, 24)] → s.m.sec.switching = none → s.m.sec.sdev ≠ none → fieldAt a 8 8 + 272 ≤ s.m.sec.hostSize →
      fieldAt a 16 8 + fieldAt a 24 8 ≤ s.m.sec.hostSize → s.m.sec.resident = some c → ∀ x, s.m.ctx c = some x →
      let blob := s.m.hostBytes (fieldAt a 8 8) 272
      let pkg := s.m.hostBytes (fieldAt a 16 8) (fieldAt a 24 8)
      let b := m.readHost (fieldAt a 8 8) 272
      ((blobOk blob 1 x.osig = false ∨ fieldAt blob 200 2 ≠ c ∨ fieldAt blob 196 4 ≠ 0) →
        Gives (.mbxKeyImport (.host ctl)) s ((b.raiseSec 3).mbxResult true .sig []))
      ∧ (blobOk blob 1 x.osig = true → fieldAt blob 200 2 = c → fieldAt blob 196 4 = 0 →
        (s.m.pairOf c 3 (slice blob 8 32) = none → Gives (.mbxKeyImport (.host ctl)) s (((b.raiseSec 4).raiseSec 3).mbxResult true .expired []))
        ∧ ∀ e, s.m.pairOf c 3 (slice blob 8 32) = some e →
          let n := b.dropPair c 3
          (openBlob blob e.priv = none → Gives (.mbxKeyImport (.host ctl)) s ((n.raiseSec 3).mbxResult true .sig []))
          ∧ ∀ key, openBlob blob e.priv = some key →
            (slice blob 40 32 ≠ bytes32 (s.m.activeDigest (some c)) → Gives (.mbxKeyImport (.host ctl)) s ((n.raiseSec 3).mbxResult true .bind []))
            ∧ (slice blob 40 32 = bytes32 (s.m.activeDigest (some c)) →
              let kw := BitVec.ofNat 256 (leNat key)
              let r := n.importPackage x kw (s.m.activeDigest (some c)) (fieldAt a 16 8) (fieldAt a 24 8)
              (r.2 ≠ .ok → Gives (.mbxKeyImport (.host ctl)) s ((r.1.raiseSec 3).mbxResult true r.2 []))
              ∧ (r.2 = .ok → ∃ kos, let y := r.1.setCtx c { x with
                    kw := some kw, kos := some kos, pkg := some (fieldAt a 16 8, fieldAt a 24 8), pkgSha := sha256 pkg }
                Gives (.mbxKeyImport (.host ctl)) s
                  ((({ y with sec := { y.sec with importing := none } } : Mach).startLoaded).mbxResult true .ok (sha256 pkg))))))
    ∧ (s.m.MbxTakes ctl 9 [(0, 3)] →
      (s.m.scrubbing = true → Gives (.mbxRevoke (.host ctl)) s (m.mbxResult true .state []))
      ∧ ∀ t : Fin 576, s.m.scrubbing = false → fieldAt a 2 1 = 0 → c = t.val →
        Gives (.mbxRevoke (.host ctl)) s ((m.revoke (.tile t) true).1.mbxResult true .ok (leBytes 4 (m.revoke (.tile t) true).2)))
    ∧ (s.m.MbxTakes ctl 0xA [(0, 2), (4, 5), (16, 16)] → s.m.sec.switching = none → ∀ sd own, s.m.sec.sdev = some sd →
      (s.m.sec.ephems.find? fun e => e.ctx == c && e.kind == 4 && e.alive s.m.tb1) = some own → (c = 0xFFFF ∨ s.m.ctx c ≠ none) →
      let n := fieldAt a 8 1
      1 ≤ n → n ≤ 31 → fieldAt a 16 8 + 704 * n ≤ s.m.sec.hostSize → fieldAt a 24 8 + 272 * n ≤ s.m.sec.hostSize →
      let recs := (List.range n).map fun i => s.m.hostBytes (fieldAt a 16 8 + 704 * i) 704
      (∀ r ∈ recs, fieldAt r 8 8 + fieldAt r 16 4 ≤ s.m.sec.hostSize) →
      let b := recs.foldl (fun (m : Mach) r => m.readHost (fieldAt r 8 8) (fieldAt r 16 4)) (m.readHost (fieldAt a 16 8) (704 * n))
      let good := ∀ r ∈ recs, s.m.verifyPeer c (s.m.hostBytes (fieldAt r 8 8) (fieldAt r 16 4)) (slice r 64 640) = true
      (¬good → Gives (.mbxRingKeygen (.host ctl)) s (b.mbxResult true .policy []))
      ∧ (good → Completes (.mbxRingKeygen (.host ctl)) s fun m' =>
        (∃ x ∈ m'.sec.sessions, x.ctx = c ∧ x.num = BitVec.ofNat 32 (fieldAt a 4 4)) ∧ (∀ e ∈ m'.sec.ephems, ¬(e.ctx = c ∧ e.kind = 4))
          ∧ m'.rbits rSecMbxStat 23 16 = 0 ∧ m'.mem.spad = s.m.mem.spad
          ∧ ∀ k, ¬(s.m.sec.hostBase + fieldAt a 24 8 ≤ k ∧ k < s.m.sec.hostBase + fieldAt a 24 8 + 272 * n) → m'.ddrByte k = s.m.ddrByte k))
    ∧ (s.m.MbxTakes ctl 0xB [(0, 2), (8, 16)] → s.m.sec.switching = none → s.m.sec.sdev ≠ none → fieldAt a 8 8 + 272 ≤ s.m.sec.hostSize →
      fieldAt a 16 8 + 704 ≤ s.m.sec.hostSize → (c = 0xFFFF ∨ s.m.ctx c ≠ none) →
      let blob := s.m.hostBytes (fieldAt a 8 8) 272
      let r := s.m.hostBytes (fieldAt a 16 8) 704
      fieldAt r 8 8 + fieldAt r 16 4 ≤ s.m.sec.hostSize → s.m.verifyPeer c (s.m.hostBytes (fieldAt r 8 8) (fieldAt r 16 4)) (slice r 64 640) = true →
      blobOk blob 3 (pkOf (slice (slice r 64 640) 80 64)) = true → fieldAt blob 200 2 = c →
      ∀ e key, s.m.pairOf c 4 (slice blob 8 32) = some e → slice blob 40 32 = sha256 (slice r 64 640) → openBlob blob e.priv = some key →
      let b := ((m.readHost (fieldAt a 8 8) 272).readHost (fieldAt a 16 8) 704).readHost (fieldAt r 8 8) (fieldAt r 16 4)
      Gives (.mbxRingInstall (.host ctl)) s (((b.dropPair c 4).installSession
        { ctx := c, num := BitVec.ofNat 32 (fieldAt blob 196 4), key := BitVec.ofNat 256 (leNat key) }).mbxResult true .ok []))

/-- A dump is requested, completed, copied and released by its status, and replay restarts, injects, captures, freezes and thaws
in its mode only. (R434, R447, R448, R449, R450, R451, R452, R460, R461, R462, R463) -/
def Obligations.DumpsAndReplayTakeTheirEffect : Prop :=
  ∀ (s : State),
    let idle := s.m.bit rFltDumpStat 31 = false ∧ s.m.bit rFltDumpStat 30 = false
    let keeps := fun m' : Mach => m'.mem = s.m.mem ∧ m'.tiles = s.m.tiles ∧ m'.wv = s.m.wv ∧ m'.prep = s.m.prep
    (s.m.hostUp = true →
      (idle → Completes .dumpReq s fun m' => keeps m' ∧ m'.bit rFltDumpStat 30 = true ∧ ∃ d, m'.flt.dumping = some d ∧ d.cause = none
        ∧ d.flags = 8 ∧ d.t0 = s.m.tb1)
      ∧ (¬idle → Completes .dumpReq s fun m' => m' = { s.m with regs := m'.regs }
        ∧ m'.rbits rFltDumpStat 15 0 = min 65535 (s.m.rbits rFltDumpStat 15 0 + 1))
      ∧ (∀ d, s.m.flt.dump = some d → s.m.bit rFltDumpStat 31 = true → s.m.bit rFltDumpStat 30 = false →
        let dst := (s.m.reg64 rFltDumpDstLo).toNat
        (dst + d.bytes.length ≤ s.m.sec.hostSize → Completes .dumpCopy s fun m' => m' = { s.m with mem := { s.m.mem with ddr := m'.mem.ddr, eccDdr := m'.mem.eccDdr } }
          ∧ ∀ b, m'.ddrByte b = if s.m.sec.hostBase + dst ≤ b ∧ b < s.m.sec.hostBase + dst + d.bytes.length
              then d.bytes.getD (b - (s.m.sec.hostBase + dst)) 0 else s.m.ddrByte b)
        ∧ (s.m.sec.hostSize < dst + d.bytes.length → Gives .dumpCopy s (s.m.putBit rFltDumpStat 25 true)))
      ∧ (s.m.flt.dump = none → Gives .dumpCopy s (s.m.putBit rFltDumpStat 25 true))
      ∧ (s.m.bit rFltDumpStat 31 = true → Completes .dumpRelease s fun m' => m'.flt = { s.m.flt with dump := none }
        ∧ m'.bit rFltDumpStat 31 = false ∧ m'.rbits rFltDumpStat 15 0 = 0 ∧ ∀ a, a ≠ rFltDumpStat → m'.reg a = s.m.reg a)
      ∧ (s.m.bit rFltDumpStat 31 = false → Gives .dumpRelease s s.m))
    ∧ (∀ d, s.m.flt.dumping = some d → Completes .dumpComplete s fun m' => keeps m' ∧ m'.flt.dumping = none ∧ m'.bit rFltDumpStat 31 = true
      ∧ m'.bit rFltDumpStat 30 = false ∧ ∃ h, m'.flt.dump = some h ∧ (m'.reg rFltDumpLen).toNat = h.bytes.length % 2 ^ 32 ∧ h.cause = d.cause
        ∧ h.bytes.take 4 = ascii "LD9A"
        ∧ (s.m.sec.conf = false → h.flags = d.flags + 4 * b2n (s.m.dumpSections d).2
          ∧ h.bytes.drop 256 = dumpBody s.m.tb1 (s.m.dumpSections d).1)
        ∧ (s.m.sec.conf = true → s.m.kos = none → h.flags = d.flags + 2 ∧ h.bytes.drop 256 = dumpBody s.m.tb1 [⟨1, 0, s.m.logSection true⟩])
        ∧ (∀ k, s.m.sec.conf = true → s.m.kos = some k → h.flags = d.flags + 1 + 4 * b2n (s.m.dumpSections d).2
          ∧ ∃ (head iv : List Byte), h.bytes.drop 256 = (gcmSeal (BitVec.ofNat 256 (leNat (hkdf (zeros 32) (bytes32 k) (ascii "L9 DMP") 32))) iv head
            (dumpBody s.m.tb1 (s.m.dumpSections d).1)).1))
    ∧ (s.m.hostUp = true → s.m.sec.conf = true → ∀ c ∈ [Instr.rplRestart, .rplInject, .rplCapture, .rplThaw], Gives c s s.m)
    ∧ (s.m.hostUp = true → s.m.sec.conf = false → s.m.bit rFltRplCtl 0 = false →
      ∀ c ∈ [Instr.rplRestart, .rplInject, .rplCapture, .rplThaw], Gives c s (s.m.setFld rFltRplStat 2 0 1))
    ∧ (s.m.hostUp = true → s.m.sec.conf = false → s.m.bit rFltRplCtl 0 = true →
      (s.m.wv.cmd.isSome = true ∨ s.m.sec.switching.isSome = true ∨ s.m.bit rFltRplStat 31 = true) →
      ∀ c ∈ [Instr.rplRestart, .rplInject, .rplCapture, .rplThaw], Gives c s (s.m.setFld rFltRplStat 2 0 4))
    ∧ (s.m.hostUp = true → s.m.sec.conf = false → s.m.bit rFltRplCtl 0 = true → s.m.wv.cmd = none → s.m.sec.switching = none →
      s.m.bit rFltRplStat 31 = false →
      let n := s.m.setFld rFltRplStat 2 0 0
      let off := (s.m.reg64 rFltRplAddrLo).toNat
      let t := s.m.rbits rFltRplTile 9 0
      Gives .rplThaw s { n with flt := { n.flt with frozen := false, stopHit := false } }
      ∧ (off + 543744 ≤ s.m.sec.hostSize → t < 576 → Gives .rplCapture s (n.setDdrBytes (s.m.sec.hostBase + off) (n.capture t)))
      ∧ (s.m.sec.hostSize < off + 543744 ∨ 576 ≤ t → Gives .rplCapture s (n.setFld rFltRplStat 2 0 2))
      ∧ (∀ w b c, off + 64 ≤ s.m.sec.hostSize → s.m.imageBucket off = some (w, b, c) → off + fieldAt (s.m.hostBytes off 64) 8 4 ≤ s.m.sec.hostSize →
        Gives .rplInject s (batchHandover b (((n.readHost off 64).putBit rFltRplStat 31 true).openBatch (8 * w.serial + b) c (some off))))
      ∧ (s.m.sec.hostSize < off + 64 → Gives .rplInject s (n.setFld rFltRplStat 2 0 2))
      ∧ (∀ w b c, off + 64 ≤ s.m.sec.hostSize → s.m.imageBucket off = some (w, b, c) → s.m.sec.hostSize < off + fieldAt (s.m.hostBytes off 64) 8 4 →
        Gives .rplInject s ((n.readHost off 64).setFld rFltRplStat 2 0 2))
      ∧ (off + 64 ≤ s.m.sec.hostSize → s.m.imageBucket off = none → Gives .rplInject s ((n.readHost off 64).setFld rFltRplStat 2 0 3))
      ∧ (s.m.wv.running = [] → Gives .rplRestart s (n.setFld rFltRplStat 2 0 4))
      ∧ ∀ r, s.m.wv.running = [r] → r.recipe = none → s.m.adapt.sec = none → Gives .rplRestart s
        (let m := ((n.flushAll .flush).unloadWeave r).loadWeave { img := r.img, key := none, digest := r.digest, head := none } none none true
         { m with prep := { m.prep with serial := m.wv.serial - 1 } }))
    ∧ (s.m.flt.stopHit = false → Gives .freeze s s.m)
    ∧ (s.m.flt.stopHit = true → Gives .freeze s s.m.tick ∧ s.m.freezeNext.flt.frozen = true)
    ∧ (∀ t step, let stop := s.m.reg64 rFltRplStopLo
      (s.m.stopAt t step).flt.stopHit = true ↔ s.m.flt.stopHit = true ∨ (stop ≠ 0 ∧ step = stop ∧ t = s.m.rbits rFltRplTile 9 0))
    ∧ ∀ v : W32, s.m.hostUp = true → v.getLsbD 31 = true →
      (s.m.sec.conf = true → Gives (.batchCapture v) s s.m)
      ∧ (s.m.sec.conf = false → Completes (.batchCapture v) s fun m' => m'.reg rFltBcapDone = 0
        ∧ m'.flt = { s.m.flt with bcap := if bits v 15 0 = 0 then none else some (bits v 26 24, bits v 15 0, (s.m.reg64 rFltBcapAddrLo).toNat) })

/-- A step runs the command at the front of the queue with the queue's rest, an empty queue ticks, and no command stops or
touches the queue. (R4, R464) -/
def Obligations.StepTakesTheFrontCommand : Prop :=
  ∀ (c : Instr) (s : State) (rest : List Instr),
    step { s with pending := c :: rest } = exec c { s with pending := rest }
    ∧ step { s with pending := [] } = .next { s with pending := [], m := s.m.tick }
    ∧ ∃ m', exec c s = .next { s with m := m' }

/-- Every step keeps every memory and the registers in canonical form. (R27, R102, R105, R107, R136) -/
def Obligations.EveryStepKeepsTheCanonicalForm : Prop :=
  ∀ (s s' : State), s.m.Canon → step s = .next s' → s'.m.Canon

/-- The state after reset is in canonical form, has an empty queue, and every register reads its reset value. (R4, R16, R466) -/
def Obligations.ResetIsCanonicalAndQuiet : Prop :=
  State.reset.m.Canon ∧ State.reset.pending = [] ∧ ∀ a, State.reset.m.reg a = regReset a

/-- In confidential mode seven kinds of MEM registers read as 0, and all other MEM registers read as they would outside it.
(R138) -/
def Obligations.ConfidentialModeHidesMemRegisters : Prop :=
  ∀ (m : Mach) (a : Nat), m.sec.conf = true → m.windowsClosed = false → 0x01000000 ≤ a → a < 0x01800000 →
    let hidden := a ∈ [rMemWdropAddr, rMemLatCnt, rMemLatOwn, rMemWinStat, rMemWinBase, rMemWinLimit] ∨ ∃ e < 32, a = rMemSluDesc e
    (hidden → m.readReg a = 0)
    ∧ (¬hidden → m.readReg a = ({ m with sec := { m.sec with conf := false } } : Mach).readReg a)

/-- The SEC registers and the root of trust are as after reset in every module reset, and a function-level reset leaves them
unchanged. (R428) -/
def Obligations.TrustIsResetByModuleResetOnly : Prop :=
  ∀ (s : State),
    let afresh := fun m' : Mach => m'.sec = Sec.reset ∧ ∀ a, 0x01F00000 ≤ a → a < 0x02000000 → m'.reg a = regReset a
    let kept := fun m' : Mach => m'.sec = s.m.sec ∧ ∀ a, 0x01F00000 ≤ a → a < 0x02000000 → m'.reg a = s.m.reg a
    (s.m.pwr.vin = true → Completes .powerLoss s afresh ∧ Completes .mrst s afresh ∧ Completes .regulatorFault s afresh
      ∧ ∀ (i : Fin 7) (c : BitVec 16), s.m.variant.hasSensor i = true → 1920 ≤ c.toInt → Completes (.thermalTrip i c) s afresh)
    ∧ (∀ v : W32, s.m.hostUp = true → v.toNat / 2 ^ 16 = 0x4C39 → v.getLsbD 0 = true → Completes (.glbRst v) s afresh)
    ∧ (s.m.sec.dexUp = true → s.m.pwr.inReset = false → Completes .dexzonReset s afresh)
    ∧ Completes .functionLevelReset s kept ∧ Completes .perst s kept
end

