-- ==== Sys2Proof/Laws/FMap.lean ====
section
/-! SUPPORT. The laws of the maps in canonical form: reading after a put, and that every operation keeps the form; the same for the
bytes of a memory. -/
namespace Sys2Proof.Machine

variable {α : Type} {d : Nat → α} {m : List (Nat × α)} {k j : Nat} {v : α}

theorem FMap.get_ins (h : ∀ e ∈ m, e.1 ≠ k) : FMap.get d (FMap.ins k v m) j = if k = j then v else FMap.get d m j := by
  induction m with
  | nil => simp [FMap.ins, FMap.get]
  | cons e m ih =>
    have hm : ∀ e ∈ m, e.1 ≠ k := fun x hx => h x (by simp [hx])
    have he : e.1 ≠ k := h e (by simp)
    unfold FMap.ins
    split
    · simp [FMap.get]
    · simp only [FMap.get, ih hm]
      split <;> rename_i h1
      · have : k ≠ j := fun h2 => he (h1.trans h2.symm)
        simp [this]
      · rfl

theorem FMap.get_erase : FMap.get d (FMap.erase m k) j = if k = j then d j else FMap.get d m j := by
  induction m with
  | nil => simp [FMap.erase, FMap.get]
  | cons e m ih =>
    simp only [FMap.erase] at ih ⊢
    by_cases he : e.1 = k
    · simp only [he, bne_self_eq_false, Bool.false_eq_true, not_false_eq_true, List.filter_cons_of_neg, ih, FMap.get]
      split <;> simp_all
    · have : (e.1 != k) = true := by simpa using he
      simp only [this, List.filter_cons_of_pos, FMap.get, ih]
      split <;> rename_i h1
      · have : k ≠ j := fun h2 => he (h1.trans h2.symm)
        simp [this]
      · rfl

theorem FMap.erase_fresh : ∀ e ∈ FMap.erase m k, e.1 ≠ k := by
  intro e he
  simpa using (List.mem_filter.mp he).2

/-- Reading after a put: the value at its key, the old value at every other. -/
@[simp] theorem FMap.get_put [DecidableEq α] : FMap.get d (FMap.put d m k v) j = if k = j then v else FMap.get d m j := by
  unfold FMap.put
  split
  · rename_i h
    rw [FMap.get_erase]
    split <;> simp_all
  · rw [FMap.get_ins FMap.erase_fresh, FMap.get_erase]
    split <;> rfl

theorem FMap.get_clear {p : Nat → Bool} : FMap.get d (FMap.clear m p) j = if p j then d j else FMap.get d m j := by
  induction m with
  | nil => simp [FMap.clear, FMap.get]
  | cons e m ih =>
    simp only [FMap.clear] at ih ⊢
    by_cases he : p e.1 = true
    · simp only [he, Bool.not_true, Bool.false_eq_true, not_false_eq_true, List.filter_cons_of_neg, ih, FMap.get]
      by_cases h1 : p j = true
      · simp [h1]
      · have : e.1 ≠ j := fun h2 => h1 (h2 ▸ he)
        simp [h1, this]
    · simp only [he, Bool.not_false, List.filter_cons_of_pos, FMap.get, ih]
      by_cases h1 : e.1 = j
      · have : p j = false := by rw [← h1]; simpa using he
        simp [h1, this]
      · simp [h1]

/-! ### The canonical form -/

theorem FMap.wf_nil : FMap.Wf d [] := by simp [FMap.Wf]

theorem FMap.wf_filter (q : Nat × α → Bool) (h : FMap.Wf d m) : FMap.Wf d (m.filter q) :=
  ⟨h.1.filter q, fun e he => h.2 e (List.mem_filter.mp he).1⟩

theorem FMap.mem_ins {e : Nat × α} (h : e ∈ FMap.ins k v m) : e = (k, v) ∨ e ∈ m := by
  induction m with
  | nil => simpa [FMap.ins] using h
  | cons f m ih =>
    unfold FMap.ins at h
    split at h
    · simpa using h
    · rcases List.mem_cons.mp h with h | h
      · exact .inr (by simp [h])
      · rcases ih h with h | h
        · exact .inl h
        · exact .inr (by simp [h])

theorem FMap.wf_ins (hv : v ≠ d k) (hk : ∀ e ∈ m, e.1 ≠ k) (h : FMap.Wf d m) : FMap.Wf d (FMap.ins k v m) := by
  refine ⟨?_, fun e he => ?_⟩
  · obtain ⟨h1, h2⟩ := h
    clear h2
    induction m with
    | nil => simp [FMap.ins]
    | cons f m ih =>
      obtain ⟨hf, hm⟩ := List.pairwise_cons.mp h1
      unfold FMap.ins
      split
      · rename_i hlt
        refine List.pairwise_cons.mpr ⟨fun e he => ?_, h1⟩
        rcases List.mem_cons.mp he with he | he
        · subst he; exact hlt
        · exact Nat.lt_trans hlt (hf e he)
      · rename_i hlt
        have hne : f.1 ≠ k := hk f (by simp)
        refine List.pairwise_cons.mpr ⟨fun e he => ?_, ih (fun e he => hk e (by simp [he])) hm⟩
        rcases FMap.mem_ins he with he | he
        · subst he; show f.1 < k; omega
        · exact hf e he
  · rcases FMap.mem_ins he with he | he
    · subst he; exact hv
    · exact h.2 e he

/-- A put keeps the canonical form. -/
theorem FMap.wf_put [DecidableEq α] (h : FMap.Wf d m) : FMap.Wf d (FMap.put d m k v) := by
  unfold FMap.put
  split
  · exact FMap.wf_filter _ h
  · rename_i hv
    exact FMap.wf_ins hv FMap.erase_fresh (FMap.wf_filter _ h)

/-- Clearing keys keeps the canonical form. -/
theorem FMap.wf_clear {p : Nat → Bool} (h : FMap.Wf d m) : FMap.Wf d (FMap.clear m p) := FMap.wf_filter _ h

/-! ### Bytes of a memory -/

/-- Storing bytes keeps the canonical form. -/
theorem wf_writeBytes {c : List Host.Cell} (bs : List Byte) (a : Nat) (h : FMap.Wf emptyByte c) :
    FMap.Wf emptyByte (writeBytes c a bs) := by
  induction bs generalizing c a with
  | nil => exact h
  | cons b bs ih => exact ih _ (FMap.wf_put h)

/-- A byte after a store: the stored byte inside the range, the old one outside. -/
theorem readByte_writeBytes (c : List Host.Cell) (bs : List Byte) (a j : Nat) :
    readByte (writeBytes c a bs) j = if a ≤ j ∧ j < a + bs.length then bs.getD (j - a) 0 else readByte c j := by
  induction bs generalizing c a with
  | nil =>
    have : ¬ (a ≤ j ∧ j < a) := by omega
    simp [writeBytes, this]
  | cons b bs ih =>
    rw [writeBytes, ih]
    simp only [List.length_cons]
    by_cases h1 : a + 1 ≤ j ∧ j < a + 1 + bs.length
    · have h2 : a ≤ j ∧ j < a + (bs.length + 1) := by omega
      have h3 : j - a = (j - (a + 1)) + 1 := by omega
      simp [h1, h2, h3]
    · rw [if_neg h1]
      by_cases h2 : a = j
      · subst h2
        simp [readByte]
      · have h3 : ¬ (a ≤ j ∧ j < a + (bs.length + 1)) := by omega
        simp [readByte, h2, h3]

theorem readBytes_length (c : List Host.Cell) (n a : Nat) : (readBytes c a n).length = n := by
  induction n generalizing a with
  | zero => rfl
  | succ n ih => simp [readBytes, ih]

theorem leBytes_length (n v : Nat) : (leBytes n v).length = n := by
  induction n generalizing v with
  | zero => rfl
  | succ n ih => simp [leBytes, ih]

theorem leNat_leBytes (n v : Nat) : leNat (leBytes n v) = v % 256 ^ n := by
  induction n generalizing v with
  | zero => simp [leBytes, leNat, Nat.mod_one]
  | succ n ih =>
    have h1 : (BitVec.ofNat 8 v).toNat = v % 256 := by simp
    have h2 : 256 ^ (n + 1) = 256 * 256 ^ n := by rw [Nat.pow_succ, Nat.mul_comm]
    rw [leBytes, leNat, ih, h1, h2, Nat.mod_mul]

/-- A slot's bytes give the slot back. -/
theorem bytesSlot_slotBytes (v : Slot) : bytesSlot (slotBytes v) = v := by
  have hl : (slotBytes v).take 64 = slotBytes v := by
    rw [List.take_of_length_le]
    simp [slotBytes, leBytes_length]
  apply BitVec.eq_of_toNat_eq
  rw [bytesSlot, hl, slotBytes, leNat_leBytes, BitVec.toNat_ofNat]
  have h1 : (256 : Nat) ^ 64 = 2 ^ 512 := (Nat.pow_mul 2 8 64).symm
  have h2 := v.isLt
  rw [← h1] at h2 ⊢
  rw [Nat.mod_mod, Nat.mod_eq_of_lt h2]

end Sys2Proof.Machine
end

