-- ==== Sys2Proof/Laws/State.lean ====
section
/-! SUPPORT. What each update of the module leaves as it was: one lemma for each update, true by definition, with a clause for each
field. -/
namespace Sys2Proof.Machine

variable (m : Mach)

@[simp] theorem setTile_fields (t : Nat) (x : Tile) :
    (m.setTile t x).freeCtr = m.freeCtr ∧ (m.setTile t x).justSet = m.justSet ∧ (m.setTile t x).variant = m.variant ∧ (m.setTile t x).cyc = m.cyc ∧
    (m.setTile t x).regs = m.regs ∧ (m.setTile t x).mem = m.mem ∧ (m.setTile t x).fx = m.fx ∧ (m.setTile t x).flights = m.flights ∧
    (m.setTile t x).inbox = m.inbox ∧ (m.setTile t x).chanQ = m.chanQ ∧ (m.setTile t x).gldReplies = m.gldReplies ∧
    (m.setTile t x).windows = m.windows ∧ (m.setTile t x).winUpds = m.winUpds ∧ (m.setTile t x).latches = m.latches ∧
    (m.setTile t x).waits = m.waits ∧ (m.setTile t x).signals = m.signals ∧ (m.setTile t x).engines = m.engines ∧
    (m.setTile t x).chanLast = m.chanLast ∧ (m.setTile t x).notLive = m.notLive ∧ (m.setTile t x).revoked = m.revoked ∧
    (m.setTile t x).revoking = m.revoking ∧ (m.setTile t x).stems = m.stems ∧ (m.setTile t x).rois = m.rois ∧ (m.setTile t x).ports = m.ports ∧
    (m.setTile t x).coders = m.coders ∧ (m.setTile t x).ffc = m.ffc ∧ (m.setTile t x).ffcEcc = m.ffcEcc ∧ (m.setTile t x).prep = m.prep ∧
    (m.setTile t x).adapt = m.adapt ∧ (m.setTile t x).parked = m.parked ∧ (m.setTile t x).pos = m.pos ∧ (m.setTile t x).fld = m.fld ∧
    (m.setTile t x).lanes = m.lanes ∧ (m.setTile t x).links = m.links ∧ (m.setTile t x).ring = m.ring ∧ (m.setTile t x).hif = m.hif ∧
    (m.setTile t x).sec = m.sec ∧ (m.setTile t x).flash = m.flash ∧ (m.setTile t x).wv = m.wv ∧ (m.setTile t x).pwr = m.pwr ∧
    (m.setTile t x).flt = m.flt :=
  by repeat' constructor
@[simp] theorem setWin_fields (t w : Nat) (x : Window) :
    (m.setWin t w x).freeCtr = m.freeCtr ∧ (m.setWin t w x).justSet = m.justSet ∧ (m.setWin t w x).variant = m.variant ∧
    (m.setWin t w x).cyc = m.cyc ∧ (m.setWin t w x).regs = m.regs ∧ (m.setWin t w x).mem = m.mem ∧ (m.setWin t w x).tiles = m.tiles ∧
    (m.setWin t w x).fx = m.fx ∧ (m.setWin t w x).flights = m.flights ∧ (m.setWin t w x).inbox = m.inbox ∧ (m.setWin t w x).chanQ = m.chanQ ∧
    (m.setWin t w x).gldReplies = m.gldReplies ∧ (m.setWin t w x).winUpds = m.winUpds ∧ (m.setWin t w x).latches = m.latches ∧
    (m.setWin t w x).waits = m.waits ∧ (m.setWin t w x).signals = m.signals ∧ (m.setWin t w x).engines = m.engines ∧
    (m.setWin t w x).chanLast = m.chanLast ∧ (m.setWin t w x).notLive = m.notLive ∧ (m.setWin t w x).revoked = m.revoked ∧
    (m.setWin t w x).revoking = m.revoking ∧ (m.setWin t w x).stems = m.stems ∧ (m.setWin t w x).rois = m.rois ∧ (m.setWin t w x).ports = m.ports ∧
    (m.setWin t w x).coders = m.coders ∧ (m.setWin t w x).ffc = m.ffc ∧ (m.setWin t w x).ffcEcc = m.ffcEcc ∧ (m.setWin t w x).prep = m.prep ∧
    (m.setWin t w x).adapt = m.adapt ∧ (m.setWin t w x).parked = m.parked ∧ (m.setWin t w x).pos = m.pos ∧ (m.setWin t w x).fld = m.fld ∧
    (m.setWin t w x).lanes = m.lanes ∧ (m.setWin t w x).links = m.links ∧ (m.setWin t w x).ring = m.ring ∧ (m.setWin t w x).hif = m.hif ∧
    (m.setWin t w x).sec = m.sec ∧ (m.setWin t w x).flash = m.flash ∧ (m.setWin t w x).wv = m.wv ∧ (m.setWin t w x).pwr = m.pwr ∧
    (m.setWin t w x).flt = m.flt :=
  by repeat' constructor
@[simp] theorem setLatch_fields (l : Nat) (x : Latch) :
    (m.setLatch l x).freeCtr = m.freeCtr ∧ (m.setLatch l x).justSet = m.justSet ∧ (m.setLatch l x).variant = m.variant ∧
    (m.setLatch l x).cyc = m.cyc ∧ (m.setLatch l x).regs = m.regs ∧ (m.setLatch l x).mem = m.mem ∧ (m.setLatch l x).tiles = m.tiles ∧
    (m.setLatch l x).fx = m.fx ∧ (m.setLatch l x).flights = m.flights ∧ (m.setLatch l x).inbox = m.inbox ∧ (m.setLatch l x).chanQ = m.chanQ ∧
    (m.setLatch l x).gldReplies = m.gldReplies ∧ (m.setLatch l x).windows = m.windows ∧ (m.setLatch l x).winUpds = m.winUpds ∧
    (m.setLatch l x).waits = m.waits ∧ (m.setLatch l x).signals = m.signals ∧ (m.setLatch l x).engines = m.engines ∧
    (m.setLatch l x).chanLast = m.chanLast ∧ (m.setLatch l x).notLive = m.notLive ∧ (m.setLatch l x).revoked = m.revoked ∧
    (m.setLatch l x).revoking = m.revoking ∧ (m.setLatch l x).stems = m.stems ∧ (m.setLatch l x).rois = m.rois ∧ (m.setLatch l x).ports = m.ports ∧
    (m.setLatch l x).coders = m.coders ∧ (m.setLatch l x).ffc = m.ffc ∧ (m.setLatch l x).ffcEcc = m.ffcEcc ∧ (m.setLatch l x).prep = m.prep ∧
    (m.setLatch l x).adapt = m.adapt ∧ (m.setLatch l x).parked = m.parked ∧ (m.setLatch l x).pos = m.pos ∧ (m.setLatch l x).fld = m.fld ∧
    (m.setLatch l x).lanes = m.lanes ∧ (m.setLatch l x).links = m.links ∧ (m.setLatch l x).ring = m.ring ∧ (m.setLatch l x).hif = m.hif ∧
    (m.setLatch l x).sec = m.sec ∧ (m.setLatch l x).flash = m.flash ∧ (m.setLatch l x).wv = m.wv ∧ (m.setLatch l x).pwr = m.pwr ∧
    (m.setLatch l x).flt = m.flt :=
  by repeat' constructor
@[simp] theorem setEngine_fields (e : Nat) (x : Engine) :
    (m.setEngine e x).freeCtr = m.freeCtr ∧ (m.setEngine e x).justSet = m.justSet ∧ (m.setEngine e x).variant = m.variant ∧
    (m.setEngine e x).cyc = m.cyc ∧ (m.setEngine e x).regs = m.regs ∧ (m.setEngine e x).mem = m.mem ∧ (m.setEngine e x).tiles = m.tiles ∧
    (m.setEngine e x).fx = m.fx ∧ (m.setEngine e x).flights = m.flights ∧ (m.setEngine e x).inbox = m.inbox ∧ (m.setEngine e x).chanQ = m.chanQ ∧
    (m.setEngine e x).gldReplies = m.gldReplies ∧ (m.setEngine e x).windows = m.windows ∧ (m.setEngine e x).winUpds = m.winUpds ∧
    (m.setEngine e x).latches = m.latches ∧ (m.setEngine e x).waits = m.waits ∧ (m.setEngine e x).signals = m.signals ∧
    (m.setEngine e x).chanLast = m.chanLast ∧ (m.setEngine e x).notLive = m.notLive ∧ (m.setEngine e x).revoked = m.revoked ∧
    (m.setEngine e x).revoking = m.revoking ∧ (m.setEngine e x).stems = m.stems ∧ (m.setEngine e x).rois = m.rois ∧
    (m.setEngine e x).ports = m.ports ∧ (m.setEngine e x).coders = m.coders ∧ (m.setEngine e x).ffc = m.ffc ∧ (m.setEngine e x).ffcEcc = m.ffcEcc ∧
    (m.setEngine e x).prep = m.prep ∧ (m.setEngine e x).adapt = m.adapt ∧ (m.setEngine e x).parked = m.parked ∧ (m.setEngine e x).pos = m.pos ∧
    (m.setEngine e x).fld = m.fld ∧ (m.setEngine e x).lanes = m.lanes ∧ (m.setEngine e x).links = m.links ∧ (m.setEngine e x).ring = m.ring ∧
    (m.setEngine e x).hif = m.hif ∧ (m.setEngine e x).sec = m.sec ∧ (m.setEngine e x).flash = m.flash ∧ (m.setEngine e x).wv = m.wv ∧
    (m.setEngine e x).pwr = m.pwr ∧ (m.setEngine e x).flt = m.flt :=
  by repeat' constructor
@[simp] theorem setStem_fields (p : Nat) (x : StemPort) :
    (m.setStem p x).freeCtr = m.freeCtr ∧ (m.setStem p x).justSet = m.justSet ∧ (m.setStem p x).variant = m.variant ∧ (m.setStem p x).cyc = m.cyc ∧
    (m.setStem p x).regs = m.regs ∧ (m.setStem p x).mem = m.mem ∧ (m.setStem p x).tiles = m.tiles ∧ (m.setStem p x).fx = m.fx ∧
    (m.setStem p x).flights = m.flights ∧ (m.setStem p x).inbox = m.inbox ∧ (m.setStem p x).chanQ = m.chanQ ∧
    (m.setStem p x).gldReplies = m.gldReplies ∧ (m.setStem p x).windows = m.windows ∧ (m.setStem p x).winUpds = m.winUpds ∧
    (m.setStem p x).latches = m.latches ∧ (m.setStem p x).waits = m.waits ∧ (m.setStem p x).signals = m.signals ∧
    (m.setStem p x).engines = m.engines ∧ (m.setStem p x).chanLast = m.chanLast ∧ (m.setStem p x).notLive = m.notLive ∧
    (m.setStem p x).revoked = m.revoked ∧ (m.setStem p x).revoking = m.revoking ∧ (m.setStem p x).rois = m.rois ∧ (m.setStem p x).ports = m.ports ∧
    (m.setStem p x).coders = m.coders ∧ (m.setStem p x).ffc = m.ffc ∧ (m.setStem p x).ffcEcc = m.ffcEcc ∧ (m.setStem p x).prep = m.prep ∧
    (m.setStem p x).adapt = m.adapt ∧ (m.setStem p x).parked = m.parked ∧ (m.setStem p x).pos = m.pos ∧ (m.setStem p x).fld = m.fld ∧
    (m.setStem p x).lanes = m.lanes ∧ (m.setStem p x).links = m.links ∧ (m.setStem p x).ring = m.ring ∧ (m.setStem p x).hif = m.hif ∧
    (m.setStem p x).sec = m.sec ∧ (m.setStem p x).flash = m.flash ∧ (m.setStem p x).wv = m.wv ∧ (m.setStem p x).pwr = m.pwr ∧
    (m.setStem p x).flt = m.flt :=
  by repeat' constructor
@[simp] theorem setRoi_fields (d : Nat) (x : Roi) :
    (m.setRoi d x).freeCtr = m.freeCtr ∧ (m.setRoi d x).justSet = m.justSet ∧ (m.setRoi d x).variant = m.variant ∧ (m.setRoi d x).cyc = m.cyc ∧
    (m.setRoi d x).regs = m.regs ∧ (m.setRoi d x).mem = m.mem ∧ (m.setRoi d x).tiles = m.tiles ∧ (m.setRoi d x).fx = m.fx ∧
    (m.setRoi d x).flights = m.flights ∧ (m.setRoi d x).inbox = m.inbox ∧ (m.setRoi d x).chanQ = m.chanQ ∧ (m.setRoi d x).gldReplies = m.gldReplies ∧
    (m.setRoi d x).windows = m.windows ∧ (m.setRoi d x).winUpds = m.winUpds ∧ (m.setRoi d x).latches = m.latches ∧ (m.setRoi d x).waits = m.waits ∧
    (m.setRoi d x).signals = m.signals ∧ (m.setRoi d x).engines = m.engines ∧ (m.setRoi d x).chanLast = m.chanLast ∧
    (m.setRoi d x).notLive = m.notLive ∧ (m.setRoi d x).revoked = m.revoked ∧ (m.setRoi d x).revoking = m.revoking ∧ (m.setRoi d x).stems = m.stems ∧
    (m.setRoi d x).ports = m.ports ∧ (m.setRoi d x).coders = m.coders ∧ (m.setRoi d x).ffc = m.ffc ∧ (m.setRoi d x).ffcEcc = m.ffcEcc ∧
    (m.setRoi d x).prep = m.prep ∧ (m.setRoi d x).adapt = m.adapt ∧ (m.setRoi d x).parked = m.parked ∧ (m.setRoi d x).pos = m.pos ∧
    (m.setRoi d x).fld = m.fld ∧ (m.setRoi d x).lanes = m.lanes ∧ (m.setRoi d x).links = m.links ∧ (m.setRoi d x).ring = m.ring ∧
    (m.setRoi d x).hif = m.hif ∧ (m.setRoi d x).sec = m.sec ∧ (m.setRoi d x).flash = m.flash ∧ (m.setRoi d x).wv = m.wv ∧
    (m.setRoi d x).pwr = m.pwr ∧ (m.setRoi d x).flt = m.flt :=
  by repeat' constructor
@[simp] theorem setPort_fields (p : Nat) (x : Port) :
    (m.setPort p x).freeCtr = m.freeCtr ∧ (m.setPort p x).justSet = m.justSet ∧ (m.setPort p x).variant = m.variant ∧ (m.setPort p x).cyc = m.cyc ∧
    (m.setPort p x).regs = m.regs ∧ (m.setPort p x).mem = m.mem ∧ (m.setPort p x).tiles = m.tiles ∧ (m.setPort p x).fx = m.fx ∧
    (m.setPort p x).flights = m.flights ∧ (m.setPort p x).inbox = m.inbox ∧ (m.setPort p x).chanQ = m.chanQ ∧
    (m.setPort p x).gldReplies = m.gldReplies ∧ (m.setPort p x).windows = m.windows ∧ (m.setPort p x).winUpds = m.winUpds ∧
    (m.setPort p x).latches = m.latches ∧ (m.setPort p x).waits = m.waits ∧ (m.setPort p x).signals = m.signals ∧
    (m.setPort p x).engines = m.engines ∧ (m.setPort p x).chanLast = m.chanLast ∧ (m.setPort p x).notLive = m.notLive ∧
    (m.setPort p x).revoked = m.revoked ∧ (m.setPort p x).revoking = m.revoking ∧ (m.setPort p x).stems = m.stems ∧ (m.setPort p x).rois = m.rois ∧
    (m.setPort p x).coders = m.coders ∧ (m.setPort p x).ffc = m.ffc ∧ (m.setPort p x).ffcEcc = m.ffcEcc ∧ (m.setPort p x).prep = m.prep ∧
    (m.setPort p x).adapt = m.adapt ∧ (m.setPort p x).parked = m.parked ∧ (m.setPort p x).pos = m.pos ∧ (m.setPort p x).fld = m.fld ∧
    (m.setPort p x).lanes = m.lanes ∧ (m.setPort p x).links = m.links ∧ (m.setPort p x).ring = m.ring ∧ (m.setPort p x).hif = m.hif ∧
    (m.setPort p x).sec = m.sec ∧ (m.setPort p x).flash = m.flash ∧ (m.setPort p x).wv = m.wv ∧ (m.setPort p x).pwr = m.pwr ∧
    (m.setPort p x).flt = m.flt :=
  by repeat' constructor
@[simp] theorem setCoder_fields (d : Nat) (x : Coder) :
    (m.setCoder d x).freeCtr = m.freeCtr ∧ (m.setCoder d x).justSet = m.justSet ∧ (m.setCoder d x).variant = m.variant ∧
    (m.setCoder d x).cyc = m.cyc ∧ (m.setCoder d x).regs = m.regs ∧ (m.setCoder d x).mem = m.mem ∧ (m.setCoder d x).tiles = m.tiles ∧
    (m.setCoder d x).fx = m.fx ∧ (m.setCoder d x).flights = m.flights ∧ (m.setCoder d x).inbox = m.inbox ∧ (m.setCoder d x).chanQ = m.chanQ ∧
    (m.setCoder d x).gldReplies = m.gldReplies ∧ (m.setCoder d x).windows = m.windows ∧ (m.setCoder d x).winUpds = m.winUpds ∧
    (m.setCoder d x).latches = m.latches ∧ (m.setCoder d x).waits = m.waits ∧ (m.setCoder d x).signals = m.signals ∧
    (m.setCoder d x).engines = m.engines ∧ (m.setCoder d x).chanLast = m.chanLast ∧ (m.setCoder d x).notLive = m.notLive ∧
    (m.setCoder d x).revoked = m.revoked ∧ (m.setCoder d x).revoking = m.revoking ∧ (m.setCoder d x).stems = m.stems ∧
    (m.setCoder d x).rois = m.rois ∧ (m.setCoder d x).ports = m.ports ∧ (m.setCoder d x).ffc = m.ffc ∧ (m.setCoder d x).ffcEcc = m.ffcEcc ∧
    (m.setCoder d x).prep = m.prep ∧ (m.setCoder d x).adapt = m.adapt ∧ (m.setCoder d x).parked = m.parked ∧ (m.setCoder d x).pos = m.pos ∧
    (m.setCoder d x).fld = m.fld ∧ (m.setCoder d x).lanes = m.lanes ∧ (m.setCoder d x).links = m.links ∧ (m.setCoder d x).ring = m.ring ∧
    (m.setCoder d x).hif = m.hif ∧ (m.setCoder d x).sec = m.sec ∧ (m.setCoder d x).flash = m.flash ∧ (m.setCoder d x).wv = m.wv ∧
    (m.setCoder d x).pwr = m.pwr ∧ (m.setCoder d x).flt = m.flt :=
  by repeat' constructor
@[simp] theorem setLane_fields (k : Nat) (x : Lane) :
    (m.setLane k x).freeCtr = m.freeCtr ∧ (m.setLane k x).justSet = m.justSet ∧ (m.setLane k x).variant = m.variant ∧ (m.setLane k x).cyc = m.cyc ∧
    (m.setLane k x).regs = m.regs ∧ (m.setLane k x).mem = m.mem ∧ (m.setLane k x).tiles = m.tiles ∧ (m.setLane k x).fx = m.fx ∧
    (m.setLane k x).flights = m.flights ∧ (m.setLane k x).inbox = m.inbox ∧ (m.setLane k x).chanQ = m.chanQ ∧
    (m.setLane k x).gldReplies = m.gldReplies ∧ (m.setLane k x).windows = m.windows ∧ (m.setLane k x).winUpds = m.winUpds ∧
    (m.setLane k x).latches = m.latches ∧ (m.setLane k x).waits = m.waits ∧ (m.setLane k x).signals = m.signals ∧
    (m.setLane k x).engines = m.engines ∧ (m.setLane k x).chanLast = m.chanLast ∧ (m.setLane k x).notLive = m.notLive ∧
    (m.setLane k x).revoked = m.revoked ∧ (m.setLane k x).revoking = m.revoking ∧ (m.setLane k x).stems = m.stems ∧ (m.setLane k x).rois = m.rois ∧
    (m.setLane k x).ports = m.ports ∧ (m.setLane k x).coders = m.coders ∧ (m.setLane k x).ffc = m.ffc ∧ (m.setLane k x).ffcEcc = m.ffcEcc ∧
    (m.setLane k x).prep = m.prep ∧ (m.setLane k x).adapt = m.adapt ∧ (m.setLane k x).parked = m.parked ∧ (m.setLane k x).pos = m.pos ∧
    (m.setLane k x).fld = m.fld ∧ (m.setLane k x).links = m.links ∧ (m.setLane k x).ring = m.ring ∧ (m.setLane k x).hif = m.hif ∧
    (m.setLane k x).sec = m.sec ∧ (m.setLane k x).flash = m.flash ∧ (m.setLane k x).wv = m.wv ∧ (m.setLane k x).pwr = m.pwr ∧
    (m.setLane k x).flt = m.flt :=
  by repeat' constructor
@[simp] theorem setLink_fields (k : Nat) (x : Link) :
    (m.setLink k x).freeCtr = m.freeCtr ∧ (m.setLink k x).justSet = m.justSet ∧ (m.setLink k x).variant = m.variant ∧ (m.setLink k x).cyc = m.cyc ∧
    (m.setLink k x).regs = m.regs ∧ (m.setLink k x).mem = m.mem ∧ (m.setLink k x).tiles = m.tiles ∧ (m.setLink k x).fx = m.fx ∧
    (m.setLink k x).flights = m.flights ∧ (m.setLink k x).inbox = m.inbox ∧ (m.setLink k x).chanQ = m.chanQ ∧
    (m.setLink k x).gldReplies = m.gldReplies ∧ (m.setLink k x).windows = m.windows ∧ (m.setLink k x).winUpds = m.winUpds ∧
    (m.setLink k x).latches = m.latches ∧ (m.setLink k x).waits = m.waits ∧ (m.setLink k x).signals = m.signals ∧
    (m.setLink k x).engines = m.engines ∧ (m.setLink k x).chanLast = m.chanLast ∧ (m.setLink k x).notLive = m.notLive ∧
    (m.setLink k x).revoked = m.revoked ∧ (m.setLink k x).revoking = m.revoking ∧ (m.setLink k x).stems = m.stems ∧ (m.setLink k x).rois = m.rois ∧
    (m.setLink k x).ports = m.ports ∧ (m.setLink k x).coders = m.coders ∧ (m.setLink k x).ffc = m.ffc ∧ (m.setLink k x).ffcEcc = m.ffcEcc ∧
    (m.setLink k x).prep = m.prep ∧ (m.setLink k x).adapt = m.adapt ∧ (m.setLink k x).parked = m.parked ∧ (m.setLink k x).pos = m.pos ∧
    (m.setLink k x).fld = m.fld ∧ (m.setLink k x).lanes = m.lanes ∧ (m.setLink k x).ring = m.ring ∧ (m.setLink k x).hif = m.hif ∧
    (m.setLink k x).sec = m.sec ∧ (m.setLink k x).flash = m.flash ∧ (m.setLink k x).wv = m.wv ∧ (m.setLink k x).pwr = m.pwr ∧
    (m.setLink k x).flt = m.flt :=
  by repeat' constructor
@[simp] theorem setQueue_fields (q : Nat) (x : Queue) :
    (m.setQueue q x).freeCtr = m.freeCtr ∧ (m.setQueue q x).justSet = m.justSet ∧ (m.setQueue q x).variant = m.variant ∧
    (m.setQueue q x).cyc = m.cyc ∧ (m.setQueue q x).regs = m.regs ∧ (m.setQueue q x).mem = m.mem ∧ (m.setQueue q x).tiles = m.tiles ∧
    (m.setQueue q x).fx = m.fx ∧ (m.setQueue q x).flights = m.flights ∧ (m.setQueue q x).inbox = m.inbox ∧ (m.setQueue q x).chanQ = m.chanQ ∧
    (m.setQueue q x).gldReplies = m.gldReplies ∧ (m.setQueue q x).windows = m.windows ∧ (m.setQueue q x).winUpds = m.winUpds ∧
    (m.setQueue q x).latches = m.latches ∧ (m.setQueue q x).waits = m.waits ∧ (m.setQueue q x).signals = m.signals ∧
    (m.setQueue q x).engines = m.engines ∧ (m.setQueue q x).chanLast = m.chanLast ∧ (m.setQueue q x).notLive = m.notLive ∧
    (m.setQueue q x).revoked = m.revoked ∧ (m.setQueue q x).revoking = m.revoking ∧ (m.setQueue q x).stems = m.stems ∧
    (m.setQueue q x).rois = m.rois ∧ (m.setQueue q x).ports = m.ports ∧ (m.setQueue q x).coders = m.coders ∧ (m.setQueue q x).ffc = m.ffc ∧
    (m.setQueue q x).ffcEcc = m.ffcEcc ∧ (m.setQueue q x).prep = m.prep ∧ (m.setQueue q x).adapt = m.adapt ∧ (m.setQueue q x).parked = m.parked ∧
    (m.setQueue q x).pos = m.pos ∧ (m.setQueue q x).fld = m.fld ∧ (m.setQueue q x).lanes = m.lanes ∧ (m.setQueue q x).links = m.links ∧
    (m.setQueue q x).ring = m.ring ∧ (m.setQueue q x).sec = m.sec ∧ (m.setQueue q x).flash = m.flash ∧ (m.setQueue q x).wv = m.wv ∧
    (m.setQueue q x).pwr = m.pwr ∧ (m.setQueue q x).flt = m.flt :=
  by repeat' constructor
@[simp] theorem setBucket_fields (b : Nat) (x : BucketSt) :
    (m.setBucket b x).freeCtr = m.freeCtr ∧ (m.setBucket b x).justSet = m.justSet ∧ (m.setBucket b x).variant = m.variant ∧
    (m.setBucket b x).cyc = m.cyc ∧ (m.setBucket b x).regs = m.regs ∧ (m.setBucket b x).mem = m.mem ∧ (m.setBucket b x).tiles = m.tiles ∧
    (m.setBucket b x).fx = m.fx ∧ (m.setBucket b x).flights = m.flights ∧ (m.setBucket b x).inbox = m.inbox ∧ (m.setBucket b x).chanQ = m.chanQ ∧
    (m.setBucket b x).gldReplies = m.gldReplies ∧ (m.setBucket b x).windows = m.windows ∧ (m.setBucket b x).winUpds = m.winUpds ∧
    (m.setBucket b x).latches = m.latches ∧ (m.setBucket b x).waits = m.waits ∧ (m.setBucket b x).signals = m.signals ∧
    (m.setBucket b x).engines = m.engines ∧ (m.setBucket b x).chanLast = m.chanLast ∧ (m.setBucket b x).notLive = m.notLive ∧
    (m.setBucket b x).revoked = m.revoked ∧ (m.setBucket b x).revoking = m.revoking ∧ (m.setBucket b x).stems = m.stems ∧
    (m.setBucket b x).rois = m.rois ∧ (m.setBucket b x).ports = m.ports ∧ (m.setBucket b x).coders = m.coders ∧ (m.setBucket b x).ffc = m.ffc ∧
    (m.setBucket b x).ffcEcc = m.ffcEcc ∧ (m.setBucket b x).adapt = m.adapt ∧ (m.setBucket b x).parked = m.parked ∧ (m.setBucket b x).pos = m.pos ∧
    (m.setBucket b x).fld = m.fld ∧ (m.setBucket b x).lanes = m.lanes ∧ (m.setBucket b x).links = m.links ∧ (m.setBucket b x).ring = m.ring ∧
    (m.setBucket b x).hif = m.hif ∧ (m.setBucket b x).sec = m.sec ∧ (m.setBucket b x).flash = m.flash ∧ (m.setBucket b x).wv = m.wv ∧
    (m.setBucket b x).pwr = m.pwr ∧ (m.setBucket b x).flt = m.flt :=
  by repeat' constructor
@[simp] theorem setSpad_fields (x : List Host.Cell) :
    (m.setSpad x).freeCtr = m.freeCtr ∧ (m.setSpad x).justSet = m.justSet ∧ (m.setSpad x).variant = m.variant ∧ (m.setSpad x).cyc = m.cyc ∧
    (m.setSpad x).regs = m.regs ∧ (m.setSpad x).tiles = m.tiles ∧ (m.setSpad x).fx = m.fx ∧ (m.setSpad x).flights = m.flights ∧
    (m.setSpad x).inbox = m.inbox ∧ (m.setSpad x).chanQ = m.chanQ ∧ (m.setSpad x).gldReplies = m.gldReplies ∧ (m.setSpad x).windows = m.windows ∧
    (m.setSpad x).winUpds = m.winUpds ∧ (m.setSpad x).latches = m.latches ∧ (m.setSpad x).waits = m.waits ∧ (m.setSpad x).signals = m.signals ∧
    (m.setSpad x).engines = m.engines ∧ (m.setSpad x).chanLast = m.chanLast ∧ (m.setSpad x).notLive = m.notLive ∧ (m.setSpad x).revoked = m.revoked ∧
    (m.setSpad x).revoking = m.revoking ∧ (m.setSpad x).stems = m.stems ∧ (m.setSpad x).rois = m.rois ∧ (m.setSpad x).ports = m.ports ∧
    (m.setSpad x).coders = m.coders ∧ (m.setSpad x).ffc = m.ffc ∧ (m.setSpad x).ffcEcc = m.ffcEcc ∧ (m.setSpad x).prep = m.prep ∧
    (m.setSpad x).adapt = m.adapt ∧ (m.setSpad x).parked = m.parked ∧ (m.setSpad x).pos = m.pos ∧ (m.setSpad x).fld = m.fld ∧
    (m.setSpad x).lanes = m.lanes ∧ (m.setSpad x).links = m.links ∧ (m.setSpad x).ring = m.ring ∧ (m.setSpad x).hif = m.hif ∧
    (m.setSpad x).sec = m.sec ∧ (m.setSpad x).flash = m.flash ∧ (m.setSpad x).wv = m.wv ∧ (m.setSpad x).pwr = m.pwr ∧ (m.setSpad x).flt = m.flt :=
  by repeat' constructor
@[simp] theorem setStack_fields (x : List Host.Cell) :
    (m.setStack x).freeCtr = m.freeCtr ∧ (m.setStack x).justSet = m.justSet ∧ (m.setStack x).variant = m.variant ∧ (m.setStack x).cyc = m.cyc ∧
    (m.setStack x).regs = m.regs ∧ (m.setStack x).tiles = m.tiles ∧ (m.setStack x).fx = m.fx ∧ (m.setStack x).flights = m.flights ∧
    (m.setStack x).inbox = m.inbox ∧ (m.setStack x).chanQ = m.chanQ ∧ (m.setStack x).gldReplies = m.gldReplies ∧ (m.setStack x).windows = m.windows ∧
    (m.setStack x).winUpds = m.winUpds ∧ (m.setStack x).latches = m.latches ∧ (m.setStack x).waits = m.waits ∧ (m.setStack x).signals = m.signals ∧
    (m.setStack x).engines = m.engines ∧ (m.setStack x).chanLast = m.chanLast ∧ (m.setStack x).notLive = m.notLive ∧
    (m.setStack x).revoked = m.revoked ∧ (m.setStack x).revoking = m.revoking ∧ (m.setStack x).stems = m.stems ∧ (m.setStack x).rois = m.rois ∧
    (m.setStack x).ports = m.ports ∧ (m.setStack x).coders = m.coders ∧ (m.setStack x).ffc = m.ffc ∧ (m.setStack x).ffcEcc = m.ffcEcc ∧
    (m.setStack x).prep = m.prep ∧ (m.setStack x).adapt = m.adapt ∧ (m.setStack x).parked = m.parked ∧ (m.setStack x).pos = m.pos ∧
    (m.setStack x).fld = m.fld ∧ (m.setStack x).lanes = m.lanes ∧ (m.setStack x).links = m.links ∧ (m.setStack x).ring = m.ring ∧
    (m.setStack x).hif = m.hif ∧ (m.setStack x).sec = m.sec ∧ (m.setStack x).flash = m.flash ∧ (m.setStack x).wv = m.wv ∧
    (m.setStack x).pwr = m.pwr ∧ (m.setStack x).flt = m.flt :=
  by repeat' constructor
@[simp] theorem setSlot_fields (t k : Nat) (v : Slot) :
    (m.setSlot t k v).freeCtr = m.freeCtr ∧ (m.setSlot t k v).justSet = m.justSet ∧ (m.setSlot t k v).variant = m.variant ∧
    (m.setSlot t k v).cyc = m.cyc ∧ (m.setSlot t k v).regs = m.regs ∧ (m.setSlot t k v).tiles = m.tiles ∧ (m.setSlot t k v).fx = m.fx ∧
    (m.setSlot t k v).flights = m.flights ∧ (m.setSlot t k v).inbox = m.inbox ∧ (m.setSlot t k v).chanQ = m.chanQ ∧
    (m.setSlot t k v).gldReplies = m.gldReplies ∧ (m.setSlot t k v).windows = m.windows ∧ (m.setSlot t k v).winUpds = m.winUpds ∧
    (m.setSlot t k v).latches = m.latches ∧ (m.setSlot t k v).waits = m.waits ∧ (m.setSlot t k v).signals = m.signals ∧
    (m.setSlot t k v).engines = m.engines ∧ (m.setSlot t k v).chanLast = m.chanLast ∧ (m.setSlot t k v).notLive = m.notLive ∧
    (m.setSlot t k v).revoked = m.revoked ∧ (m.setSlot t k v).revoking = m.revoking ∧ (m.setSlot t k v).stems = m.stems ∧
    (m.setSlot t k v).rois = m.rois ∧ (m.setSlot t k v).ports = m.ports ∧ (m.setSlot t k v).coders = m.coders ∧ (m.setSlot t k v).ffc = m.ffc ∧
    (m.setSlot t k v).ffcEcc = m.ffcEcc ∧ (m.setSlot t k v).prep = m.prep ∧ (m.setSlot t k v).adapt = m.adapt ∧ (m.setSlot t k v).parked = m.parked ∧
    (m.setSlot t k v).pos = m.pos ∧ (m.setSlot t k v).fld = m.fld ∧ (m.setSlot t k v).lanes = m.lanes ∧ (m.setSlot t k v).links = m.links ∧
    (m.setSlot t k v).ring = m.ring ∧ (m.setSlot t k v).hif = m.hif ∧ (m.setSlot t k v).sec = m.sec ∧ (m.setSlot t k v).flash = m.flash ∧
    (m.setSlot t k v).wv = m.wv ∧ (m.setSlot t k v).pwr = m.pwr ∧ (m.setSlot t k v).flt = m.flt :=
  by repeat' constructor
@[simp] theorem setGran_fields (g k : Nat) (v : Slot) :
    (m.setGran g k v).freeCtr = m.freeCtr ∧ (m.setGran g k v).justSet = m.justSet ∧ (m.setGran g k v).variant = m.variant ∧
    (m.setGran g k v).cyc = m.cyc ∧ (m.setGran g k v).regs = m.regs ∧ (m.setGran g k v).tiles = m.tiles ∧ (m.setGran g k v).fx = m.fx ∧
    (m.setGran g k v).flights = m.flights ∧ (m.setGran g k v).inbox = m.inbox ∧ (m.setGran g k v).chanQ = m.chanQ ∧
    (m.setGran g k v).gldReplies = m.gldReplies ∧ (m.setGran g k v).windows = m.windows ∧ (m.setGran g k v).winUpds = m.winUpds ∧
    (m.setGran g k v).latches = m.latches ∧ (m.setGran g k v).waits = m.waits ∧ (m.setGran g k v).signals = m.signals ∧
    (m.setGran g k v).engines = m.engines ∧ (m.setGran g k v).chanLast = m.chanLast ∧ (m.setGran g k v).notLive = m.notLive ∧
    (m.setGran g k v).revoked = m.revoked ∧ (m.setGran g k v).revoking = m.revoking ∧ (m.setGran g k v).stems = m.stems ∧
    (m.setGran g k v).rois = m.rois ∧ (m.setGran g k v).ports = m.ports ∧ (m.setGran g k v).coders = m.coders ∧ (m.setGran g k v).ffc = m.ffc ∧
    (m.setGran g k v).ffcEcc = m.ffcEcc ∧ (m.setGran g k v).prep = m.prep ∧ (m.setGran g k v).adapt = m.adapt ∧ (m.setGran g k v).parked = m.parked ∧
    (m.setGran g k v).pos = m.pos ∧ (m.setGran g k v).fld = m.fld ∧ (m.setGran g k v).lanes = m.lanes ∧ (m.setGran g k v).links = m.links ∧
    (m.setGran g k v).ring = m.ring ∧ (m.setGran g k v).hif = m.hif ∧ (m.setGran g k v).sec = m.sec ∧ (m.setGran g k v).flash = m.flash ∧
    (m.setGran g k v).wv = m.wv ∧ (m.setGran g k v).pwr = m.pwr ∧ (m.setGran g k v).flt = m.flt :=
  by repeat' constructor
@[simp] theorem setDdrBytes_fields (a : Nat) (bs : List Byte) :
    (m.setDdrBytes a bs).freeCtr = m.freeCtr ∧ (m.setDdrBytes a bs).justSet = m.justSet ∧ (m.setDdrBytes a bs).variant = m.variant ∧
    (m.setDdrBytes a bs).cyc = m.cyc ∧ (m.setDdrBytes a bs).regs = m.regs ∧ (m.setDdrBytes a bs).tiles = m.tiles ∧ (m.setDdrBytes a bs).fx = m.fx ∧
    (m.setDdrBytes a bs).flights = m.flights ∧ (m.setDdrBytes a bs).inbox = m.inbox ∧ (m.setDdrBytes a bs).chanQ = m.chanQ ∧
    (m.setDdrBytes a bs).gldReplies = m.gldReplies ∧ (m.setDdrBytes a bs).windows = m.windows ∧ (m.setDdrBytes a bs).winUpds = m.winUpds ∧
    (m.setDdrBytes a bs).latches = m.latches ∧ (m.setDdrBytes a bs).waits = m.waits ∧ (m.setDdrBytes a bs).signals = m.signals ∧
    (m.setDdrBytes a bs).engines = m.engines ∧ (m.setDdrBytes a bs).chanLast = m.chanLast ∧ (m.setDdrBytes a bs).notLive = m.notLive ∧
    (m.setDdrBytes a bs).revoked = m.revoked ∧ (m.setDdrBytes a bs).revoking = m.revoking ∧ (m.setDdrBytes a bs).stems = m.stems ∧
    (m.setDdrBytes a bs).rois = m.rois ∧ (m.setDdrBytes a bs).ports = m.ports ∧ (m.setDdrBytes a bs).coders = m.coders ∧
    (m.setDdrBytes a bs).ffc = m.ffc ∧ (m.setDdrBytes a bs).ffcEcc = m.ffcEcc ∧ (m.setDdrBytes a bs).prep = m.prep ∧
    (m.setDdrBytes a bs).adapt = m.adapt ∧ (m.setDdrBytes a bs).parked = m.parked ∧ (m.setDdrBytes a bs).pos = m.pos ∧
    (m.setDdrBytes a bs).fld = m.fld ∧ (m.setDdrBytes a bs).lanes = m.lanes ∧ (m.setDdrBytes a bs).links = m.links ∧
    (m.setDdrBytes a bs).ring = m.ring ∧ (m.setDdrBytes a bs).hif = m.hif ∧ (m.setDdrBytes a bs).sec = m.sec ∧ (m.setDdrBytes a bs).flash = m.flash ∧
    (m.setDdrBytes a bs).wv = m.wv ∧ (m.setDdrBytes a bs).pwr = m.pwr ∧ (m.setDdrBytes a bs).flt = m.flt :=
  by repeat' constructor
@[simp] theorem setHostBytes_fields (a : Nat) (bs : List Byte) :
    (m.setHostBytes a bs).freeCtr = m.freeCtr ∧ (m.setHostBytes a bs).justSet = m.justSet ∧ (m.setHostBytes a bs).variant = m.variant ∧
    (m.setHostBytes a bs).cyc = m.cyc ∧ (m.setHostBytes a bs).regs = m.regs ∧ (m.setHostBytes a bs).tiles = m.tiles ∧
    (m.setHostBytes a bs).fx = m.fx ∧ (m.setHostBytes a bs).flights = m.flights ∧ (m.setHostBytes a bs).inbox = m.inbox ∧
    (m.setHostBytes a bs).chanQ = m.chanQ ∧ (m.setHostBytes a bs).gldReplies = m.gldReplies ∧ (m.setHostBytes a bs).windows = m.windows ∧
    (m.setHostBytes a bs).winUpds = m.winUpds ∧ (m.setHostBytes a bs).latches = m.latches ∧ (m.setHostBytes a bs).waits = m.waits ∧
    (m.setHostBytes a bs).signals = m.signals ∧ (m.setHostBytes a bs).engines = m.engines ∧ (m.setHostBytes a bs).chanLast = m.chanLast ∧
    (m.setHostBytes a bs).notLive = m.notLive ∧ (m.setHostBytes a bs).revoked = m.revoked ∧ (m.setHostBytes a bs).revoking = m.revoking ∧
    (m.setHostBytes a bs).stems = m.stems ∧ (m.setHostBytes a bs).rois = m.rois ∧ (m.setHostBytes a bs).ports = m.ports ∧
    (m.setHostBytes a bs).coders = m.coders ∧ (m.setHostBytes a bs).ffc = m.ffc ∧ (m.setHostBytes a bs).ffcEcc = m.ffcEcc ∧
    (m.setHostBytes a bs).prep = m.prep ∧ (m.setHostBytes a bs).adapt = m.adapt ∧ (m.setHostBytes a bs).parked = m.parked ∧
    (m.setHostBytes a bs).pos = m.pos ∧ (m.setHostBytes a bs).fld = m.fld ∧ (m.setHostBytes a bs).lanes = m.lanes ∧
    (m.setHostBytes a bs).links = m.links ∧ (m.setHostBytes a bs).ring = m.ring ∧ (m.setHostBytes a bs).hif = m.hif ∧
    (m.setHostBytes a bs).sec = m.sec ∧ (m.setHostBytes a bs).flash = m.flash ∧ (m.setHostBytes a bs).wv = m.wv ∧ (m.setHostBytes a bs).pwr = m.pwr ∧
    (m.setHostBytes a bs).flt = m.flt :=
  by repeat' constructor
@[simp] theorem setTag_fields (t k : Nat) (b : Bool) :
    (m.setTag t k b).freeCtr = m.freeCtr ∧ (m.setTag t k b).justSet = m.justSet ∧ (m.setTag t k b).variant = m.variant ∧
    (m.setTag t k b).cyc = m.cyc ∧ (m.setTag t k b).regs = m.regs ∧ (m.setTag t k b).tiles = m.tiles ∧ (m.setTag t k b).fx = m.fx ∧
    (m.setTag t k b).flights = m.flights ∧ (m.setTag t k b).inbox = m.inbox ∧ (m.setTag t k b).chanQ = m.chanQ ∧
    (m.setTag t k b).gldReplies = m.gldReplies ∧ (m.setTag t k b).windows = m.windows ∧ (m.setTag t k b).winUpds = m.winUpds ∧
    (m.setTag t k b).latches = m.latches ∧ (m.setTag t k b).waits = m.waits ∧ (m.setTag t k b).signals = m.signals ∧
    (m.setTag t k b).engines = m.engines ∧ (m.setTag t k b).chanLast = m.chanLast ∧ (m.setTag t k b).notLive = m.notLive ∧
    (m.setTag t k b).revoked = m.revoked ∧ (m.setTag t k b).revoking = m.revoking ∧ (m.setTag t k b).stems = m.stems ∧
    (m.setTag t k b).rois = m.rois ∧ (m.setTag t k b).ports = m.ports ∧ (m.setTag t k b).coders = m.coders ∧ (m.setTag t k b).ffc = m.ffc ∧
    (m.setTag t k b).ffcEcc = m.ffcEcc ∧ (m.setTag t k b).prep = m.prep ∧ (m.setTag t k b).adapt = m.adapt ∧ (m.setTag t k b).parked = m.parked ∧
    (m.setTag t k b).pos = m.pos ∧ (m.setTag t k b).fld = m.fld ∧ (m.setTag t k b).lanes = m.lanes ∧ (m.setTag t k b).links = m.links ∧
    (m.setTag t k b).ring = m.ring ∧ (m.setTag t k b).hif = m.hif ∧ (m.setTag t k b).sec = m.sec ∧ (m.setTag t k b).flash = m.flash ∧
    (m.setTag t k b).wv = m.wv ∧ (m.setTag t k b).pwr = m.pwr ∧ (m.setTag t k b).flt = m.flt :=
  by repeat' constructor
@[simp] theorem setSkew_fields (t k : Nat) (x : Int) :
    (m.setSkew t k x).freeCtr = m.freeCtr ∧ (m.setSkew t k x).justSet = m.justSet ∧ (m.setSkew t k x).variant = m.variant ∧
    (m.setSkew t k x).cyc = m.cyc ∧ (m.setSkew t k x).regs = m.regs ∧ (m.setSkew t k x).tiles = m.tiles ∧ (m.setSkew t k x).fx = m.fx ∧
    (m.setSkew t k x).flights = m.flights ∧ (m.setSkew t k x).inbox = m.inbox ∧ (m.setSkew t k x).chanQ = m.chanQ ∧
    (m.setSkew t k x).gldReplies = m.gldReplies ∧ (m.setSkew t k x).windows = m.windows ∧ (m.setSkew t k x).winUpds = m.winUpds ∧
    (m.setSkew t k x).latches = m.latches ∧ (m.setSkew t k x).waits = m.waits ∧ (m.setSkew t k x).signals = m.signals ∧
    (m.setSkew t k x).engines = m.engines ∧ (m.setSkew t k x).chanLast = m.chanLast ∧ (m.setSkew t k x).notLive = m.notLive ∧
    (m.setSkew t k x).revoked = m.revoked ∧ (m.setSkew t k x).revoking = m.revoking ∧ (m.setSkew t k x).stems = m.stems ∧
    (m.setSkew t k x).rois = m.rois ∧ (m.setSkew t k x).ports = m.ports ∧ (m.setSkew t k x).coders = m.coders ∧ (m.setSkew t k x).ffc = m.ffc ∧
    (m.setSkew t k x).ffcEcc = m.ffcEcc ∧ (m.setSkew t k x).prep = m.prep ∧ (m.setSkew t k x).adapt = m.adapt ∧ (m.setSkew t k x).parked = m.parked ∧
    (m.setSkew t k x).pos = m.pos ∧ (m.setSkew t k x).fld = m.fld ∧ (m.setSkew t k x).lanes = m.lanes ∧ (m.setSkew t k x).links = m.links ∧
    (m.setSkew t k x).ring = m.ring ∧ (m.setSkew t k x).hif = m.hif ∧ (m.setSkew t k x).sec = m.sec ∧ (m.setSkew t k x).flash = m.flash ∧
    (m.setSkew t k x).wv = m.wv ∧ (m.setSkew t k x).pwr = m.pwr ∧ (m.setSkew t k x).flt = m.flt :=
  by repeat' constructor
@[simp] theorem setReg_fields (a : Nat) (v : W32) :
    (m.setReg a v).freeCtr = m.freeCtr ∧ (m.setReg a v).justSet = m.justSet ∧ (m.setReg a v).variant = m.variant ∧ (m.setReg a v).cyc = m.cyc ∧
    (m.setReg a v).mem = m.mem ∧ (m.setReg a v).tiles = m.tiles ∧ (m.setReg a v).fx = m.fx ∧ (m.setReg a v).flights = m.flights ∧
    (m.setReg a v).inbox = m.inbox ∧ (m.setReg a v).chanQ = m.chanQ ∧ (m.setReg a v).gldReplies = m.gldReplies ∧ (m.setReg a v).windows = m.windows ∧
    (m.setReg a v).winUpds = m.winUpds ∧ (m.setReg a v).latches = m.latches ∧ (m.setReg a v).waits = m.waits ∧ (m.setReg a v).signals = m.signals ∧
    (m.setReg a v).engines = m.engines ∧ (m.setReg a v).chanLast = m.chanLast ∧ (m.setReg a v).notLive = m.notLive ∧
    (m.setReg a v).revoked = m.revoked ∧ (m.setReg a v).revoking = m.revoking ∧ (m.setReg a v).stems = m.stems ∧ (m.setReg a v).rois = m.rois ∧
    (m.setReg a v).ports = m.ports ∧ (m.setReg a v).coders = m.coders ∧ (m.setReg a v).ffc = m.ffc ∧ (m.setReg a v).ffcEcc = m.ffcEcc ∧
    (m.setReg a v).prep = m.prep ∧ (m.setReg a v).adapt = m.adapt ∧ (m.setReg a v).parked = m.parked ∧ (m.setReg a v).pos = m.pos ∧
    (m.setReg a v).fld = m.fld ∧ (m.setReg a v).lanes = m.lanes ∧ (m.setReg a v).links = m.links ∧ (m.setReg a v).ring = m.ring ∧
    (m.setReg a v).hif = m.hif ∧ (m.setReg a v).sec = m.sec ∧ (m.setReg a v).flash = m.flash ∧ (m.setReg a v).wv = m.wv ∧
    (m.setReg a v).pwr = m.pwr ∧ (m.setReg a v).flt = m.flt :=
  by repeat' constructor
@[simp] theorem setFld_fields (a hi lo x : Nat) :
    (m.setFld a hi lo x).freeCtr = m.freeCtr ∧ (m.setFld a hi lo x).justSet = m.justSet ∧ (m.setFld a hi lo x).variant = m.variant ∧
    (m.setFld a hi lo x).cyc = m.cyc ∧ (m.setFld a hi lo x).mem = m.mem ∧ (m.setFld a hi lo x).tiles = m.tiles ∧ (m.setFld a hi lo x).fx = m.fx ∧
    (m.setFld a hi lo x).flights = m.flights ∧ (m.setFld a hi lo x).inbox = m.inbox ∧ (m.setFld a hi lo x).chanQ = m.chanQ ∧
    (m.setFld a hi lo x).gldReplies = m.gldReplies ∧ (m.setFld a hi lo x).windows = m.windows ∧ (m.setFld a hi lo x).winUpds = m.winUpds ∧
    (m.setFld a hi lo x).latches = m.latches ∧ (m.setFld a hi lo x).waits = m.waits ∧ (m.setFld a hi lo x).signals = m.signals ∧
    (m.setFld a hi lo x).engines = m.engines ∧ (m.setFld a hi lo x).chanLast = m.chanLast ∧ (m.setFld a hi lo x).notLive = m.notLive ∧
    (m.setFld a hi lo x).revoked = m.revoked ∧ (m.setFld a hi lo x).revoking = m.revoking ∧ (m.setFld a hi lo x).stems = m.stems ∧
    (m.setFld a hi lo x).rois = m.rois ∧ (m.setFld a hi lo x).ports = m.ports ∧ (m.setFld a hi lo x).coders = m.coders ∧
    (m.setFld a hi lo x).ffc = m.ffc ∧ (m.setFld a hi lo x).ffcEcc = m.ffcEcc ∧ (m.setFld a hi lo x).prep = m.prep ∧
    (m.setFld a hi lo x).adapt = m.adapt ∧ (m.setFld a hi lo x).parked = m.parked ∧ (m.setFld a hi lo x).pos = m.pos ∧
    (m.setFld a hi lo x).fld = m.fld ∧ (m.setFld a hi lo x).lanes = m.lanes ∧ (m.setFld a hi lo x).links = m.links ∧
    (m.setFld a hi lo x).ring = m.ring ∧ (m.setFld a hi lo x).hif = m.hif ∧ (m.setFld a hi lo x).sec = m.sec ∧ (m.setFld a hi lo x).flash = m.flash ∧
    (m.setFld a hi lo x).wv = m.wv ∧ (m.setFld a hi lo x).pwr = m.pwr ∧ (m.setFld a hi lo x).flt = m.flt :=
  by repeat' constructor
@[simp] theorem putBit_fields (a i : Nat) (b : Bool) :
    (m.putBit a i b).freeCtr = m.freeCtr ∧ (m.putBit a i b).variant = m.variant ∧ (m.putBit a i b).cyc = m.cyc ∧ (m.putBit a i b).mem = m.mem ∧
    (m.putBit a i b).tiles = m.tiles ∧ (m.putBit a i b).fx = m.fx ∧ (m.putBit a i b).flights = m.flights ∧ (m.putBit a i b).inbox = m.inbox ∧
    (m.putBit a i b).chanQ = m.chanQ ∧ (m.putBit a i b).gldReplies = m.gldReplies ∧ (m.putBit a i b).windows = m.windows ∧
    (m.putBit a i b).winUpds = m.winUpds ∧ (m.putBit a i b).latches = m.latches ∧ (m.putBit a i b).waits = m.waits ∧
    (m.putBit a i b).signals = m.signals ∧ (m.putBit a i b).engines = m.engines ∧ (m.putBit a i b).chanLast = m.chanLast ∧
    (m.putBit a i b).notLive = m.notLive ∧ (m.putBit a i b).revoked = m.revoked ∧ (m.putBit a i b).revoking = m.revoking ∧
    (m.putBit a i b).stems = m.stems ∧ (m.putBit a i b).rois = m.rois ∧ (m.putBit a i b).ports = m.ports ∧ (m.putBit a i b).coders = m.coders ∧
    (m.putBit a i b).ffc = m.ffc ∧ (m.putBit a i b).ffcEcc = m.ffcEcc ∧ (m.putBit a i b).prep = m.prep ∧ (m.putBit a i b).adapt = m.adapt ∧
    (m.putBit a i b).parked = m.parked ∧ (m.putBit a i b).pos = m.pos ∧ (m.putBit a i b).fld = m.fld ∧ (m.putBit a i b).lanes = m.lanes ∧
    (m.putBit a i b).links = m.links ∧ (m.putBit a i b).ring = m.ring ∧ (m.putBit a i b).hif = m.hif ∧ (m.putBit a i b).sec = m.sec ∧
    (m.putBit a i b).flash = m.flash ∧ (m.putBit a i b).wv = m.wv ∧ (m.putBit a i b).pwr = m.pwr ∧ (m.putBit a i b).flt = m.flt :=
  by repeat' constructor
@[simp] theorem noteSet_fields (a i : Nat) :
    (m.noteSet a i).freeCtr = m.freeCtr ∧ (m.noteSet a i).variant = m.variant ∧ (m.noteSet a i).cyc = m.cyc ∧ (m.noteSet a i).regs = m.regs ∧
    (m.noteSet a i).mem = m.mem ∧ (m.noteSet a i).tiles = m.tiles ∧ (m.noteSet a i).fx = m.fx ∧ (m.noteSet a i).flights = m.flights ∧
    (m.noteSet a i).inbox = m.inbox ∧ (m.noteSet a i).chanQ = m.chanQ ∧ (m.noteSet a i).gldReplies = m.gldReplies ∧
    (m.noteSet a i).windows = m.windows ∧ (m.noteSet a i).winUpds = m.winUpds ∧ (m.noteSet a i).latches = m.latches ∧
    (m.noteSet a i).waits = m.waits ∧ (m.noteSet a i).signals = m.signals ∧ (m.noteSet a i).engines = m.engines ∧
    (m.noteSet a i).chanLast = m.chanLast ∧ (m.noteSet a i).notLive = m.notLive ∧ (m.noteSet a i).revoked = m.revoked ∧
    (m.noteSet a i).revoking = m.revoking ∧ (m.noteSet a i).stems = m.stems ∧ (m.noteSet a i).rois = m.rois ∧ (m.noteSet a i).ports = m.ports ∧
    (m.noteSet a i).coders = m.coders ∧ (m.noteSet a i).ffc = m.ffc ∧ (m.noteSet a i).ffcEcc = m.ffcEcc ∧ (m.noteSet a i).prep = m.prep ∧
    (m.noteSet a i).adapt = m.adapt ∧ (m.noteSet a i).parked = m.parked ∧ (m.noteSet a i).pos = m.pos ∧ (m.noteSet a i).fld = m.fld ∧
    (m.noteSet a i).lanes = m.lanes ∧ (m.noteSet a i).links = m.links ∧ (m.noteSet a i).ring = m.ring ∧ (m.noteSet a i).hif = m.hif ∧
    (m.noteSet a i).sec = m.sec ∧ (m.noteSet a i).flash = m.flash ∧ (m.noteSet a i).wv = m.wv ∧ (m.noteSet a i).pwr = m.pwr ∧
    (m.noteSet a i).flt = m.flt :=
  by repeat' constructor
@[simp] theorem inc_fields (a : Nat) :
    (m.inc a).freeCtr = m.freeCtr ∧ (m.inc a).justSet = m.justSet ∧ (m.inc a).variant = m.variant ∧ (m.inc a).cyc = m.cyc ∧ (m.inc a).mem = m.mem ∧
    (m.inc a).tiles = m.tiles ∧ (m.inc a).fx = m.fx ∧ (m.inc a).flights = m.flights ∧ (m.inc a).inbox = m.inbox ∧ (m.inc a).chanQ = m.chanQ ∧
    (m.inc a).gldReplies = m.gldReplies ∧ (m.inc a).windows = m.windows ∧ (m.inc a).winUpds = m.winUpds ∧ (m.inc a).latches = m.latches ∧
    (m.inc a).waits = m.waits ∧ (m.inc a).signals = m.signals ∧ (m.inc a).engines = m.engines ∧ (m.inc a).chanLast = m.chanLast ∧
    (m.inc a).notLive = m.notLive ∧ (m.inc a).revoked = m.revoked ∧ (m.inc a).revoking = m.revoking ∧ (m.inc a).stems = m.stems ∧
    (m.inc a).rois = m.rois ∧ (m.inc a).ports = m.ports ∧ (m.inc a).coders = m.coders ∧ (m.inc a).ffc = m.ffc ∧ (m.inc a).ffcEcc = m.ffcEcc ∧
    (m.inc a).prep = m.prep ∧ (m.inc a).adapt = m.adapt ∧ (m.inc a).parked = m.parked ∧ (m.inc a).pos = m.pos ∧ (m.inc a).fld = m.fld ∧
    (m.inc a).lanes = m.lanes ∧ (m.inc a).links = m.links ∧ (m.inc a).ring = m.ring ∧ (m.inc a).hif = m.hif ∧ (m.inc a).sec = m.sec ∧
    (m.inc a).flash = m.flash ∧ (m.inc a).wv = m.wv ∧ (m.inc a).pwr = m.pwr ∧ (m.inc a).flt = m.flt :=
  by repeat' constructor
@[simp] theorem incFld_fields (a hi lo : Nat) :
    (m.incFld a hi lo).freeCtr = m.freeCtr ∧ (m.incFld a hi lo).justSet = m.justSet ∧ (m.incFld a hi lo).variant = m.variant ∧
    (m.incFld a hi lo).cyc = m.cyc ∧ (m.incFld a hi lo).mem = m.mem ∧ (m.incFld a hi lo).tiles = m.tiles ∧ (m.incFld a hi lo).fx = m.fx ∧
    (m.incFld a hi lo).flights = m.flights ∧ (m.incFld a hi lo).inbox = m.inbox ∧ (m.incFld a hi lo).chanQ = m.chanQ ∧
    (m.incFld a hi lo).gldReplies = m.gldReplies ∧ (m.incFld a hi lo).windows = m.windows ∧ (m.incFld a hi lo).winUpds = m.winUpds ∧
    (m.incFld a hi lo).latches = m.latches ∧ (m.incFld a hi lo).waits = m.waits ∧ (m.incFld a hi lo).signals = m.signals ∧
    (m.incFld a hi lo).engines = m.engines ∧ (m.incFld a hi lo).chanLast = m.chanLast ∧ (m.incFld a hi lo).notLive = m.notLive ∧
    (m.incFld a hi lo).revoked = m.revoked ∧ (m.incFld a hi lo).revoking = m.revoking ∧ (m.incFld a hi lo).stems = m.stems ∧
    (m.incFld a hi lo).rois = m.rois ∧ (m.incFld a hi lo).ports = m.ports ∧ (m.incFld a hi lo).coders = m.coders ∧ (m.incFld a hi lo).ffc = m.ffc ∧
    (m.incFld a hi lo).ffcEcc = m.ffcEcc ∧ (m.incFld a hi lo).prep = m.prep ∧ (m.incFld a hi lo).adapt = m.adapt ∧
    (m.incFld a hi lo).parked = m.parked ∧ (m.incFld a hi lo).pos = m.pos ∧ (m.incFld a hi lo).fld = m.fld ∧ (m.incFld a hi lo).lanes = m.lanes ∧
    (m.incFld a hi lo).links = m.links ∧ (m.incFld a hi lo).ring = m.ring ∧ (m.incFld a hi lo).hif = m.hif ∧ (m.incFld a hi lo).sec = m.sec ∧
    (m.incFld a hi lo).flash = m.flash ∧ (m.incFld a hi lo).wv = m.wv ∧ (m.incFld a hi lo).pwr = m.pwr ∧ (m.incFld a hi lo).flt = m.flt :=
  by repeat' constructor
@[simp] theorem addReg_fields (a n : Nat) :
    (m.addReg a n).freeCtr = m.freeCtr ∧ (m.addReg a n).justSet = m.justSet ∧ (m.addReg a n).variant = m.variant ∧ (m.addReg a n).cyc = m.cyc ∧
    (m.addReg a n).mem = m.mem ∧ (m.addReg a n).tiles = m.tiles ∧ (m.addReg a n).fx = m.fx ∧ (m.addReg a n).flights = m.flights ∧
    (m.addReg a n).inbox = m.inbox ∧ (m.addReg a n).chanQ = m.chanQ ∧ (m.addReg a n).gldReplies = m.gldReplies ∧ (m.addReg a n).windows = m.windows ∧
    (m.addReg a n).winUpds = m.winUpds ∧ (m.addReg a n).latches = m.latches ∧ (m.addReg a n).waits = m.waits ∧ (m.addReg a n).signals = m.signals ∧
    (m.addReg a n).engines = m.engines ∧ (m.addReg a n).chanLast = m.chanLast ∧ (m.addReg a n).notLive = m.notLive ∧
    (m.addReg a n).revoked = m.revoked ∧ (m.addReg a n).revoking = m.revoking ∧ (m.addReg a n).stems = m.stems ∧ (m.addReg a n).rois = m.rois ∧
    (m.addReg a n).ports = m.ports ∧ (m.addReg a n).coders = m.coders ∧ (m.addReg a n).ffc = m.ffc ∧ (m.addReg a n).ffcEcc = m.ffcEcc ∧
    (m.addReg a n).prep = m.prep ∧ (m.addReg a n).adapt = m.adapt ∧ (m.addReg a n).parked = m.parked ∧ (m.addReg a n).pos = m.pos ∧
    (m.addReg a n).fld = m.fld ∧ (m.addReg a n).lanes = m.lanes ∧ (m.addReg a n).links = m.links ∧ (m.addReg a n).ring = m.ring ∧
    (m.addReg a n).hif = m.hif ∧ (m.addReg a n).sec = m.sec ∧ (m.addReg a n).flash = m.flash ∧ (m.addReg a n).wv = m.wv ∧
    (m.addReg a n).pwr = m.pwr ∧ (m.addReg a n).flt = m.flt :=
  by repeat' constructor
@[simp] theorem setReg64_fields (lo : Nat) (v : W64) :
    (m.setReg64 lo v).freeCtr = m.freeCtr ∧ (m.setReg64 lo v).justSet = m.justSet ∧ (m.setReg64 lo v).variant = m.variant ∧
    (m.setReg64 lo v).cyc = m.cyc ∧ (m.setReg64 lo v).mem = m.mem ∧ (m.setReg64 lo v).tiles = m.tiles ∧ (m.setReg64 lo v).fx = m.fx ∧
    (m.setReg64 lo v).flights = m.flights ∧ (m.setReg64 lo v).inbox = m.inbox ∧ (m.setReg64 lo v).chanQ = m.chanQ ∧
    (m.setReg64 lo v).gldReplies = m.gldReplies ∧ (m.setReg64 lo v).windows = m.windows ∧ (m.setReg64 lo v).winUpds = m.winUpds ∧
    (m.setReg64 lo v).latches = m.latches ∧ (m.setReg64 lo v).waits = m.waits ∧ (m.setReg64 lo v).signals = m.signals ∧
    (m.setReg64 lo v).engines = m.engines ∧ (m.setReg64 lo v).chanLast = m.chanLast ∧ (m.setReg64 lo v).notLive = m.notLive ∧
    (m.setReg64 lo v).revoked = m.revoked ∧ (m.setReg64 lo v).revoking = m.revoking ∧ (m.setReg64 lo v).stems = m.stems ∧
    (m.setReg64 lo v).rois = m.rois ∧ (m.setReg64 lo v).ports = m.ports ∧ (m.setReg64 lo v).coders = m.coders ∧ (m.setReg64 lo v).ffc = m.ffc ∧
    (m.setReg64 lo v).ffcEcc = m.ffcEcc ∧ (m.setReg64 lo v).prep = m.prep ∧ (m.setReg64 lo v).adapt = m.adapt ∧ (m.setReg64 lo v).parked = m.parked ∧
    (m.setReg64 lo v).pos = m.pos ∧ (m.setReg64 lo v).fld = m.fld ∧ (m.setReg64 lo v).lanes = m.lanes ∧ (m.setReg64 lo v).links = m.links ∧
    (m.setReg64 lo v).ring = m.ring ∧ (m.setReg64 lo v).hif = m.hif ∧ (m.setReg64 lo v).sec = m.sec ∧ (m.setReg64 lo v).flash = m.flash ∧
    (m.setReg64 lo v).wv = m.wv ∧ (m.setReg64 lo v).pwr = m.pwr ∧ (m.setReg64 lo v).flt = m.flt :=
  by repeat' constructor
@[simp] theorem pushAt_fields (t : TileIdx) (c p l : Nat) (e : Eff) :
    (m.pushAt t c p l e).freeCtr = m.freeCtr ∧ (m.pushAt t c p l e).justSet = m.justSet ∧ (m.pushAt t c p l e).variant = m.variant ∧
    (m.pushAt t c p l e).cyc = m.cyc ∧ (m.pushAt t c p l e).regs = m.regs ∧ (m.pushAt t c p l e).mem = m.mem ∧ (m.pushAt t c p l e).tiles = m.tiles ∧
    (m.pushAt t c p l e).flights = m.flights ∧ (m.pushAt t c p l e).inbox = m.inbox ∧ (m.pushAt t c p l e).chanQ = m.chanQ ∧
    (m.pushAt t c p l e).gldReplies = m.gldReplies ∧ (m.pushAt t c p l e).windows = m.windows ∧ (m.pushAt t c p l e).winUpds = m.winUpds ∧
    (m.pushAt t c p l e).latches = m.latches ∧ (m.pushAt t c p l e).waits = m.waits ∧ (m.pushAt t c p l e).signals = m.signals ∧
    (m.pushAt t c p l e).engines = m.engines ∧ (m.pushAt t c p l e).chanLast = m.chanLast ∧ (m.pushAt t c p l e).notLive = m.notLive ∧
    (m.pushAt t c p l e).revoked = m.revoked ∧ (m.pushAt t c p l e).revoking = m.revoking ∧ (m.pushAt t c p l e).stems = m.stems ∧
    (m.pushAt t c p l e).rois = m.rois ∧ (m.pushAt t c p l e).ports = m.ports ∧ (m.pushAt t c p l e).coders = m.coders ∧
    (m.pushAt t c p l e).ffc = m.ffc ∧ (m.pushAt t c p l e).ffcEcc = m.ffcEcc ∧ (m.pushAt t c p l e).prep = m.prep ∧
    (m.pushAt t c p l e).adapt = m.adapt ∧ (m.pushAt t c p l e).parked = m.parked ∧ (m.pushAt t c p l e).pos = m.pos ∧
    (m.pushAt t c p l e).fld = m.fld ∧ (m.pushAt t c p l e).lanes = m.lanes ∧ (m.pushAt t c p l e).links = m.links ∧
    (m.pushAt t c p l e).ring = m.ring ∧ (m.pushAt t c p l e).hif = m.hif ∧ (m.pushAt t c p l e).sec = m.sec ∧ (m.pushAt t c p l e).flash = m.flash ∧
    (m.pushAt t c p l e).wv = m.wv ∧ (m.pushAt t c p l e).pwr = m.pwr ∧ (m.pushAt t c p l e).flt = m.flt :=
  by repeat' constructor
@[simp] theorem push_fields (t : TileIdx) (p l : Nat) (e : Eff) :
    (m.push t p l e).freeCtr = m.freeCtr ∧ (m.push t p l e).justSet = m.justSet ∧ (m.push t p l e).variant = m.variant ∧
    (m.push t p l e).cyc = m.cyc ∧ (m.push t p l e).regs = m.regs ∧ (m.push t p l e).mem = m.mem ∧ (m.push t p l e).tiles = m.tiles ∧
    (m.push t p l e).flights = m.flights ∧ (m.push t p l e).inbox = m.inbox ∧ (m.push t p l e).chanQ = m.chanQ ∧
    (m.push t p l e).gldReplies = m.gldReplies ∧ (m.push t p l e).windows = m.windows ∧ (m.push t p l e).winUpds = m.winUpds ∧
    (m.push t p l e).latches = m.latches ∧ (m.push t p l e).waits = m.waits ∧ (m.push t p l e).signals = m.signals ∧
    (m.push t p l e).engines = m.engines ∧ (m.push t p l e).chanLast = m.chanLast ∧ (m.push t p l e).notLive = m.notLive ∧
    (m.push t p l e).revoked = m.revoked ∧ (m.push t p l e).revoking = m.revoking ∧ (m.push t p l e).stems = m.stems ∧
    (m.push t p l e).rois = m.rois ∧ (m.push t p l e).ports = m.ports ∧ (m.push t p l e).coders = m.coders ∧ (m.push t p l e).ffc = m.ffc ∧
    (m.push t p l e).ffcEcc = m.ffcEcc ∧ (m.push t p l e).prep = m.prep ∧ (m.push t p l e).adapt = m.adapt ∧ (m.push t p l e).parked = m.parked ∧
    (m.push t p l e).pos = m.pos ∧ (m.push t p l e).fld = m.fld ∧ (m.push t p l e).lanes = m.lanes ∧ (m.push t p l e).links = m.links ∧
    (m.push t p l e).ring = m.ring ∧ (m.push t p l e).hif = m.hif ∧ (m.push t p l e).sec = m.sec ∧ (m.push t p l e).flash = m.flash ∧
    (m.push t p l e).wv = m.wv ∧ (m.push t p l e).pwr = m.pwr ∧ (m.push t p l e).flt = m.flt :=
  by repeat' constructor

end Sys2Proof.Machine
end

