-- ==== Sys2Proof/Laws/Bundle.lean ====
section
/-! SUPPORT. What presenting an operation to a tile does: to a ready tile it issues at once and joins the bundle in hand; and what
recording a change does. -/
namespace Sys2Proof.Machine

variable {m : Mach} {t : TileIdx} {i : Instr}

/-! ### Tables read back -/

@[simp] theorem tile_setTile (t u : Nat) (x : Tile) : (m.setTile t x).tile u = if t = u then x else m.tile u := by
  simp [Mach.tile, Mach.setTile]

@[simp] theorem setTile_setTile_tiles (t : Nat) (x : Tile) : (m.setTile t x).tile t = x := by simp

theorem tile_of_tiles {a b : Mach} (h : a.tiles = b.tiles) (t : Nat) : a.tile t = b.tile t := by simp [Mach.tile, h]

/-! ### Recording changes -/

@[simp] theorem record_nil : m.record [] = m := by simp [Mach.record]

@[simp] theorem record_record (a b : List Fx) : (m.record a).record b = m.record (a ++ b) := by simp [Mach.record]

/-- Recording changes leaves these readings of the module as they were. -/
@[simp] theorem record_reads (l : List Fx) :
    (m.record l).tile = m.tile ∧ (m.record l).slot = m.slot ∧ (m.record l).tag = m.tag ∧ (m.record l).skew = m.skew
      ∧ (m.record l).mem = m.mem ∧ (m.record l).cyc = m.cyc ∧ (m.record l).change = m.change
      ∧ (m.record l).readNews = m.readNews ∧ (m.record l).incNews = m.incNews ∧ (m.record l).rowNews = m.rowNews
      ∧ (m.record l).slotErrors = m.slotErrors ∧ (m.record l).freeCtr = m.freeCtr ∧ (m.record l).win = m.win :=
  ⟨rfl, rfl, rfl, rfl, rfl, rfl, rfl, rfl, rfl, rfl, rfl, rfl, rfl⟩

@[simp] theorem push_record (u : TileIdx) (p l : Nat) (e : Eff) : m.push u p l e = m.record [m.change u p l e] := rfl

@[simp] theorem readClean_record (l : List Fx) (u : TileIdx) (k : BitVec 13) (tm : BitVec 2) :
    (m.record l).ReadClean u k tm ↔ m.ReadClean u k tm := Iff.rfl

/-- A pointer or tag change that nothing of this cycle opposes is recorded with its own priority. -/
theorem pushPtr_record {u : TileIdx} {p : Nat} {e : Eff} (hp : p < 8) (h : m.Unopposed u) :
    m.pushPtr u p e = m.record [m.change u p 1 e] := by
  unfold Mach.pushPtr
  rw [if_neg]
  · rfl
  · simp only [List.any_eq_true, not_exists, not_and, Bool.not_eq_true]
    intro g hg
    by_cases h1 : g.tile = u
    · by_cases h2 : g.issue = m.cyc
      · have h3 := h g hg h1 h2
        simp; omega
      · simp [h2]
    · simp [h1]

/-- Changes of the MAC, VEC and MOV slots oppose nothing. -/
theorem unopposed_record {u : TileIdx} {l : List Fx} (h : m.Unopposed u) (hl : ∀ g ∈ l, g.prio < 8) : (m.record l).Unopposed u := by
  intro g hg h1 h2
  rcases List.mem_append.mp hg with hg | hg
  · exact h g hg h1 h2
  · exact hl g hg

/-! ### Reading a slot and post-incrementing -/

theorem toNat_ne_one_two {tm : BitVec 2} (h : ¬(tm = 1 ∨ tm = 2)) : tm.toNat ≠ 1 ∧ tm.toNat ≠ 2 :=
  ⟨fun e => h (.inl (BitVec.eq_of_toNat_eq e)), fun e => h (.inr (BitVec.eq_of_toNat_eq e))⟩

/-- A clean read holds nothing. -/
theorem readUnmet_clean {u : TileIdx} {k : BitVec 13} {tm : BitVec 2} (h : m.ReadClean u k tm) : m.readUnmet u k tm.toNat = false := by
  by_cases h2 : tm = 1 ∨ tm = 2
  · simp [Mach.readUnmet, (h.1 h2).1]
  · simp [Mach.readUnmet, toNat_ne_one_two h2]

/-- A clean read records the tag change of TAKE and nothing else. -/
theorem readSlot_clean {u : TileIdx} {k : BitVec 13} {tm : BitVec 2} {p : Nat} (hp : p < 8) (hu : m.Unopposed u)
    (h : m.ReadClean u k tm) : m.readSlot u k tm.toNat p = m.record (m.readNews u k tm p) := by
  obtain ⟨h1, h5⟩ := h
  by_cases h2 : tm = 1 ∨ tm = 2
  · obtain ⟨h6, h7⟩ := h1 h2
    rcases h2 with rfl | rfl
    · simp [Mach.readSlot, h6, h7, h5, Mach.readNews]
    · simp [Mach.readSlot, h6, h7, h5, Mach.readNews, pushPtr_record hp hu]
  · have h3 := toNat_ne_one_two h2
    have h4 : tm ≠ 2#2 := fun e => h2 (.inr e)
    simp [Mach.readSlot, h3, h5, Mach.readNews, h4]

/-- A post-increment records the new index. -/
theorem incA_record {u : TileIdx} {p : Nat} (hp : p < 8) (hu : m.Unopposed u) (n : BitVec 4) (inc : Bool) :
    m.incA u p n inc = m.record (m.incNews u n inc p) := by
  cases inc <;> simp [Mach.incA, Mach.incNews, pushPtr_record hp hu]

theorem readNews_prio {u : TileIdx} {k : BitVec 13} {tm : BitVec 2} {p : Nat} : ∀ g ∈ m.readNews u k tm p, g.prio = p := by
  intro g hg
  unfold Mach.readNews at hg
  split at hg <;> simp at hg
  subst hg
  rfl

theorem incNews_prio {u : TileIdx} {n : BitVec 4} {inc : Bool} {p : Nat} : ∀ g ∈ m.incNews u n inc p, g.prio = p := by
  intro g hg
  unfold Mach.incNews at hg
  split at hg <;> simp at hg
  subst hg
  rfl

/-- A clean read with its post-increment, after changes l that oppose nothing. -/
theorem readInc_clean {u : TileIdx} {k : BitVec 13} {tm : BitVec 2} {p : Nat} (hp : p < 8) (hu : m.Unopposed u)
    (h : m.ReadClean u k tm) (n : BitVec 4) (inc : Bool) :
    (m.readSlot u k tm.toNat p).incA u p n inc = m.record (m.readNews u k tm p ++ m.incNews u n inc p) := by
  rw [readSlot_clean hp hu h, incA_record hp (unopposed_record hu fun g hg => (readNews_prio g hg).symm ▸ hp)]
  simp

/-- What a clean read and its post-increment record opposes nothing. -/
theorem unopposed_readInc {u : TileIdx} {k : BitVec 13} {tm : BitVec 2} {p : Nat} (hp : p < 8) (hu : m.Unopposed u)
    (n : BitVec 4) (inc : Bool) : (m.record (m.readNews u k tm p ++ m.incNews u n inc p)).Unopposed u :=
  unopposed_record hu fun g hg => by
    rcases List.mem_append.mp hg with hg | hg
    · exact (readNews_prio g hg).symm ▸ hp
    · exact (incNews_prio g hg).symm ▸ hp

/-- The MOV read of a slot records its changes, or its bank hold and the read a cycle later. -/
theorem movRead_record {u : TileIdx} {k : BitVec 13} {r : MovRead} {now : List Fx}
    (h : m.moved u m.cyc (m.slot u k.toNat) r = m.record now) : m.movRead u k r = m.record (m.movNews u k r now) := by
  unfold Mach.movRead Mach.movNews
  split
  · simp [Mach.change]
  · exact h

/-! ### Presenting -/

/-- A tile that is ready for a slot stands where the operation can join. -/
theorem room_ready {sl : SlotName} (h : m.Ready t sl) : m.room t sl = m := by
  obtain ⟨_, h2, h3, h4, _, h6, _⟩ := h
  have h8 : m.advanceTo (m.tile t).startCycle = m := by
    simp [Mach.advanceTo, Nat.sub_eq_zero_of_le h2, Mach.ticks]
  have h9 : m.settle t 16 = m := by simp [Mach.settle, h4]
  unfold Mach.room
  simp only [h8, if_neg (Nat.not_lt.mpr h3), h9, if_neg h6]

/-- An operation that meets no unmet condition issues and joins the bundle. -/
theorem offer_ready {sl : SlotName} (h : m.Ready t sl) (hl : ∀ u n k, i ≠ .syncLwait u n k) (hu : (m.opUnmet t i).any = false) :
    m.offer t i = (m.issueOp t i).setTile t
      { (m.issueOp t i).tile t with bundle := ((m.issueOp t i).tile t).bundle ++ [i] } := by
  obtain ⟨_, _, _, _, h5, _, h7⟩ := h
  have hb : (m.bankUnmet t).or (m.opUnmet t i) = m.opUnmet t i := by
    simp [Mach.bankUnmet, Unmet.or, Unmet.none, beq_eq_false_iff_ne.mpr h7]
  unfold Mach.offer
  split
  · exact absurd rfl (hl _ _ _)
  · simp only [h5, Option.isSome_none, Bool.false_eq_true, if_false, hb, hu]

/-- What presenting an operation of the MAC, VEC, MOV or SYNC slot does to a ready tile: it issues at once and joins the bundle. -/
theorem present_ready {sl : SlotName} (h : m.Ready t sl) (hs : slotOf i = sl) (hw : wellFormed i = true) (hc : sl ≠ .ctl)
    (hl : ∀ u n k, i ≠ .syncLwait u n k) (hu : (m.opUnmet t i).any = false) :
    m.present t i = (m.issueOp t i).setTile t
      { (m.issueOp t i).tile t with bundle := ((m.issueOp t i).tile t).bundle ++ [i] } := by
  have h1 := h.1
  have h4 := h.2.2.2.1
  unfold Mach.present
  simp only [hw, h1, Bool.not_true, Bool.or_self, Bool.false_eq_true, if_false, hs, room_ready h, h4, if_neg hc]
  exact offer_ready h hl hu

/-- An operation that meets an unmet condition is taken up, and holds its bundle. -/
theorem present_holds {sl : SlotName} (h : m.Ready t sl) (hs : slotOf i = sl) (hw : wellFormed i = true) (hc : sl ≠ .ctl)
    (hl : ∀ u n k, i ≠ .syncLwait u n k) (hu : (m.opUnmet t i).any = true) : m.present t i = m.holding t i (m.opUnmet t i).kind := by
  have hb : (m.bankUnmet t).or (m.opUnmet t i) = m.opUnmet t i := by
    simp [Mach.bankUnmet, Unmet.or, Unmet.none, beq_eq_false_iff_ne.mpr h.2.2.2.2.2.2]
  have h1 := h.1
  have h4 := h.2.2.2.1
  have h5 := h.2.2.2.2.1
  unfold Mach.present
  simp only [hw, h1, Bool.not_true, Bool.or_self, Bool.false_eq_true, if_false, hs, room_ready h, h4, if_neg hc]
  unfold Mach.offer
  split
  · exact absurd rfl (hl _ _ _)
  · simp only [h5, Option.isSome_none, Bool.false_eq_true, if_false, hb, hu, if_true]
    rfl

/-- What presenting an operation of the CTL slot does to a ready tile: it issues and ends the bundle. -/
theorem present_ctl (h : m.Ready t .ctl) (hs : slotOf i = .ctl) (hw : wellFormed i = true)
    (hl : ∀ u n k, i ≠ .syncLwait u n k) (hu : (m.opUnmet t i).any = false)
    (hh : ((m.issueOp t i).tile t).held = none) :
    m.present t i = ((m.issueOp t i).setTile t
      { (m.issueOp t i).tile t with bundle := ((m.issueOp t i).tile t).bundle ++ [i] }).finish t := by
  have h1 := h.1
  have h4 := h.2.2.2.1
  unfold Mach.present
  simp only [hw, h1, Bool.not_true, Bool.or_self, Bool.false_eq_true, if_false, hs, room_ready h, h4, if_true]
  rw [offer_ready h hl hu, Mach.endBundle]
  simp [hh]

/-- The module that an operation leaves when all it does is to record changes. -/
theorem joined_eq (news : List Fx) (h : m.issueOp t i = m.record news) :
    (m.issueOp t i).setTile t { (m.issueOp t i).tile t with bundle := ((m.issueOp t i).tile t).bundle ++ [i] }
      = m.joined t i news := by
  rw [h]
  rfl

/-- A ready tile that is presented an operation which only records changes. -/
theorem present_records {sl : SlotName} (h : m.Ready t sl) (hs : slotOf i = sl) (hw : wellFormed i = true) (hc : sl ≠ .ctl)
    (hl : ∀ u n k, i ≠ .syncLwait u n k) (hu : (m.opUnmet t i).any = false) (news : List Fx)
    (hi : m.issueOp t i = m.record news) : m.present t i = m.joined t i news := by
  rw [present_ready h hs hw hc hl hu, joined_eq news hi]

end Sys2Proof.Machine
end

