-- ==== Sys2Proof/Laws/Memory.lean ====
section
/-! SUPPORT. Every named operation over the memories and the registers keeps their canonical form, and what a slot, a granule, a tag and
a skew read as after each of them. -/
namespace Sys2Proof.Machine

variable {m n : Mach}

/-! ### The canonical form -/

/-- Only the memories and the registers matter to the form. -/
theorem Canon.of_eq (h : m.Canon) (hm : n.mem = m.mem) (hr : n.regs = m.regs) : n.Canon := by
  unfold Mach.Canon at *
  rw [hm, hr]
  exact h

theorem Canon.ite {p : Prop} [Decidable p] {a b : Mach} (ha : a.Canon) (hb : b.Canon) : (if p then a else b).Canon := by
  split <;> assumption

/-- A fold keeps the form when each of its steps does. -/
theorem Canon.foldl {α : Type} (l : List α) (f : Mach → α → Mach) (hf : ∀ m x, m.Canon → (f m x).Canon) (h : m.Canon) : (l.foldl f m).Canon := by
  induction l generalizing m with
  | nil => exact h
  | cons x l ih => exact ih (hf m x h)

theorem canon_setReg (a : Nat) (v : W32) (h : m.Canon) : (m.setReg a v).Canon := ⟨h.1, FMap.wf_put h.2⟩
theorem canon_setReg64 (a : Nat) (v : W64) (h : m.Canon) : (m.setReg64 a v).Canon := canon_setReg _ _ (canon_setReg _ _ h)
theorem canon_setFld (a hi lo x : Nat) (h : m.Canon) : (m.setFld a hi lo x).Canon := canon_setReg _ _ h
theorem canon_putBit (a i : Nat) (b : Bool) (h : m.Canon) : (m.putBit a i b).Canon := canon_setReg _ _ h
theorem canon_inc (a : Nat) (h : m.Canon) : (m.inc a).Canon := canon_setReg _ _ h
theorem canon_incFld (a hi lo : Nat) (h : m.Canon) : (m.incFld a hi lo).Canon := canon_setReg _ _ h

theorem canon_setSlot (t k : Nat) (v : Slot) (h : m.Canon) : (m.setSlot t k v).Canon := by
  obtain ⟨⟨h1, h2, h3, h4, h5, h6, h7, h8, h9, h10, h11⟩, hr⟩ := h
  unfold Mach.setSlot
  dsimp only [Mach.Canon, Mem.Wf]
  exact ⟨⟨wf_writeBytes _ _ h1, h2, h3, h4, h5, h6, FMap.wf_clear h7, h8, h9, h10, FMap.wf_put h11⟩, hr⟩

theorem canon_setGran (st g : Nat) (v : Slot) (h : m.Canon) : (m.setGran st g v).Canon := by
  obtain ⟨⟨h1, h2, h3, h4, h5, h6, h7, h8, h9, h10, h11⟩, hr⟩ := h
  unfold Mach.setGran
  dsimp only [Mach.Canon, Mem.Wf]
  exact ⟨⟨h1, wf_writeBytes _ _ h2, h3, h4, h5, h6, h7, FMap.wf_clear h8, h9, h10, h11⟩, hr⟩

theorem canon_setDdrBytes (a : Nat) (bs : List Byte) (h : m.Canon) : (m.setDdrBytes a bs).Canon := by
  obtain ⟨⟨h1, h2, h3, h4, h5, h6, h7, h8, h9, h10, h11⟩, hr⟩ := h
  unfold Mach.setDdrBytes
  dsimp only [Mach.Canon, Mem.Wf]
  exact ⟨⟨h1, h2, wf_writeBytes _ _ h3, h4, h5, h6, h7, h8, FMap.wf_clear h9, h10, h11⟩, hr⟩

theorem canon_setHostBytes (off : Nat) (bs : List Byte) (h : m.Canon) : (m.setHostBytes off bs).Canon := canon_setDdrBytes _ _ h

theorem canon_setTag (t k : Nat) (b : Bool) (h : m.Canon) : (m.setTag t k b).Canon := by
  obtain ⟨⟨h1, h2, h3, h4, h5, h6, h7, h8, h9, h10, h11⟩, hr⟩ := h
  unfold Mach.setTag
  dsimp only [Mach.Canon, Mem.Wf]
  exact ⟨⟨h1, h2, h3, FMap.wf_put h4, h5, h6, h7, h8, h9, h10, h11⟩, hr⟩

theorem canon_setSkew (t k : Nat) (x : Int) (h : m.Canon) : (m.setSkew t k x).Canon := by
  obtain ⟨⟨h1, h2, h3, h4, h5, h6, h7, h8, h9, h10, h11⟩, hr⟩ := h
  unfold Mach.setSkew
  dsimp only [Mach.Canon, Mem.Wf]
  exact ⟨⟨h1, h2, h3, h4, FMap.wf_put h5, h6, h7, h8, h9, h10, h11⟩, hr⟩

theorem canon_dropDdr (a k : Nat) (h : m.Canon) : (m.dropDdr a k).Canon := by
  obtain ⟨⟨h1, h2, h3, h4, h5, h6, h7, h8, h9, h10, h11⟩, hr⟩ := h
  unfold Mach.dropDdr
  dsimp only [Mach.Canon, Mem.Wf]
  exact ⟨⟨h1, h2, FMap.wf_clear h3, h4, h5, h6, h7, h8, FMap.wf_clear h9, h10, h11⟩, hr⟩

theorem canon_zeroDdr (a k : Nat) (h : m.Canon) : (m.zeroDdr a k).Canon := (canon_dropDdr a k (show (m.draw).2.Canon from h) : _)
theorem canon_rekey (a k : Nat) (key : BitVec 512) (h : m.Canon) : (m.rekey a k key).Canon := canon_dropDdr a k h

/-- The zero-fill of a window (R131). -/
theorem canon_revokeWindow (t w : Nat) (h : m.Canon) : (m.revokeWindow t w).Canon := by
  unfold Mach.revokeWindow zeroCells
  extract_lets x _ n
  have hn : n.Canon := h
  clear_value n
  obtain ⟨⟨h1, h2, h3, h4, h5, h6, h7, h8, h9, h10, h11⟩, hr⟩ := hn
  split <;> dsimp only [Mach.Canon, Mem.Wf]
  · exact ⟨⟨h1, FMap.wf_clear h2, h3, h4, h5, h6, h7, FMap.wf_clear h8, h9, h10, h11⟩, hr⟩
  · exact ⟨⟨FMap.wf_clear h1, h2, h3, FMap.wf_clear h4, FMap.wf_clear h5, h6, FMap.wf_clear h7, h8, h9, h10, FMap.wf_clear h11⟩, hr⟩

theorem canon_clearTile (t : Nat) (h : m.Canon) : (m.clearTile t).Canon := by
  obtain ⟨⟨h1, h2, h3, h4, h5, h6, h7, h8, h9, h10, h11⟩, hr⟩ := h
  unfold Mach.clearTile
  dsimp only [Mach.Canon, Mem.Wf]
  exact ⟨⟨FMap.wf_clear h1, h2, h3, FMap.wf_clear h4, FMap.wf_clear h5, FMap.wf_clear h6, FMap.wf_clear h7, h8, h9, FMap.wf_clear h10,
    FMap.wf_clear h11⟩, hr⟩

theorem canon_loadStack (st g : Nat) (bs : List Byte) (h : m.Canon) : (m.loadStack st g bs).Canon := by
  obtain ⟨⟨h1, h2, h3, h4, h5, h6, h7, h8, h9, h10, h11⟩, hr⟩ := h
  unfold Mach.loadStack Mach.setStack
  dsimp only [Mach.Canon, Mem.Wf]
  exact ⟨⟨h1, wf_writeBytes _ _ h2, h3, h4, h5, h6, h7, FMap.wf_clear h8, h9, h10, h11⟩, hr⟩

/-- The scrub leaves every memory that it names empty (R418). -/
theorem canon_scrub (h : m.Canon) : m.scrub.Canon := by
  obtain ⟨⟨-, -, h3, -, -, -, -, -, h9, -, -⟩, hr⟩ := h
  exact ⟨⟨FMap.wf_nil, FMap.wf_nil, h3, FMap.wf_nil, FMap.wf_nil, FMap.wf_nil, FMap.wf_nil, FMap.wf_nil, h9, FMap.wf_nil, FMap.wf_nil⟩, hr⟩

/-- A staging write stores in the form (R377). -/
theorem wf_stgWrite (reach : Nat → Bool) (bs : List Byte) (d : List Host.Cell) (a : Nat) (h : FMap.Wf emptyByte d) :
    FMap.Wf emptyByte (stgWrite reach d a bs) := by
  induction bs generalizing d a with
  | nil => exact h
  | cons b bs ih =>
    refine ih _ _ ?_
    split
    · exact FMap.wf_put h
    · exact h

/-! ### Reading after a write -/

theorem readBytes_congr (c c' : List Host.Cell) (a k : Nat) (h : ∀ j, a ≤ j → j < a + k → readByte c' j = readByte c j) :
    readBytes c' a k = readBytes c a k := by
  induction k generalizing a with
  | zero => rfl
  | succ k ih =>
    rw [readBytes, readBytes, h a (Nat.le_refl a) (by omega), ih (a + 1) fun j h1 h2 => h j (by omega) (by omega)]

theorem readBytes_writeBytes (c : List Host.Cell) (bs : List Byte) (a : Nat) : readBytes (writeBytes c a bs) a bs.length = bs := by
  induction bs generalizing c a with
  | nil => rfl
  | cons b bs ih =>
    rw [List.length_cons, readBytes, writeBytes, ih, readByte_writeBytes]
    simp [readByte, show ¬(a + 1 ≤ a) by omega]

theorem slotBytes_length (v : Slot) : (slotBytes v).length = 64 := leBytes_length 64 _

/-- A slot reads back what was written to it. -/
@[simp] theorem slot_setSlot_same (t k : Nat) (v : Slot) : (m.setSlot t k v).slot t k = v := by
  unfold Mach.slot Mach.setSlot
  simp only
  rw [← slotBytes_length v, readBytes_writeBytes, bytesSlot_slotBytes]

/-- Another slot of a tile, or of another tile, keeps its contents. -/
theorem slot_setSlot_other (t k t' k' : Nat) (v : Slot) (h : t * 8192 + k ≠ t' * 8192 + k') : (m.setSlot t k v).slot t' k' = m.slot t' k' := by
  unfold Mach.slot Mach.setSlot
  simp only
  congr 1
  refine readBytes_congr _ _ _ _ fun j h1 h2 => ?_
  rw [readByte_writeBytes, slotBytes_length, if_neg]
  unfold spadAddr at *
  omega

@[simp] theorem gran_setGran_same (st g : Nat) (v : Slot) : (m.setGran st g v).gran st g = v := by
  unfold Mach.gran Mach.setGran
  simp only
  rw [← slotBytes_length v, readBytes_writeBytes, bytesSlot_slotBytes]

theorem gran_setGran_other (st g st' g' : Nat) (v : Slot) (h : st * 2 ^ 22 + g ≠ st' * 2 ^ 22 + g') :
    (m.setGran st g v).gran st' g' = m.gran st' g' := by
  unfold Mach.gran Mach.setGran
  simp only
  congr 1
  refine readBytes_congr _ _ _ _ fun j h1 h2 => ?_
  rw [readByte_writeBytes, slotBytes_length, if_neg]
  unfold granAddr at *
  omega

theorem tag_setTag (t k t' k' : Nat) (b : Bool) :
    (m.setTag t k b).tag t' k' = if t * 8192 + k = t' * 8192 + k' then b else m.tag t' k' := by simp [Mach.tag, Mach.setTag]

theorem skew_setSkew (t k t' k' : Nat) (x : Int) :
    (m.setSkew t k x).skew t' k' = if t * 8192 + k = t' * 8192 + k' then x else m.skew t' k' := by simp [Mach.skew, Mach.setSkew]

/-- A byte of DDR4 reads back as it was written, under the key of its place (R405). -/
theorem ddrByte_setDdrBytes (a j : Nat) (bs : List Byte) :
    (m.setDdrBytes a bs).ddrByte j = if a ≤ j ∧ j < a + bs.length then bs.getD (j - a) 0 else m.ddrByte j := by
  have hs : (m.setDdrBytes a bs).stale = m.stale := rfl
  have hl : (m.masked a bs).length = bs.length := by simp [Mach.masked]
  rw [Mach.ddrByte, hs]
  show readByte (writeBytes m.mem.ddr a (m.masked a bs)) j ^^^ _ = _
  rw [readByte_writeBytes, hl]
  split
  · rename_i h
    have hk : j - a < (m.masked a bs).length := by omega
    have hk' : j - a < bs.length := by omega
    have : (m.masked a bs).getD (j - a) 0 = bs.getD (j - a) 0 ^^^ m.stale j := by
      simp only [List.getD, List.getElem?_eq_getElem hk, List.getElem?_eq_getElem hk', Option.getD_some]
      simp [Mach.masked, show a + (j - a) = j by omega]
    rw [this, BitVec.xor_assoc, BitVec.xor_self, BitVec.xor_zero]
  · rfl

end Sys2Proof.Machine
end

