-- ==== Sys2Proof/Laws/Crypto.lean ====
section
/-! SUPPORT. What is sealed opens: AES-256-GCM under one key and IV gives the plain text back (R399), and so does a ring frame under its
session (R353, R414). -/
namespace Sys2Proof.Machine

theorem leBytes_leNat (b : List Byte) : leBytes b.length (leNat b) = b := by
  induction b with
  | nil => rfl
  | cons a b ih =>
    have h1 : BitVec.ofNat 8 (a.toNat + 256 * leNat b) = a := by apply BitVec.eq_of_toNat_eq; simp; omega
    have h2 : (a.toNat + 256 * leNat b) / 256 = leNat b := by have := a.isLt; omega
    simp [leNat, leBytes, h1, h2, ih]

theorem leNat_lt (b : List Byte) : leNat b < 256 ^ b.length := by
  induction b with
  | nil => simp [leNat]
  | cons a b ih => have := a.isLt; simp only [leNat, List.length_cons, Nat.pow_succ]; omega

/-- 64 bytes make a slot whose bytes they are. -/
theorem slotBytes_bytesSlot (b : List Byte) (h : b.length = 64) : slotBytes (bytesSlot b) = b := by
  have h2 : leNat b < 2 ^ 512 := by
    have := leNat_lt b
    rwa [h, show (256 : Nat) ^ 64 = 2 ^ 512 from (Nat.pow_mul 2 8 64).symm] at this
  rw [slotBytes, bytesSlot, List.take_of_length_le (by omega), BitVec.toNat_ofNat, Nat.mod_eq_of_lt h2, ← h, leBytes_leNat]

theorem getD_elem {α : Type} (l : List α) (d : α) (k : Nat) (h : k < l.length) : l.getD k d = l[k] := by
  simp [List.getD, List.getElem?_eq_getElem h]

theorem xorBytes_length (a b : List Byte) : (xorBytes a b).length = min a.length b.length := by simp [xorBytes]

theorem xorBytes_getD (a b : List Byte) (k : Nat) (ha : k < a.length) (hb : k < b.length) :
    (xorBytes a b).getD k 0 = a.getD k 0 ^^^ b.getD k 0 := by
  have h : k < (xorBytes a b).length := by rw [xorBytes_length]; omega
  rw [getD_elem _ _ _ h, getD_elem _ _ _ ha, getD_elem _ _ _ hb]
  simp [xorBytes]

theorem padTo_length (n : Nat) (b : List Byte) : (padTo n b).length = n := by simp [padTo, zeros]; omega

/-- Key words stay four bytes long, and there are as many as asked for. -/
theorem aesGrow_words (n : Nat) : ∀ (i : Nat) (r : Byte) (w : List (List Byte)), 8 ≤ w.length → (∀ x ∈ w, x.length = 4) →
    (aesGrow n i r w).length = n + w.length ∧ ∀ x ∈ aesGrow n i r w, x.length = 4 := by
  induction n with
  | zero => intro i r w _ h; exact ⟨by simp [aesGrow], h⟩
  | succ n ih =>
    intro i r w hw h
    have hd : ∀ k, k < 8 → (w.getD k []).length = 4 := fun k hk => by
      rw [getD_elem _ _ _ (by omega)]; exact h _ (List.getElem_mem _)
    have h0 : (w.headD []).length = 4 := by
      cases w with
      | nil => simp at hw
      | cons a l => exact h a (by simp)
    have hn : ∀ u : List Byte, u.length = 4 → (∀ x ∈ xorBytes (w.getD 7 []) u :: w, x.length = 4) := by
      intro u hu x hx
      rcases List.mem_cons.1 hx with rfl | hx
      · rw [xorBytes_length, hd 7 (by omega), hu]; rfl
      · exact h x hx
    unfold aesGrow
    obtain ⟨a, b⟩ := ih (i + 1) (if i % 8 = 0 then BitVec.ofNat 8 (gfDouble r.toNat) else r) _ (by simp; omega) (hn
      (if i % 8 = 0 then xorBytes ((((w.headD []).drop 1) ++ (w.headD []).take 1).map subst) [r, 0, 0, 0]
       else if i % 8 = 4 then (w.headD []).map subst else w.headD []) (by
        split
        · rw [xorBytes_length, List.length_map, List.length_append, List.length_drop, List.length_take, h0]; rfl
        · split
          · rw [List.length_map, h0]
          · exact h0))
    exact ⟨by rw [a]; simp; omega, b⟩

theorem flatten_length (l : List (List Byte)) (n : Nat) (h : ∀ x ∈ l, x.length = n) : l.flatten.length = n * l.length := by
  induction l with
  | nil => simp
  | cons a l ih => simp [h a (by simp), ih fun x hx => h x (by simp [hx]), Nat.mul_add]; omega

/-- The last round key has 16 bytes. -/
theorem aesKeys_last (key : List Byte) (h : key.length = 32) : ((aesKeys key).getLastD []).length = 16 := by
  obtain ⟨hl, hw⟩ := aesGrow_words 52 8 1 (((List.range 8).map fun i => slice key (4 * i) 4).reverse) (by simp) (by
    intro x hx
    simp only [List.mem_reverse, List.mem_map, List.mem_range] at hx
    obtain ⟨i, hi, rfl⟩ := hx
    simp [slice, h]; omega)
  simp only [List.length_reverse, List.length_map, List.length_range] at hl
  have e : (aesKeys key).getLastD [] = (((aesGrow 52 8 1 (((List.range 8).map fun i => slice key (4 * i) 4).reverse)).reverse.drop (4 * 14)).take 4).flatten := by
    simp [aesKeys, List.range_succ]
  rw [e, flatten_length _ 4]
  · rw [List.length_take, List.length_drop, List.length_reverse, hl]
    rfl
  · intro x hx
    exact hw x (List.mem_reverse.1 (List.mem_of_mem_drop (List.mem_of_mem_take hx)))

/-- A block encrypted under a key of the model is a block. -/
theorem aesEnc_length (key : BitVec 256) (b : List Byte) : (aesEnc (aesOf key) b).length = 16 := by
  rw [aesEnc, xorBytes_length, aesOf, aesKeys_last _ (by simp [bytes32, leBytes_length])]
  simp [shiftRows]

theorem flatten_getD (l : List (List Byte)) (h : ∀ x ∈ l, x.length = 16) (k : Nat) :
    l.flatten.getD k 0 = (l.getD (k / 16) []).getD (k % 16) 0 := by
  induction l generalizing k with
  | nil => simp
  | cons a l ih =>
    have ha := h a (by simp)
    by_cases hk : k < 16
    · simp [List.getD, List.getElem?_append_left (by omega : k < a.length), Nat.div_eq_of_lt hk, Nat.mod_eq_of_lt hk]
    · have h1 : k / 16 = (k - 16) / 16 + 1 := by omega
      have h2 : k % 16 = (k - 16) % 16 := by omega
      have := ih (fun x hx => h x (by simp [hx])) (k - 16)
      rw [List.flatten_cons, List.getD, List.getElem?_append_right (by omega), ha, ← List.getD, this, h1, h2]
      rfl

theorem blocks16_length (b : List Byte) : (blocks16 b).length = (b.length + 15) / 16 := by simp [blocks16]

/-- Counter mode keeps the length and adds to each byte one that the plain text does not choose. -/
theorem gctr_spec (key : BitVec 256) (iv b : List Byte) : (gctr (aesOf key) iv b).length = b.length ∧ ∀ k < b.length,
    (gctr (aesOf key) iv b).getD k 0 = b.getD k 0 ^^^ (aesEnc (aesOf key) (iv ++ beBytes 4 (k / 16 + 2))).getD (k % 16) 0 := by
  have hb : ∀ x ∈ (blocks16 b).mapIdx fun i c => xorBytes c (aesEnc (aesOf key) (iv ++ beBytes 4 (i + 2))), x.length = 16 := by
    intro x hx
    obtain ⟨i, hi, rfl⟩ := List.mem_mapIdx.1 hx
    rw [xorBytes_length, aesEnc_length]
    simp [blocks16, padTo_length]
  have hl : ((blocks16 b).mapIdx fun i c => xorBytes c (aesEnc (aesOf key) (iv ++ beBytes 4 (i + 2)))).flatten.length = 16 * ((b.length + 15) / 16) := by
    rw [flatten_length _ 16 hb, List.length_mapIdx, blocks16_length]
  have hlen : (gctr (aesOf key) iv b).length = b.length := by rw [gctr, List.length_take, hl]; omega
  refine ⟨hlen, fun k hk => ?_⟩
  have hq : k / 16 < (b.length + 15) / 16 := by omega
  have ht : (gctr (aesOf key) iv b).getD k 0
      = ((blocks16 b).mapIdx fun i c => xorBytes c (aesEnc (aesOf key) (iv ++ beBytes 4 (i + 2)))).flatten.getD k 0 := by
    simp [gctr, List.getD, hk]
  rw [ht, flatten_getD _ hb, getD_elem _ [] _ (by rw [List.length_mapIdx, blocks16_length]; exact hq), List.getElem_mapIdx]
  have hp : (blocks16 b)[k / 16]'(by rw [blocks16_length]; exact hq) = padTo 16 (slice b (16 * (k / 16)) 16) := by simp [blocks16]
  rw [hp, xorBytes_getD _ _ _ (by rw [padTo_length]; omega) (by rw [aesEnc_length]; omega)]
  congr 1
  have hs : k % 16 < (slice b (16 * (k / 16)) 16).length := by simp [slice]; omega
  rw [padTo, List.getD, List.getElem?_take, if_pos (by omega), List.getElem?_append_left hs]
  simp only [slice, List.getElem?_take, List.getElem?_drop]
  rw [if_pos (by omega), show 16 * (k / 16) + k % 16 = k by omega]
  rfl

theorem gctr_gctr (key : BitVec 256) (iv b : List Byte) : gctr (aesOf key) iv (gctr (aesOf key) iv b) = b := by
  obtain ⟨h1, h2⟩ := gctr_spec key iv b
  obtain ⟨h3, h4⟩ := gctr_spec key iv (gctr (aesOf key) iv b)
  apply List.ext_getElem (by omega)
  intro k hk hk'
  have := h4 k (by omega)
  rw [h2 k hk', BitVec.xor_assoc, BitVec.xor_self, BitVec.xor_zero] at this
  rwa [getD_elem _ _ _ hk, getD_elem _ _ _ hk'] at this

/-- What GCM seals opens under the same key, IV and additional data (R399). -/
theorem gcmOpen_gcmSeal (key : BitVec 256) (iv aad plain : List Byte) :
    gcmOpen key iv aad (gcmSeal key iv aad plain).1 (gcmSeal key iv aad plain).2 = some plain := by
  simp only [gcmOpen, gcmSeal, if_pos, gctr_gctr]

theorem gcmSeal_length (key : BitVec 256) (iv aad plain : List Byte) :
    (gcmSeal key iv aad plain).1.length = plain.length ∧ (gcmSeal key iv aad plain).2.length = 16 := by
  constructor
  · exact (gctr_spec key _ plain).1
  · simp [gcmSeal, gcmTag, xorBytes_length, aesEnc_length, beBytes, leBytes_length]

/-- The slots that a string of whole slots fills. -/
theorem slots_of_bytes (n : Nat) : ∀ b : List Byte, b.length = 64 * n →
    ((List.range n).map fun i => bytesSlot (slice b (64 * i) 64)).flatMap slotBytes = b := by
  intro b hb
  have h : ∀ k ≤ n, ((List.range k).map fun i => bytesSlot (slice b (64 * i) 64)).flatMap slotBytes = b.take (64 * k) := by
    intro k hk
    induction k with
    | zero => simp
    | succ k ih =>
      rw [List.range_succ, List.map_append, List.flatMap_append, ih (by omega)]
      have hs : (slice b (64 * k) 64).length = 64 := by simp [slice]; omega
      simp only [List.map_cons, List.map_nil, List.flatMap_cons, List.flatMap_nil, List.append_nil, slotBytes_bytesSlot _ hs]
      rw [Nat.mul_succ, List.take_add, slice]
  rw [h n (Nat.le_refl n), List.take_of_length_le (by omega)]

theorem slots_bytes (l : List Slot) : ((List.range l.length).map fun i => bytesSlot (slice (l.flatMap slotBytes) (64 * i) 64)) = l := by
  induction l with
  | nil => rfl
  | cons a l ih =>
    have h0 : slice (slotBytes a ++ l.flatMap slotBytes) 0 64 = slotBytes a := by
      simp [slice, slotBytes_length]
    have h1 : ∀ i, slice (slotBytes a ++ l.flatMap slotBytes) (64 * (i + 1)) 64 = slice (l.flatMap slotBytes) (64 * i) 64 := by
      intro i
      have e : 64 * (i + 1) = (slotBytes a).length + 64 * i := by rw [slotBytes_length]; omega
      rw [slice, e, ← List.drop_drop, List.drop_left, slice]
    rw [List.length_cons, List.range_succ_eq_map, List.map_cons, List.map_map, List.flatMap_cons, Nat.mul_zero, h0, bytesSlot_slotBytes]
    simp only [Function.comp_def, Nat.succ_eq_add_one, h1, ih]

/-- A ring frame that was sealed under a session opens under it as it was (R353, R414). -/
theorem openFrame_sealFrame (f : RFrame) (s : Session) (ty : Nat) : openFrame (sealFrame f s ty) s ty = some { f with tag := 0 } := by
  have hp : (f.payload.flatMap slotBytes).length = 64 * f.payload.length := by
    induction f.payload with
    | nil => rfl
    | cons a l ih => simp [List.flatMap_cons, slotBytes_length] at ih ⊢; omega
  obtain ⟨hc, ht⟩ := gcmSeal_length (frameKey s.key ty f.dst.toNat) (frameNonce f) (frameAad f ty) (f.payload.flatMap slotBytes)
  have h128 : ∀ t : List Byte, t.length = 16 → leBytes 16 (BitVec.ofNat 128 (leNat t)).toNat = t := by
    intro t h
    have h2 : leNat t < 2 ^ 128 := by
      have := leNat_lt t
      rwa [h, show (256 : Nat) ^ 16 = 2 ^ 128 from (Nat.pow_mul 2 8 16).symm] at this
    rw [BitVec.toNat_ofNat, Nat.mod_eq_of_lt h2, ← h, leBytes_leNat]
  have haad : frameAad (sealFrame f s ty) ty = frameAad f ty := by simp [frameAad, sealFrame]
  have hb : (sealFrame f s ty).payload.flatMap slotBytes
      = (gcmSeal (frameKey s.key ty f.dst.toNat) (frameNonce f) (frameAad f ty) (f.payload.flatMap slotBytes)).1 := by
    simp only [sealFrame]
    exact slots_of_bytes _ _ (by rw [hc, hp])
  have htag : leBytes 16 (sealFrame f s ty).tag.toNat
      = (gcmSeal (frameKey s.key ty f.dst.toNat) (frameNonce f) (frameAad f ty) (f.payload.flatMap slotBytes)).2 := by
    simp only [sealFrame]
    exact h128 _ ht
  have hnonce : frameNonce (sealFrame f s ty) = frameNonce f := rfl
  have hdst : (sealFrame f s ty).dst = f.dst := rfl
  rw [openFrame, haad, hb, htag, hnonce, hdst, gcmOpen_gcmSeal, Option.map_some]
  have hlen : (sealFrame f s ty).payload.length = f.payload.length := by simp [sealFrame]
  rw [hlen, slots_bytes]
  rfl

end Sys2Proof.Machine
end

