-- ==== Sys2Proof/Laws/Exec.lean ====
section
/-! SUPPORT. What each command's arm of exec is: the next state with the module that the command leaves. -/
namespace Sys2Proof.Machine

variable (s : State)

theorem exec_powerOn :
    exec .powerOn s = .next { s with m := powerOn s.m } := rfl
theorem exec_powerLoss :
    exec .powerLoss s = .next { s with m := powerLoss s.m } := rfl
theorem exec_mrst :
    exec .mrst s = .next { s with m := mrst s.m } := rfl
theorem exec_glbRst (v : W32) :
    exec (.glbRst v) s = .next { s with m := glbRst v s.m } := rfl
theorem exec_dexzonReset :
    exec .dexzonReset s = .next { s with m := dexzonReset s.m } := rfl
theorem exec_thermalTrip (sensor : Fin 7) (temp : BitVec 16) :
    exec (.thermalTrip sensor temp) s = .next { s with m := thermalTrip sensor temp s.m } := rfl
theorem exec_regulatorFault :
    exec .regulatorFault s = .next { s with m := regulatorFault s.m } := rfl
theorem exec_resetRelease :
    exec .resetRelease s = .next { s with m := resetRelease s.m } := rfl
theorem exec_clockAlignment (fails : Fin 4) :
    exec (.clockAlignment fails) s = .next { s with m := clockAlignment fails s.m } := rfl
theorem exec_rotBoot (puf : Bool) :
    exec (.rotBoot puf) s = .next { s with m := rotBoot puf s.m } := rfl
theorem exec_ddrReady :
    exec .ddrReady s = .next { s with m := ddrReady s.m } := rfl
theorem exec_refLoss :
    exec .refLoss s = .next { s with m := refLoss s.m } := rfl
theorem exec_pllUnlock (d : Fin 25) :
    exec (.pllUnlock d) s = .next { s with m := pllUnlock d s.m } := rfl
theorem exec_phaseDrift :
    exec .phaseDrift s = .next { s with m := phaseDrift s.m } := rfl
theorem exec_pgFault (d : Fin 36) :
    exec (.pgFault d) s = .next { s with m := pgFault d s.m } := rfl
theorem exec_thermWarn (sensor : Fin 8) (temp : BitVec 16) :
    exec (.thermWarn sensor temp) s = .next { s with m := thermWarn sensor temp s.m } := rfl
theorem exec_thermCrit (sensor : Fin 8) (temp : BitVec 16) :
    exec (.thermCrit sensor temp) s = .next { s with m := thermCrit sensor temp s.m } := rfl
theorem exec_vinUv (vin : BitVec 16) :
    exec (.vinUv vin) s = .next { s with m := vinUv vin s.m } := rfl
theorem exec_vinOv (vin : BitVec 16) :
    exec (.vinOv vin) s = .next { s with m := vinOv vin s.m } := rfl
theorem exec_overpower (pkg : BitVec 16) (mod : BitVec 16) :
    exec (.overpower pkg mod) s = .next { s with m := overpower pkg mod s.m } := rfl
theorem exec_perst :
    exec .perst s = .next { s with m := perst s.m } := rfl
theorem exec_functionLevelReset :
    exec .functionLevelReset s = .next { s with m := functionLevelReset s.m } := rfl
theorem exec_nop (t : TileIdx) (sl : SlotName) :
    exec (.nop t sl) s = .next { s with m := s.m.present t (.nop t sl) } := rfl
theorem exec_macMm (t : TileIdx) (p : Pred) (f : MmF) :
    exec (.macMm t p f) s = .next { s with m := s.m.present t (.macMm t p f) } := rfl
theorem exec_macWld (t : TileIdx) (p : Pred) (f : WldF) :
    exec (.macWld t p f) s = .next { s with m := s.m.present t (.macWld t p f) } := rfl
theorem exec_macXld (t : TileIdx) (p : Pred) (f : XldF) :
    exec (.macXld t p f) s = .next { s with m := s.m.present t (.macXld t p f) } := rfl
theorem exec_macAclr (t : TileIdx) (p : Pred) (row : BitVec 6) (cnt : BitVec 6) :
    exec (.macAclr t p row cnt) s = .next { s with m := s.m.present t (.macAclr t p row cnt) } := rfl
theorem exec_vecAdd (t : TileIdx) (p : Pred) (f : VecF) :
    exec (.vecAdd t p f) s = .next { s with m := s.m.present t (.vecAdd t p f) } := rfl
theorem exec_vecSub (t : TileIdx) (p : Pred) (f : VecF) :
    exec (.vecSub t p f) s = .next { s with m := s.m.present t (.vecSub t p f) } := rfl
theorem exec_vecMul (t : TileIdx) (p : Pred) (f : VecF) :
    exec (.vecMul t p f) s = .next { s with m := s.m.present t (.vecMul t p f) } := rfl
theorem exec_vecFma (t : TileIdx) (p : Pred) (f : VecF) :
    exec (.vecFma t p f) s = .next { s with m := s.m.present t (.vecFma t p f) } := rfl
theorem exec_vecMin (t : TileIdx) (p : Pred) (f : VecF) :
    exec (.vecMin t p f) s = .next { s with m := s.m.present t (.vecMin t p f) } := rfl
theorem exec_vecMax (t : TileIdx) (p : Pred) (f : VecF) :
    exec (.vecMax t p f) s = .next { s with m := s.m.present t (.vecMax t p f) } := rfl
theorem exec_vecAbs (t : TileIdx) (p : Pred) (f : VecF) :
    exec (.vecAbs t p f) s = .next { s with m := s.m.present t (.vecAbs t p f) } := rfl
theorem exec_vecNeg (t : TileIdx) (p : Pred) (f : VecF) :
    exec (.vecNeg t p f) s = .next { s with m := s.m.present t (.vecNeg t p f) } := rfl
theorem exec_vecClt (t : TileIdx) (p : Pred) (f : VecF) :
    exec (.vecClt t p f) s = .next { s with m := s.m.present t (.vecClt t p f) } := rfl
theorem exec_vecCeq (t : TileIdx) (p : Pred) (f : VecF) :
    exec (.vecCeq t p f) s = .next { s with m := s.m.present t (.vecCeq t p f) } := rfl
theorem exec_vecSel (t : TileIdx) (p : Pred) (f : VecF) :
    exec (.vecSel t p f) s = .next { s with m := s.m.present t (.vecSel t p f) } := rfl
theorem exec_vecAnd (t : TileIdx) (p : Pred) (f : VecF) :
    exec (.vecAnd t p f) s = .next { s with m := s.m.present t (.vecAnd t p f) } := rfl
theorem exec_vecOr (t : TileIdx) (p : Pred) (f : VecF) :
    exec (.vecOr t p f) s = .next { s with m := s.m.present t (.vecOr t p f) } := rfl
theorem exec_vecXor (t : TileIdx) (p : Pred) (f : VecF) :
    exec (.vecXor t p f) s = .next { s with m := s.m.present t (.vecXor t p f) } := rfl
theorem exec_vecShl (t : TileIdx) (p : Pred) (f : VecF) :
    exec (.vecShl t p f) s = .next { s with m := s.m.present t (.vecShl t p f) } := rfl
theorem exec_vecShr (t : TileIdx) (p : Pred) (f : VecF) :
    exec (.vecShr t p f) s = .next { s with m := s.m.present t (.vecShr t p f) } := rfl
theorem exec_vecSra (t : TileIdx) (p : Pred) (f : VecF) :
    exec (.vecSra t p f) s = .next { s with m := s.m.present t (.vecSra t p f) } := rfl
theorem exec_vecRcp (t : TileIdx) (p : Pred) (f : VecF) :
    exec (.vecRcp t p f) s = .next { s with m := s.m.present t (.vecRcp t p f) } := rfl
theorem exec_vecRsq (t : TileIdx) (p : Pred) (f : VecF) :
    exec (.vecRsq t p f) s = .next { s with m := s.m.present t (.vecRsq t p f) } := rfl
theorem exec_vecExp2 (t : TileIdx) (p : Pred) (f : VecF) :
    exec (.vecExp2 t p f) s = .next { s with m := s.m.present t (.vecExp2 t p f) } := rfl
theorem exec_vecLog2 (t : TileIdx) (p : Pred) (f : VecF) :
    exec (.vecLog2 t p f) s = .next { s with m := s.m.present t (.vecLog2 t p f) } := rfl
theorem exec_vecRsum (t : TileIdx) (p : Pred) (f : VecF) :
    exec (.vecRsum t p f) s = .next { s with m := s.m.present t (.vecRsum t p f) } := rfl
theorem exec_vecRmax (t : TileIdx) (p : Pred) (f : VecF) :
    exec (.vecRmax t p f) s = .next { s with m := s.m.present t (.vecRmax t p f) } := rfl
theorem exec_vecShuf (t : TileIdx) (p : Pred) (f : VecF) :
    exec (.vecShuf t p f) s = .next { s with m := s.m.present t (.vecShuf t p f) } := rfl
theorem exec_vecRot (t : TileIdx) (p : Pred) (f : VecF) :
    exec (.vecRot t p f) s = .next { s with m := s.m.present t (.vecRot t p f) } := rfl
theorem exec_vecBcst (t : TileIdx) (p : Pred) (f : VecF) :
    exec (.vecBcst t p f) s = .next { s with m := s.m.present t (.vecBcst t p f) } := rfl
theorem exec_vecCvt (t : TileIdx) (p : Pred) (f : VecF) :
    exec (.vecCvt t p f) s = .next { s with m := s.m.present t (.vecCvt t p f) } := rfl
theorem exec_vecQnt (t : TileIdx) (p : Pred) (f : VecF) :
    exec (.vecQnt t p f) s = .next { s with m := s.m.present t (.vecQnt t p f) } := rfl
theorem exec_vecSrnd (t : TileIdx) (p : Pred) (f : VecF) :
    exec (.vecSrnd t p f) s = .next { s with m := s.m.present t (.vecSrnd t p f) } := rfl
theorem exec_vecGen (t : TileIdx) (p : Pred) (f : VecF) :
    exec (.vecGen t p f) s = .next { s with m := s.m.present t (.vecGen t p f) } := rfl
theorem exec_vecRdac (t : TileIdx) (p : Pred) (f : VecF) :
    exec (.vecRdac t p f) s = .next { s with m := s.m.present t (.vecRdac t p f) } := rfl
theorem exec_vecWrac (t : TileIdx) (p : Pred) (f : VecF) :
    exec (.vecWrac t p f) s = .next { s with m := s.m.present t (.vecWrac t p f) } := rfl
theorem exec_vecMovv (t : TileIdx) (p : Pred) (f : VecF) :
    exec (.vecMovv t p f) s = .next { s with m := s.m.present t (.vecMovv t p f) } := rfl
theorem exec_movLdv (t : TileIdx) (p : Pred) (f : LdvF) :
    exec (.movLdv t p f) s = .next { s with m := s.m.present t (.movLdv t p f) } := rfl
theorem exec_movStv (t : TileIdx) (p : Pred) (f : LdvF) :
    exec (.movStv t p f) s = .next { s with m := s.m.present t (.movStv t p f) } := rfl
theorem exec_movCpy (t : TileIdx) (p : Pred) (f : CpyF) :
    exec (.movCpy t p f) s = .next { s with m := s.m.present t (.movCpy t p f) } := rfl
theorem exec_movPut (t : TileIdx) (p : Pred) (f : PutF) :
    exec (.movPut t p f) s = .next { s with m := s.m.present t (.movPut t p f) } := rfl
theorem exec_movGld (t : TileIdx) (p : Pred) (f : GldF) :
    exec (.movGld t p f) s = .next { s with m := s.m.present t (.movGld t p f) } := rfl
theorem exec_movGst (t : TileIdx) (p : Pred) (f : GldF) :
    exec (.movGst t p f) s = .next { s with m := s.m.present t (.movGst t p f) } := rfl
theorem exec_movSeta (t : TileIdx) (p : Pred) (n : BitVec 4) (imm : BitVec 13) :
    exec (.movSeta t p n imm) s = .next { s with m := s.m.present t (.movSeta t p n imm) } := rfl
theorem exec_movTags (t : TileIdx) (p : Pred) (n : BitVec 4) (inc : Bool) (tag : Bool) (off : BitVec 11) :
    exec (.movTags t p n inc tag off) s = .next { s with m := s.m.present t (.movTags t p n inc tag off) } := rfl
theorem exec_movVout (t : TileIdx) (n : BitVec 4) (tm : BitVec 2) (inc : Bool) :
    exec (.movVout t n tm inc) s = .next { s with m := s.m.present t (.movVout t n tm inc) } := rfl
theorem exec_syncLwait (t : TileIdx) (n : BitVec 4) (imm : BitVec 8) :
    exec (.syncLwait t n imm) s = .next { s with m := s.m.present t (.syncLwait t n imm) } := rfl
theorem exec_syncLsig (t : TileIdx) (n : BitVec 4) (imm : BitVec 8) :
    exec (.syncLsig t n imm) s = .next { s with m := s.m.present t (.syncLsig t n imm) } := rfl
theorem exec_syncNext (t : TileIdx) (n : BitVec 4) :
    exec (.syncNext t n) s = .next { s with m := s.m.present t (.syncNext t n) } := rfl
theorem exec_syncPass (t : TileIdx) (n : BitVec 4) :
    exec (.syncPass t n) s = .next { s with m := s.m.present t (.syncPass t n) } := rfl
theorem exec_syncWopn (t : TileIdx) (w : BitVec 3) :
    exec (.syncWopn t w) s = .next { s with m := s.m.present t (.syncWopn t w) } := rfl
theorem exec_syncWcls (t : TileIdx) (w : BitVec 3) :
    exec (.syncWcls t w) s = .next { s with m := s.m.present t (.syncWcls t w) } := rfl
theorem exec_ctlLoop (t : TileIdx) (level : BitVec 2) (n : BitVec 4) :
    exec (.ctlLoop t level n) s = .next { s with m := s.m.present t (.ctlLoop t level n) } := rfl
theorem exec_ctlEndl (t : TileIdx) (level : BitVec 2) :
    exec (.ctlEndl t level) s = .next { s with m := s.m.present t (.ctlEndl t level) } := rfl
theorem exec_ctlStep (t : TileIdx) :
    exec (.ctlStep t) s = .next { s with m := s.m.present t (.ctlStep t) } := rfl
theorem exec_ctlArst (t : TileIdx) (kind : BitVec 3) (index : BitVec 4) :
    exec (.ctlArst t kind index) s = .next { s with m := s.m.present t (.ctlArst t kind index) } := rfl
theorem exec_ctlTaly (t : TileIdx) (stream : BitVec 3) :
    exec (.ctlTaly t stream) s = .next { s with m := s.m.present t (.ctlTaly t stream) } := rfl
theorem exec_ctlHalt (t : TileIdx) :
    exec (.ctlHalt t) s = .next { s with m := s.m.present t (.ctlHalt t) } := rfl
theorem exec_slip (t : TileIdx) :
    exec (.slip t) s = .next { s with m := s.m.slip t } := rfl
theorem exec_remoteWriteArrival (i : Nat) :
    exec (.remoteWriteArrival i) s = .next { s with m := remoteWriteArrival i s.m } := rfl
theorem exec_inboundDrain (t : TileIdx) (bank : Fin 8) :
    exec (.inboundDrain t bank) s = .next { s with m := inboundDrain t bank s.m } := rfl
theorem exec_gldReply (i : Nat) :
    exec (.gldReply i) s = .next { s with m := gldReply i s.m } := rfl
theorem exec_stackChannelAccess (stack : Fin 6) (ch : Fin 32) :
    exec (.stackChannelAccess stack ch) s = .next { s with m := stackChannelAccess stack ch s.m } := rfl
theorem exec_stackWindowUpdate (i : Nat) :
    exec (.stackWindowUpdate i) s = .next { s with m := stackWindowUpdate i s.m } := rfl
theorem exec_latchSignalArrival (i : Nat) :
    exec (.latchSignalArrival i) s = .next { s with m := latchSignalArrival i s.m } := rfl
theorem exec_latchWaitGrant (l : Fin 16384) :
    exec (.latchWaitGrant l) s = .next { s with m := latchWaitGrant l s.m } := rfl
theorem exec_sluiceDescriptorStart (e : Fin 32) :
    exec (.sluiceDescriptorStart e) s = .next { s with m := sluiceStart e s.m } := rfl
theorem exec_sluiceComplete (e : Fin 32) :
    exec (.sluiceComplete e) s = .next { s with m := sluiceComplete e s.m } := rfl
theorem exec_sluiceQueueDescriptor (e : Fin 32) (entry : Slot) :
    exec (.sluiceQueueDescriptor e entry) s = .next { s with m := sluiceQueueDescriptor e entry s.m } := rfl
theorem exec_sluiceAbort (e : Fin 32) :
    exec (.sluiceAbort e) s = .next { s with m := sluiceAbort e s.m } := rfl
theorem exec_sluiceFault (e : Fin 32) :
    exec (.sluiceFault e) s = .next { s with m := sluiceFault e s.m } := rfl
theorem exec_patrolScrub (u : ScrubUnit) :
    exec (.patrolScrub u) s = .next { s with m := patrolScrub u s.m } := rfl
theorem exec_leaseExpiry (h : Holder) :
    exec (.leaseExpiry h) s = .next { s with m := leaseExpiry h s.m } := rfl
theorem exec_revocationComplete :
    exec .revocationComplete s = .next { s with m := revocationComplete s.m } := rfl
theorem exec_memCeClr :
    exec .memCeClr s = .next { s with m := memCeClr s.m } := rfl
theorem exec_tileCntClr (t : TileIdx) :
    exec (.tileCntClr t) s = .next { s with m := tileCntClr t s.m } := rfl
theorem exec_pmemUe (t : TileIdx) :
    exec (.pmemUe t) s = .next { s with m := pmemUe t s.m } := rfl
theorem exec_stemLineTake (die : Fin 2) (port : Fin 6) :
    exec (.stemLineTake die port) s = .next { s with m := stemLineTake (6 * die + port) s.m } := rfl
theorem exec_stemRowWrite (die : Fin 2) (port : Fin 6) :
    exec (.stemRowWrite die port) s = .next { s with m := stemRowWrite (6 * die + port) s.m } := rfl
theorem exec_stemRowDone (die : Fin 2) (port : Fin 6) :
    exec (.stemRowDone die port) s = .next { s with m := stemRowDone (6 * die + port) s.m } := rfl
theorem exec_roiJobStart (die : Fin 2) :
    exec (.roiJobStart die) s = .next { s with m := roiJobStart die s.m } := rfl
theorem exec_roiJobComplete (die : Fin 2) :
    exec (.roiJobComplete die) s = .next { s with m := roiJobComplete die s.m } := rfl
theorem exec_roiAbort (die : Fin 2) :
    exec (.roiAbort die) s = .next { s with m := roiAbort die s.m } := rfl
theorem exec_roiFault (die : Fin 2) :
    exec (.roiFault die) s = .next { s with m := roiFault die s.m } := rfl
theorem exec_portEnable (die : Fin 2) (port : Fin 6) (v : W32) (cable : Cable) :
    exec (.portEnable die port v cable) s = .next { s with m := portEnable (6 * die + port) v cable s.m } := rfl
theorem exec_portDisable (die : Fin 2) (port : Fin 6) (v : W32) :
    exec (.portDisable die port v) s = .next { s with m := portDisable (6 * die + port) v s.m } := rfl
theorem exec_trainingBlock (lane : LaneId) (octets : W64) (inv : Bool) :
    exec (.trainingBlock lane octets inv) s = .next { s with m := trainingBlock lane octets inv s.m } := rfl
theorem exec_tapUpdate (lane : LaneId) :
    exec (.tapUpdate lane) s = .next { s with m := tapUpdate lane s.m } := rfl
theorem exec_blockLock (lane : LaneId) (marker : Option (BitVec 2)) (inv : Bool) :
    exec (.blockLock lane marker inv) s = .next { s with m := blockLock lane marker inv s.m } := rfl
theorem exec_blockLockLoss (lane : LaneId) (bad : Nat) :
    exec (.blockLockLoss lane bad) s = .next { s with m := blockLockLoss lane bad s.m } := rfl
theorem exec_windowFault (lane : LaneId) (bad : Nat) :
    exec (.windowFault lane bad) s = .next { s with m := windowFault lane bad s.m } := rfl
theorem exec_lockTimeout (port : PortId) :
    exec (.lockTimeout port) s = .next { s with m := lockTimeout port s.m } := rfl
theorem exec_qualityCheck (port : PortId) (bad : List Nat) :
    exec (.qualityCheck port bad) s = .next { s with m := qualityCheck port bad s.m } := rfl
theorem exec_adaptiveTrainingEnd (port : PortId) :
    exec (.adaptiveTrainingEnd port) s = .next { s with m := adaptiveTrainingEnd port s.m } := rfl
theorem exec_deskewDone (port : PortId) (skew : Nat) :
    exec (.deskewDone port skew) s = .next { s with m := deskewDone port skew s.m } := rfl
theorem exec_bringupRetry (port : PortId) :
    exec (.bringupRetry port) s = .next { s with m := bringupRetry port s.m } := rfl
theorem exec_relockTimeout (die : Fin 2) (port : Fin 6) :
    exec (.relockTimeout die port) s = .next { s with m := relockTimeout (6 * die + port) s.m } := rfl
theorem exec_verSend (die : Fin 2) (port : Fin 6) :
    exec (.verSend die port) s = .next { s with m := verSend (6 * die + port) s.m } := rfl
theorem exec_camVer (cam : CamPort) (blks : List Block) :
    exec (.camVer cam blks) s = .next { s with m := camVer (6 * cam.die + cam.port) blks s.m } := rfl
theorem exec_frameStart (cam : CamPort) (blks : List Block) :
    exec (.frameStart cam blks) s = .next { s with m := frameStart (6 * cam.die + cam.port) blks s.m } := rfl
theorem exec_frameEnd (cam : CamPort) (blks : List Block) :
    exec (.frameEnd cam blks) s = .next { s with m := frameEnd (6 * cam.die + cam.port) blks s.m } := rfl
theorem exec_lineStart (cam : CamPort) (blks : List Block) :
    exec (.lineStart cam blks) s = .next { s with m := lineStart (6 * cam.die + cam.port) blks s.m } := rfl
theorem exec_lineEnd (cam : CamPort) (blks : List Block) :
    exec (.lineEnd cam blks) s = .next { s with m := lineEnd (6 * cam.die + cam.port) blks s.m } := rfl
theorem exec_pixelPacket (die : Fin 2) (port : Fin 6) (start : Block) (rest : List Block) :
    exec (.pixelPacket die port start rest) s = .next { s with m := pixelPacket (6 * die + port) (start :: rest) s.m } := rfl
theorem exec_camEcho (cam : CamPort) (blks : List Block) :
    exec (.camEcho cam blks) s = .next { s with m := camEcho (6 * cam.die + cam.port) blks s.m } := rfl
theorem exec_pmark (cam : CamPort) (blks : List Block) :
    exec (.pmark cam blks) s = .next { s with m := pmark (6 * cam.die + cam.port) blks s.m } := rfl
theorem exec_hdrUe (cam : CamPort) (blks : List Block) :
    exec (.hdrUe cam blks) s = .next { s with m := hdrUe (6 * cam.die + cam.port) blks s.m } := rfl
theorem exec_framingError (die : Fin 2) (port : Fin 6) (blks : List Block) :
    exec (.framingError die port blks) s = .next { s with m := framingError (6 * die + port) blks s.m } := rfl
theorem exec_ltrig (die : Fin 2) (port : Fin 6) :
    exec (.ltrig die port) s = .next { s with m := ltrig (6 * die + port) s.m } := rfl
theorem exec_portExpCommit (die : Fin 2) (port : Fin 6) :
    exec (.portExpCommit die port) s = .next { s with m := portExpCommit (6 * die + port) s.m } := rfl
theorem exec_ffcTableWrite (die : Fin 2) (port : Fin 6) (bank : Bool) (x : BitVec 14) (v : W32) :
    exec (.ffcTableWrite die port bank x v) s = .next { s with m := ffcTableWrite (6 * die + port) bank x.toNat v s.m } := rfl
theorem exec_cropRequest (die : Fin 2) (req : BitVec 256) :
    exec (.cropRequest die req) s = .next { s with m := cropRequest die req s.m } := rfl
theorem exec_coderStart (die : Fin 2) :
    exec (.coderStart die) s = .next { s with m := coderStart die s.m } := rfl
theorem exec_archiveRecord (die : Fin 2) :
    exec (.archiveRecord die) s = .next { s with m := archiveRecord die s.m } := rfl
theorem exec_markerRecord :
    exec .markerRecord s = .next { s with m := markerRecord s.m } := rfl
theorem exec_sampleReady (idx : BitVec 48) :
    exec (.sampleReady idx) s = .next { s with m := sampleReady idx s.m } := rfl
theorem exec_prepDeadline (idx : BitVec 48) :
    exec (.prepDeadline idx) s = .next { s with m := prepDeadline idx s.m } := rfl
theorem exec_refDecodeStart (die : Fin 2) :
    exec (.refDecodeStart die) s = .next { s with m := refDecodeStart die s.m } := rfl
theorem exec_refDecodeDone (die : Fin 2) :
    exec (.refDecodeDone die) s = .next { s with m := refDecodeDone die s.m } := rfl
theorem exec_batchCloseTimeout (b : Fin 8) :
    exec (.batchCloseTimeout b) s = .next { s with m := batchCloseTimeout b s.m } := rfl
theorem exec_batchHandover (b : Fin 8) :
    exec (.batchHandover b) s = .next { s with m := batchHandover b s.m } := rfl
theorem exec_adaptLabel (ent : BitVec 128) :
    exec (.adaptLabel ent) s = .next { s with m := adaptLabel ent s.m } := rfl
theorem exec_adaptRun (ent : Slot) :
    exec (.adaptRun ent) s = .next { s with m := adaptRun ent s.m } := rfl
theorem exec_adaptSelect (ent : Slot) :
    exec (.adaptSelect ent) s = .next { s with m := adaptSelect ent s.m } := rfl
theorem exec_adaptCommit (ent : Slot) :
    exec (.adaptCommit ent) s = .next { s with m := adaptCommit ent s.m } := rfl
theorem exec_adaptDiscard (ent : Slot) :
    exec (.adaptDiscard ent) s = .next { s with m := adaptDiscard ent s.m } := rfl
theorem exec_adaptExport (ent : Slot) :
    exec (.adaptExport ent) s = .next { s with m := adaptExport ent s.m } := rfl
theorem exec_adaptClear (ent : Slot) :
    exec (.adaptClear ent) s = .next { s with m := adaptClear ent s.m } := rfl
theorem exec_adaptStatus (ent : Slot) :
    exec (.adaptStatus ent) s = .next { s with m := adaptStatus ent s.m } := rfl
theorem exec_epochStart :
    exec .epochStart s = .next { s with m := epochStart s.m } := rfl
theorem exec_runEnd :
    exec .runEnd s = .next { s with m := runEnd s.m } := rfl
theorem exec_runTimeout :
    exec .runTimeout s = .next { s with m := runTimeout s.m } := rfl
theorem exec_pStop :
    exec .pStop s = .next { s with m := pStop s.m } := rfl
theorem exec_drainEnd :
    exec .drainEnd s = .next { s with m := drainEnd s.m } := rfl
theorem exec_loadComplete :
    exec .loadComplete s = .next { s with m := loadComplete s.m } := rfl
theorem exec_pResume :
    exec .pResume s = .next { s with m := pResume s.m } := rfl
theorem exec_pSw :
    exec .pSw s = .next { s with m := pSw s.m } := rfl
theorem exec_oldWeaveDone :
    exec .oldWeaveDone s = .next { s with m := oldWeaveDone s.m } := rfl
theorem exec_encoderStep (e : Fin 2) (a b close : Bool) :
    exec (.encoderStep e a b close) s = .next { s with m := encoderStep e a b close s.m } := rfl
theorem exec_los (e : Fin 2) (pin : EncPin) :
    exec (.los e pin) s = .next { s with m := los e pin s.m } := rfl
theorem exec_losClear (e : Fin 2) (pin : EncPin) :
    exec (.losClear e pin) s = .next { s with m := losClear e pin s.m } := rfl
theorem exec_indexEdge (e : Fin 2) :
    exec (.indexEdge e) s = .next { s with m := indexEdge e s.m } := rfl
theorem exec_encCmdLoad (e : Fin 2) :
    exec (.encCmdLoad e) s = .next { s with m := encCmdLoad e s.m } := rfl
theorem exec_encCfgWrite (e : Fin 2) (v : W32) :
    exec (.encCfgWrite e v) s = .next { s with m := encCfgWrite e v s.m } := rfl
theorem exec_obsG3Write (e : Fin 2) (v : W32) :
    exec (.obsG3Write e v) s = .next { s with m := obsG3Write e v s.m } := rfl
theorem exec_observerUpdate (e : Fin 2) :
    exec (.observerUpdate e) s = .next { s with m := observerUpdate e s.m } := rfl
theorem exec_overspeedClear (e : Fin 2) :
    exec (.overspeedClear e) s = .next { s with m := overspeedClear e s.m } := rfl
theorem exec_ptWrite (t : Fin 4) (r : PtReg) (v : W32) :
    exec (.ptWrite t r v) s = .next { s with m := ptWrite t r v s.m } := rfl
theorem exec_pitchMarker (t : Fin 4) :
    exec (.pitchMarker t) s = .next { s with m := pitchMarker t s.m } := rfl
theorem exec_trailingMarker (t : Fin 4) :
    exec (.trailingMarker t) s = .next { s with m := trailingMarker t s.m } := rfl
theorem exec_spoutArm (q : Fin 8192) (ent : BitVec 256) :
    exec (.spoutArm q ent) s = .next { s with m := spoutArm q ent s.m } := rfl
theorem exec_spoutCancel (q : Fin 8192) (ent : BitVec 256) :
    exec (.spoutCancel q ent) s = .next { s with m := spoutCancel q ent s.m } := rfl
theorem exec_spoutRuleArm :
    exec .spoutRuleArm s = .next { s with m := spoutRuleArm s.m } := rfl
theorem exec_strobeFire (e : Fin 4096) :
    exec (.strobeFire e) s = .next { s with m := strobeFire e s.m } := rfl
theorem exec_commandInstant (e : Fin 4096) :
    exec (.commandInstant e) s = .next { s with m := commandInstant e s.m } := rfl
theorem exec_pulseEnd (e : Fin 4096) :
    exec (.pulseEnd e) s = .next { s with m := pulseEnd e s.m } := rfl
theorem exec_pulseMaxon (e : Fin 4096) :
    exec (.pulseMaxon e) s = .next { s with m := pulseMaxon e s.m } := rfl
theorem exec_lateCheck :
    exec .lateCheck s = .next { s with m := lateCheck s.m } := rfl
theorem exec_backstop (idx : BitVec 48) :
    exec (.backstop idx) s = .next { s with m := backstop idx s.m } := rfl
theorem exec_posSnapCapture :
    exec .posSnapCapture s = .next { s with m := posSnapCapture s.m } := rfl
theorem exec_ptpAnnounce (a : AnnounceMsg) :
    exec (.ptpAnnounce a) s = .next { s with m := ptpAnnounce a s.m } := rfl
theorem exec_ptpSync (x : SyncMsg) :
    exec (.ptpSync x) s = .next { s with m := ptpSync x s.m } := rfl
theorem exec_ptpFollowUp (id : PtpId) (t1 : W64) :
    exec (.ptpFollowUp id t1) s = .next { s with m := ptpFollowUp id.src id.seq t1 s.m } := rfl
theorem exec_ptpDelayReq (seq : BitVec 16) :
    exec (.ptpDelayReq seq) s = .next { s with m := ptpDelayReq seq s.m } := rfl
theorem exec_ptpDelayResp (id : PtpId) (t4 : W64) :
    exec (.ptpDelayResp id t4) s = .next { s with m := ptpDelayResp id.src id.seq t4 s.m } := rfl
theorem exec_tb0Step (v : W64) :
    exec (.tb0Step v) s = .next { s with m := tb0Step v s.m } := rfl
theorem exec_holdover (gmChange : Bool) :
    exec (.holdover gmChange) s = .next { s with m := holdover gmChange s.m } := rfl
theorem exec_mgmtLinkDown :
    exec .mgmtLinkDown s = .next { s with m := mgmtLinkDown s.m } := rfl
theorem exec_downFrame :
    exec .downFrame s = .next { s with m := downFrame s.m } := rfl
theorem exec_eventFrame (fr : W64) :
    exec (.eventFrame fr) s = .next { s with m := eventFrame fr s.m } := rfl
theorem exec_stateApply :
    exec .stateApply s = .next { s with m := stateApply s.m } := rfl
theorem exec_configurationFrame (fr : W64) :
    exec (.configurationFrame fr) s = .next { s with m := configurationFrame fr s.m } := rfl
theorem exec_fldResume (fr : W64) :
    exec (.fldResume fr) s = .next { s with m := fldResume fr s.m } := rfl
theorem exec_fldForceSafe (fr : W64) :
    exec (.fldForceSafe fr) s = .next { s with m := fldForceSafe fr s.m } := rfl
theorem exec_upFrameSend :
    exec .upFrameSend s = .next { s with m := upFrameSend s.m } := rfl
theorem exec_upFrame (fr : W64) :
    exec (.upFrame fr) s = .next { s with m := upFrame fr s.m } := rfl
theorem exec_inputEdge (i : Fin 16) (level : Bool) :
    exec (.inputEdge i level) s = .next { s with m := inputEdge i level s.m } := rfl
theorem exec_silenceTimeout :
    exec .silenceTimeout s = .next { s with m := silenceTimeout s.m } := rfl
theorem exec_downLockLoss :
    exec .downLockLoss s = .next { s with m := downLockLoss s.m } := rfl
theorem exec_controllerStart :
    exec .controllerStart s = .next { s with m := controllerStart s.m } := rfl
theorem exec_lplusUv :
    exec .lplusUv s = .next { s with m := lplusUv s.m } := rfl
theorem exec_overcurrent (i : Fin 16) :
    exec (.overcurrent i) s = .next { s with m := overcurrent i s.m } := rfl
theorem exec_wireBreak (i : Fin 16) :
    exec (.wireBreak i) s = .next { s with m := wireBreak i s.m } := rfl
theorem exec_wireBreakClear (i : Fin 16) :
    exec (.wireBreakClear i) s = .next { s with m := wireBreakClear i s.m } := rfl
theorem exec_rbMis (i : Fin 16) :
    exec (.rbMis i) s = .next { s with m := rbMis i s.m } := rfl
theorem exec_upLock :
    exec .upLock s = .next { s with m := upLock s.m } := rfl
theorem exec_upLost :
    exec .upLost s = .next { s with m := upLost s.m } := rfl
theorem exec_fldCmdResume :
    exec .fldCmdResume s = .next { s with m := fldCmdResume s.m } := rfl
theorem exec_fldCmdForceSafe :
    exec .fldCmdForceSafe s = .next { s with m := fldCmdForceSafe s.m } := rfl
theorem exec_fldOcClear (v : W32) :
    exec (.fldOcClear v) s = .next { s with m := fldOcClear v s.m } := rfl
theorem exec_fldOutHostWrite (v : W32) :
    exec (.fldOutHostWrite v) s = .next { s with m := fldOutHostWrite v s.m } := rfl
theorem exec_ringLinkEnable (p : Fin 4) (v : W32) (cable : Cable) :
    exec (.ringLinkEnable p v cable) s = .next { s with m := ringLinkEnable p v cable s.m } := rfl
theorem exec_ringRetrain (p : Fin 4) :
    exec (.ringRetrain p) s = .next { s with m := ringRetrain p s.m } := rfl
theorem exec_presetRetry (p : Fin 4) :
    exec (.presetRetry p) s = .next { s with m := presetRetry p s.m } := rfl
theorem exec_ringLinkFault (p : Fin 4) :
    exec (.ringLinkFault p) s = .next { s with m := ringLinkFault p s.m } := rfl
theorem exec_unwrapHoldoff (p : Fin 4) :
    exec (.unwrapHoldoff p) s = .next { s with m := unwrapHoldoff p s.m } := rfl
theorem exec_unwrap :
    exec .unwrap s = .next { s with m := unwrap s.m } := rfl
theorem exec_rillVerSend (p : Fin 4) :
    exec (.rillVerSend p) s = .next { s with m := rillVerSend p s.m } := rfl
theorem exec_rillVer (p : Fin 4) (fr : RFrame) :
    exec (.rillVer p fr) s = .next { s with m := rillVer p fr s.m } := rfl
theorem exec_rillEcho (p : Fin 4) (fr : RFrame) (t : W64) :
    exec (.rillEcho p fr t) s = .next { s with m := rillEcho p fr t s.m } := rfl
theorem exec_helloSend :
    exec .helloSend s = .next { s with m := helloSend s.m } := rfl
theorem exec_ringHello (p : Fin 4) (fr : RFrame) :
    exec (.ringHello p fr) s = .next { s with m := ringHello p fr s.m } := rfl
theorem exec_memberExpiry (m : Fin 32) :
    exec (.memberExpiry m) s = .next { s with m := memberExpiry m s.m } := rfl
theorem exec_tokenSend :
    exec .tokenSend s = .next { s with m := tokenSend s.m } := rfl
theorem exec_ringToken (p : Fin 4) (fr : RFrame) :
    exec (.ringToken p fr) s = .next { s with m := ringToken p fr s.m } := rfl
theorem exec_tokenExpiry :
    exec .tokenExpiry s = .next { s with m := tokenExpiry s.m } := rfl
theorem exec_tokenPass :
    exec .tokenPass s = .next { s with m := tokenPass s.m } := rfl
theorem exec_tb2syncSend :
    exec .tb2syncSend s = .next { s with m := tb2syncSend s.m } := rfl
theorem exec_tb2sync (p : Fin 4) (fr : RFrame) :
    exec (.tb2sync p fr) s = .next { s with m := tb2sync p fr s.m } := rfl
theorem exec_tb2Lost :
    exec .tb2Lost s = .next { s with m := tb2Lost s.m } := rfl
theorem exec_ringWrapn (p : Fin 4) (fr : RFrame) :
    exec (.ringWrapn p fr) s = .next { s with m := ringWrapn p fr s.m } := rfl
theorem exec_ringWrite (p : Fin 4) (fr : RFrame) :
    exec (.ringWrite p fr) s = .next { s with m := ringWrite p fr s.m } := rfl
theorem exec_ringDrop (p : Fin 4) (fr : RFrame) :
    exec (.ringDrop p fr) s = .next { s with m := ringDrop p fr s.m } := rfl
theorem exec_ringVerdict (p : Fin 4) (fr : RFrame) :
    exec (.ringVerdict p fr) s = .next { s with m := ringVerdict p fr s.m } := rfl
theorem exec_ringRemap (p : Fin 4) (fr : RFrame) :
    exec (.ringRemap p fr) s = .next { s with m := ringRemap p fr s.m } := rfl
theorem exec_frameCrcFail (p : Fin 4) (k : FrameFault) :
    exec (.frameCrcFail p k) s = .next { s with m := frameCrcFail p k s.m } := rfl
theorem exec_ringXoff (p : Fin 4) (cls : Fin 6) :
    exec (.ringXoff p cls) s = .next { s with m := ringXoff p cls s.m } := rfl
theorem exec_ringXon (p : Fin 4) (cls : Fin 6) :
    exec (.ringXon p cls) s = .next { s with m := ringXon p cls s.m } := rfl
theorem exec_ringPlanDescriptor (plane : Fin 2) :
    exec (.ringPlanDescriptor plane) s = .next { s with m := ringPlanDescriptor plane s.m } := rfl
theorem exec_ringPlanComplete (plane : Fin 2) :
    exec (.ringPlanComplete plane) s = .next { s with m := ringPlanComplete plane s.m } := rfl
theorem exec_weirInsert (v : W32) :
    exec (.weirInsert v) s = .next { s with m := weirInsert v s.m } := rfl
theorem exec_weirSwitchDone (plane : Fin 2) (settled : Bool) :
    exec (.weirSwitchDone plane settled) s = .next { s with m := weirSwitchDone plane settled s.m } := rfl
theorem exec_stagingAccess (write : Bool) (off : BitVec 30) (size : Nat) (data : List Byte) :
    exec (.stagingAccess write off size data) s = .next { s with m := stagingAccess write off size data s.m } := rfl
theorem exec_badWidthAccess (bar : Bar) (off : W32) (size : Nat) (write : Bool) :
    exec (.badWidthAccess bar off size write) s = .next { s with m := badWidth bar off size write s.m } := rfl
theorem exec_lowHalfRead (addr : BitVec 26) :
    exec (.lowHalfRead addr) s = .next { s with m := lowHalfRead addr.toNat s.m } := rfl
theorem exec_recordAreaWrite (off : BitVec 24) (size : Nat) :
    exec (.recordAreaWrite off size) s = .next { s with m := recordAreaWrite off size s.m } := rfl
theorem exec_registerWrite (bar : Bar) (addr : BitVec 26) (v : W32) :
    exec (.registerWrite bar addr v) s = .next { s with m := registerWrite bar addr.toNat v s.m } := rfl
theorem exec_doorbellWrite (q : Fin 8192) (v : W32) :
    exec (.doorbellWrite q v) s = .next { s with m := doorbellWrite q v s.m } := rfl
theorem exec_qCfgWrite (q : Fin 8192) (v : W32) :
    exec (.qCfgWrite q v) s = .next { s with m := qCfgWrite q v s.m } := rfl
theorem exec_irqTimer (q : Fin 8192) :
    exec (.irqTimer q) s = .next { s with m := irqTimer q s.m } := rfl
theorem exec_queueFetchFail (q : Fin 8192) :
    exec (.queueFetchFail q) s = .next { s with m := queueFetchFail q s.m } := rfl
theorem exec_recipeLoad (q : Fin 8192) (ent : Slot) :
    exec (.recipeLoad q ent) s = .next { s with m := recipeCmd q ent s.m } := rfl
theorem exec_lotStart (q : Fin 8192) (ent : Slot) :
    exec (.lotStart q ent) s = .next { s with m := lotStart q ent s.m } := rfl
theorem exec_lotEnd (q : Fin 8192) (ent : Slot) :
    exec (.lotEnd q ent) s = .next { s with m := lotEnd q ent s.m } := rfl
theorem exec_lotEndDone :
    exec .lotEndDone s = .next { s with m := lotEndDone s.m } := rfl
theorem exec_fence (q : Fin 8192) (ent : Slot) :
    exec (.fence q ent) s = .next { s with m := fenceCmd q ent s.m } := rfl
theorem exec_ringTx (q : Fin 8192) (msg : List Slot) :
    exec (.ringTx q msg) s = .next { s with m := ringTx q msg s.m } := rfl
theorem exec_verdictCommit :
    exec .verdictCommit s = .next { s with m := verdictCommit s.m } := rfl
theorem exec_mbxGetId (via : MbxVia) :
    exec (.mbxGetId via) s = .next { s with m := mbxGetId via s.m } := rfl
theorem exec_mbxGetCerts (via : MbxVia) :
    exec (.mbxGetCerts via) s = .next { s with m := mbxGetCerts via s.m } := rfl
theorem exec_mbxQuote (via : MbxVia) :
    exec (.mbxQuote via) s = .next { s with m := mbxQuote via s.m } := rfl
theorem exec_mbxHostRegion (via : MbxVia) :
    exec (.mbxHostRegion via) s = .next { s with m := mbxHostRegion via s.m } := rfl
theorem exec_mbxCtxCreate (via : MbxVia) :
    exec (.mbxCtxCreate via) s = .next { s with m := mbxCtxCreate via s.m } := rfl
theorem exec_mbxCtxDelete (via : MbxVia) :
    exec (.mbxCtxDelete via) s = .next { s with m := mbxCtxDelete via s.m } := rfl
theorem exec_mbxCtxSwitch (via : MbxVia) :
    exec (.mbxCtxSwitch via) s = .next { s with m := mbxCtxSwitch via s.m } := rfl
theorem exec_scrubDone :
    exec .scrubDone s = .next { s with m := scrubDone s.m } := rfl
theorem exec_importDone :
    exec .importDone s = .next { s with m := importDone s.m } := rfl
theorem exec_mbxKeyImport (via : MbxVia) :
    exec (.mbxKeyImport via) s = .next { s with m := mbxKeyImport via s.m } := rfl
theorem exec_mbxRevoke (via : MbxVia) :
    exec (.mbxRevoke via) s = .next { s with m := mbxRevoke via s.m } := rfl
theorem exec_mbxRingKeygen (via : MbxVia) :
    exec (.mbxRingKeygen via) s = .next { s with m := mbxRingKeygen via s.m } := rfl
theorem exec_mbxRingInstall (via : MbxVia) :
    exec (.mbxRingInstall via) s = .next { s with m := mbxRingInstall via s.m } := rfl
theorem exec_mbxMgmtCa (via : MbxVia) :
    exec (.mbxMgmtCa via) s = .next { s with m := mbxMgmtCa via s.m } := rfl
theorem exec_mbxFwUpdate (via : MbxVia) :
    exec (.mbxFwUpdate via) s = .next { s with m := mbxFwUpdate via s.m } := rfl
theorem exec_ephemeralExpiry :
    exec .ephemeralExpiry s = .next { s with m := ephemeralExpiry s.m } := rfl
theorem exec_dexzonConnect (hello : DexzonHello) (chain : List Byte) :
    exec (.dexzonConnect hello chain) s = .next { s with m := dexzonConnect hello chain s.m } := rfl
theorem exec_weaveStage (ctl : W32) :
    exec (.weaveStage ctl) s = .next { s with m := weaveStage ctl s.m } := rfl
theorem exec_weaveLoad (ctl : W32) :
    exec (.weaveLoad ctl) s = .next { s with m := weaveLoad ctl s.m } := rfl
theorem exec_weaveActivate (ctl : W32) :
    exec (.weaveActivate ctl) s = .next { s with m := weaveActivate ctl s.m } := rfl
theorem exec_weaveRollback (ctl : W32) :
    exec (.weaveRollback ctl) s = .next { s with m := weaveRollback ctl s.m } := rfl
theorem exec_weaveStop (ctl : W32) :
    exec (.weaveStop ctl) s = .next { s with m := weaveStop ctl s.m } := rfl
theorem exec_weaveDiscard (ctl : W32) :
    exec (.weaveDiscard ctl) s = .next { s with m := weaveDiscard ctl s.m } := rfl
theorem exec_weaveAbort (ctl : W32) :
    exec (.weaveAbort ctl) s = .next { s with m := weaveAbort ctl s.m } := rfl
theorem exec_response :
    exec .response s = .next { s with m := response s.m } := rfl
theorem exec_actNone (r : Fin 32) :
    exec (.actNone r) s = .next { s with m := actNone r s.m } := rfl
theorem exec_actFieldSafe (r : Fin 32) :
    exec (.actFieldSafe r) s = .next { s with m := actFieldSafe r s.m } := rfl
theorem exec_actFieldResume (r : Fin 32) :
    exec (.actFieldResume r) s = .next { s with m := actFieldResume r s.m } := rfl
theorem exec_actFieldResumeWaitEnd (r : Fin 32) :
    exec (.actFieldResumeWaitEnd r) s = .next { s with m := actFieldResumeWaitEnd r s.m } := rfl
theorem exec_actPortOff (r : Fin 32) :
    exec (.actPortOff r) s = .next { s with m := actPortOff r s.m } := rfl
theorem exec_actRingPortOff (r : Fin 32) :
    exec (.actRingPortOff r) s = .next { s with m := actRingPortOff r s.m } := rfl
theorem exec_actWeaveStop (r : Fin 32) :
    exec (.actWeaveStop r) s = .next { s with m := actWeaveStop r s.m } := rfl
theorem exec_actRevoke (r : Fin 32) :
    exec (.actRevoke r) s = .next { s with m := actRevoke r s.m } := rfl
theorem exec_actDump (r : Fin 32) :
    exec (.actDump r) s = .next { s with m := actDump r s.m } := rfl
theorem exec_dumpReq :
    exec .dumpReq s = .next { s with m := dumpReq s.m } := rfl
theorem exec_dumpComplete :
    exec .dumpComplete s = .next { s with m := dumpComplete s.m } := rfl
theorem exec_dumpCopy :
    exec .dumpCopy s = .next { s with m := dumpCopy s.m } := rfl
theorem exec_dumpRelease :
    exec .dumpRelease s = .next { s with m := dumpRelease s.m } := rfl
theorem exec_rplRestart :
    exec .rplRestart s = .next { s with m := rplRestart s.m } := rfl
theorem exec_rplInject :
    exec .rplInject s = .next { s with m := rplInject s.m } := rfl
theorem exec_rplCapture :
    exec .rplCapture s = .next { s with m := rplCapture s.m } := rfl
theorem exec_rplThaw :
    exec .rplThaw s = .next { s with m := rplThaw s.m } := rfl
theorem exec_freeze :
    exec .freeze s = .next { s with m := freezeAt s.m } := rfl
theorem exec_batchCapture (v : W32) :
    exec (.batchCapture v) s = .next { s with m := batchCapture v s.m } := rfl
theorem exec_lplusOk :
    exec .lplusOk s = .next { s with m := lplusOk s.m } := rfl
theorem exec_lplusLoss :
    exec .lplusLoss s = .next { s with m := lplusLoss s.m } := rfl
theorem exec_fieldSideOvertemp (on : Bool) :
    exec (.fieldSideOvertemp on) s = .next { s with m := fieldSideOvertemp on s.m } := rfl
theorem exec_mgmtLinkUp :
    exec .mgmtLinkUp s = .next { s with m := mgmtLinkUp s.m } := rfl
theorem exec_ptpEnable (v : W32) :
    exec (.ptpEnable v) s = .next { s with m := ptpEnable v s.m } := rfl
theorem exec_configurationWrite (r : FldCfgReg) (v : W32) :
    exec (.configurationWrite r v) s = .next { s with m := configurationWrite r v s.m } := rfl
theorem exec_secCfgWrite (v : W32) :
    exec (.secCfgWrite v) s = .next { s with m := secCfgWrite v s.m } := rfl
theorem exec_d3hot (enter : Bool) :
    exec (.d3hot enter) s = .next { s with m := d3hot enter s.m } := rfl
theorem exec_thermWarnClear (temps : List (BitVec 16)) :
    exec (.thermWarnClear temps) s = .next { s with m := thermWarnClear temps s.m } := rfl
theorem exec_vinInRange (vin : BitVec 16) :
    exec (.vinInRange vin) s = .next { s with m := vinInRange vin s.m } := rfl
theorem exec_refRestored :
    exec .refRestored s = .next { s with m := refRestored s.m } := rfl
theorem exec_pllRelock (d : Fin 25) :
    exec (.pllRelock d) s = .next { s with m := pllRelock d s.m } := rfl

end Sys2Proof.Machine
end

