-- ==== Sys2Proof/Laws/Report.lean ====
section
/-! SUPPORT. Registers read back after each way of writing them, and what the report of an event can change. -/
namespace Sys2Proof.Machine

variable {m : Mach}

/-! ### Registers -/

@[simp] theorem reg_setReg (a b : Nat) (v : W32) : (m.setReg a v).reg b = if a = b then v else m.reg b := by
  simp [Mach.reg, Mach.setReg]

theorem reg_setFld (a b hi lo x : Nat) : (m.setFld a hi lo x).reg b = if a = b then setBits (m.reg a) hi lo x else m.reg b := by
  simp [Mach.setFld]

theorem reg_putBit (a b i : Nat) (v : Bool) : (m.putBit a i v).reg b = if a = b then setBits (m.reg a) i i (b2n v) else m.reg b := by
  show (m.setFld a i i (b2n v)).reg b = _
  exact reg_setFld ..

theorem reg_inc (a b : Nat) : (m.inc a).reg b = if a = b then satInc (m.reg a) else m.reg b := by simp [Mach.inc]

theorem reg_incFld (a b hi lo : Nat) (h : a ≠ b) : (m.incFld a hi lo).reg b = m.reg b := by simp [Mach.incFld, reg_setFld, h]

theorem reg_of_regs {a b : Mach} (h : a.regs = b.regs) (k : Nat) : a.reg k = b.reg k := by simp [Mach.reg, h]

/-! ### What a report changes -/

theorem OnlyReported.refl (m : Mach) : m.OnlyReported m := rfl

theorem OnlyReported.trans {a b c : Mach} (h : a.OnlyReported b) (k : b.OnlyReported c) : a.OnlyReported c := by
  unfold Mach.OnlyReported at *
  rw [h] at k
  exact k

theorem onlyReported_regs (x : List (Nat × W32)) : m.OnlyReported { m with regs := x } := rfl

/-- A change that a report may make: nothing but what OnlyReported allows, and no register below the FLT block. -/
def Mach.Quiet (m m' : Mach) : Prop := m.OnlyReported m' ∧ ∀ a, outsideFlt a → m'.reg a = m.reg a

theorem Quiet.refl (m : Mach) : m.Quiet m := ⟨rfl, fun _ _ => rfl⟩

theorem Quiet.trans {a b c : Mach} (h : a.Quiet b) (k : b.Quiet c) : a.Quiet c :=
  ⟨OnlyReported.trans h.1 k.1, fun x hx => (k.2 x hx).trans (h.2 x hx)⟩

theorem Quiet.ite {a b : Mach} {p : Prop} [Decidable p] (ha : m.Quiet a) (hb : m.Quiet b) : m.Quiet (if p then a else b) := by
  split <;> assumption

theorem quiet_setReg {a : Nat} (h : 0x02000000 ≤ a) (v : W32) : m.Quiet (m.setReg a v) :=
  ⟨rfl, fun b hb => by
    have : a ≠ b := fun e => by subst e; exact absurd h (Nat.not_le.mpr hb)
    simp [this]⟩

theorem quiet_putBit {a : Nat} (h : 0x02000000 ≤ a) (i : Nat) (v : Bool) : m.Quiet (m.putBit a i v) :=
  ⟨rfl, fun b hb => by
    have : a ≠ b := fun e => by subst e; exact absurd h (Nat.not_le.mpr hb)
    simp [reg_putBit, this]⟩
theorem quiet_inc {a : Nat} (h : 0x02000000 ≤ a) : m.Quiet (m.inc a) := quiet_setReg h _
theorem quiet_incFld {a : Nat} (h : 0x02000000 ≤ a) (hi lo : Nat) : m.Quiet (m.incFld a hi lo) := quiet_setReg h _

theorem quiet_signal (v : Nat) : m.Quiet (m.signal v) := by
  unfold Mach.signal
  split <;> exact ⟨rfl, fun _ _ => rfl⟩

theorem quiet_signalErr : m.Quiet m.signalErr := by
  unfold Mach.signalErr
  split
  · exact quiet_signal _
  · exact Quiet.refl m

theorem quiet_triggerDump (c : Option Event) (r : Bool) : m.Quiet (m.triggerDump c r) := by
  unfold Mach.triggerDump
  split
  · exact quiet_incFld (by decide) _ _
  · exact Quiet.trans (b := { m with flt := _ }) ⟨rfl, fun _ _ => rfl⟩ (quiet_putBit (by decide) _ _)

theorem quiet_countSev (sev : Nat) : m.Quiet (m.countSev sev) := by
  unfold Mach.countSev
  repeat' split
  all_goals first | exact quiet_inc (by decide) | exact Quiet.refl m

theorem quiet_callResponses (e : Event) : m.Quiet (m.callResponses e) := by
  unfold Mach.callResponses
  split
  · exact Quiet.refl m
  · exact ⟨rfl, fun _ _ => rfl⟩

theorem quiet_logEvent (e : Event) : m.Quiet (m.logEvent e) := by
  unfold Mach.logEvent
  refine Quiet.ite ?_ ?_
  · refine Quiet.trans ?_ quiet_signalErr
    exact Quiet.trans (b := { m with flt := _ }) ⟨rfl, fun _ _ => rfl⟩ (quiet_setReg (by decide) _)
  · exact Quiet.trans (b := { m with flt := _ }) ⟨rfl, fun _ _ => rfl⟩ (quiet_setReg (by decide) _)

theorem quiet_tryLog (e : Event) : m.Quiet (m.tryLog e) := by
  unfold Mach.tryLog
  refine Quiet.ite (quiet_inc (by decide)) (Quiet.ite (Quiet.refl m) (Quiet.ite (quiet_logEvent e) ?_))
  exact Quiet.trans (quiet_inc (by decide)) (quiet_putBit (by decide) _ _)

theorem quiet_fatal (e : Event) : m.Quiet (m.fatal e) := by
  unfold Mach.fatal
  exact Quiet.ite (Quiet.trans (Quiet.trans (quiet_putBit (by decide) _ _) (quiet_triggerDump _ _)) quiet_signalErr) (Quiet.refl m)

/-- A report changes registers of the FLT block, the FLT block, and interrupts, and nothing else. -/
theorem quiet_report (e : Event) : m.Quiet (m.report e) :=
  Quiet.trans (Quiet.trans (Quiet.trans (quiet_countSev _) (quiet_callResponses e)) (quiet_tryLog e)) (quiet_fatal e)

theorem quiet_noteRun (b i s : Nat) : m.Quiet (m.noteRun b i s) := by
  unfold Mach.noteRun
  split
  · exact Quiet.ite ⟨rfl, fun _ _ => rfl⟩ (Quiet.refl m)
  · exact Quiet.refl m

/-- A DEV event changes only what a report may change. -/
theorem quiet_dev (b s : Nat) (x : EvX) : m.Quiet (m.dev b s x) := Quiet.trans (quiet_noteRun _ _ _) (quiet_report _)

/-- What follows a change that a raise makes may only report. -/
theorem raised_of_quiet {err bit : Nat} {m' : Mach} (he : outsideFlt err) (h : (m.putBit err bit true).Quiet m') :
    m.Raised m' err bit :=
  ⟨OnlyReported.trans (b := m.putBit err bit true) rfl h.1, h.2 err he, fun a ha hn => by rw [h.2 a ha, reg_putBit, if_neg (Ne.symm hn)]⟩

/-- A raised error sets its bit, and changes only what a report may change. -/
theorem raised_raise {err en block bit source : Nat} {x : EvX} (he : outsideFlt err) :
    m.Raised (m.raise err en block bit source x) err bit := by
  refine raised_of_quiet he ?_
  unfold Mach.raise
  exact Quiet.ite (Quiet.trans (quiet_noteRun _ _ _) (quiet_report _)) (quiet_noteRun _ _ _)

end Sys2Proof.Machine
end

