-- ==== Sys2Proof/Laws/Slots.lean ====
section
/-! SUPPORT. For each operation of a bundle: its slot, when it is well formed, the conditions that hold it and what it does when it
issues; each by evaluation, so that no proof splits over the commands. -/
namespace Sys2Proof.Machine

variable (m : Mach) (t : TileIdx)

@[simp] theorem nop_form (u : TileIdx) (sl : SlotName) : slotOf (.nop u sl) = sl ∧ wellFormed (.nop u sl) = true := ⟨rfl, rfl⟩
@[simp] theorem nop_issue (u : TileIdx) (sl : SlotName) :
    m.opUnmet t (.nop u sl) = Unmet.none ∧ m.issueOp t (.nop u sl) = if sl = .ctl then m.nextPc t else m := ⟨rfl, rfl⟩
@[simp] theorem macMm_form (u : TileIdx) (p : Pred) (f : MmF) : slotOf (.macMm u p f) = .mac ∧ wellFormed (.macMm u p f) = (tmOk f.tm) := ⟨rfl, rfl⟩
@[simp] theorem macMm_issue (u : TileIdx) (p : Pred) (f : MmF) :
    m.opUnmet t (.macMm u p f) = m.unmetMm t f ∧ m.issueOp t (.macMm u p f) = m.issueMm t p f := ⟨rfl, rfl⟩
@[simp] theorem macWld_form (u : TileIdx) (p : Pred) (f : WldF) : slotOf (.macWld u p f) = .mac ∧ wellFormed (.macWld u p f) = (tmOk f.tm && decide (f.fmt.toNat ≤ 9) && (decide (f.part.toNat ≤ 8) || f.part == 15)) := ⟨rfl, rfl⟩
@[simp] theorem macWld_issue (u : TileIdx) (p : Pred) (f : WldF) :
    m.opUnmet t (.macWld u p f) = m.macUnmet t f.n f.tm ∧ m.issueOp t (.macWld u p f) = m.issueWld t p f := ⟨rfl, rfl⟩
@[simp] theorem macXld_form (u : TileIdx) (p : Pred) (f : XldF) : slotOf (.macXld u p f) = .mac ∧ wellFormed (.macXld u p f) = (tmOk f.tm) := ⟨rfl, rfl⟩
@[simp] theorem macXld_issue (u : TileIdx) (p : Pred) (f : XldF) :
    m.opUnmet t (.macXld u p f) = m.macUnmet t f.n f.tm ∧ m.issueOp t (.macXld u p f) = m.issueXld t p f := ⟨rfl, rfl⟩
@[simp] theorem macAclr_form (u : TileIdx) (p : Pred) (row : BitVec 6) (cnt : BitVec 6) : slotOf (.macAclr u p row cnt) = .mac ∧ wellFormed (.macAclr u p row cnt) = true := ⟨rfl, rfl⟩
@[simp] theorem macAclr_issue (u : TileIdx) (p : Pred) (row : BitVec 6) (cnt : BitVec 6) :
    m.opUnmet t (.macAclr u p row cnt) = Unmet.none ∧ m.issueOp t (.macAclr u p row cnt) = m.issueAclr t p row cnt := ⟨rfl, rfl⟩
@[simp] theorem vecAdd_form (u : TileIdx) (p : Pred) (f : VecF) : slotOf (.vecAdd u p f) = .vec ∧ wellFormed (.vecAdd u p f) = (typeOk [0, 1, 2] f) := ⟨rfl, rfl⟩
@[simp] theorem vecAdd_issue (u : TileIdx) (p : Pred) (f : VecF) :
    m.opUnmet t (.vecAdd u p f) = Unmet.none ∧ m.issueOp t (.vecAdd u p f) = m.issueAdd t p f := ⟨rfl, rfl⟩
@[simp] theorem vecSub_form (u : TileIdx) (p : Pred) (f : VecF) : slotOf (.vecSub u p f) = .vec ∧ wellFormed (.vecSub u p f) = (typeOk [0, 1, 2] f) := ⟨rfl, rfl⟩
@[simp] theorem vecSub_issue (u : TileIdx) (p : Pred) (f : VecF) :
    m.opUnmet t (.vecSub u p f) = Unmet.none ∧ m.issueOp t (.vecSub u p f) = m.issueSub t p f := ⟨rfl, rfl⟩
@[simp] theorem vecMul_form (u : TileIdx) (p : Pred) (f : VecF) : slotOf (.vecMul u p f) = .vec ∧ wellFormed (.vecMul u p f) = (typeOk [0, 1, 2] f) := ⟨rfl, rfl⟩
@[simp] theorem vecMul_issue (u : TileIdx) (p : Pred) (f : VecF) :
    m.opUnmet t (.vecMul u p f) = Unmet.none ∧ m.issueOp t (.vecMul u p f) = m.issueMul t p f := ⟨rfl, rfl⟩
@[simp] theorem vecFma_form (u : TileIdx) (p : Pred) (f : VecF) : slotOf (.vecFma u p f) = .vec ∧ wellFormed (.vecFma u p f) = (typeOk [0, 1, 2] f) := ⟨rfl, rfl⟩
@[simp] theorem vecFma_issue (u : TileIdx) (p : Pred) (f : VecF) :
    m.opUnmet t (.vecFma u p f) = Unmet.none ∧ m.issueOp t (.vecFma u p f) = m.issueFma t p f := ⟨rfl, rfl⟩
@[simp] theorem vecMin_form (u : TileIdx) (p : Pred) (f : VecF) : slotOf (.vecMin u p f) = .vec ∧ wellFormed (.vecMin u p f) = (typeOk [0, 1] f) := ⟨rfl, rfl⟩
@[simp] theorem vecMin_issue (u : TileIdx) (p : Pred) (f : VecF) :
    m.opUnmet t (.vecMin u p f) = Unmet.none ∧ m.issueOp t (.vecMin u p f) = m.issueMin t p f := ⟨rfl, rfl⟩
@[simp] theorem vecMax_form (u : TileIdx) (p : Pred) (f : VecF) : slotOf (.vecMax u p f) = .vec ∧ wellFormed (.vecMax u p f) = (typeOk [0, 1] f) := ⟨rfl, rfl⟩
@[simp] theorem vecMax_issue (u : TileIdx) (p : Pred) (f : VecF) :
    m.opUnmet t (.vecMax u p f) = Unmet.none ∧ m.issueOp t (.vecMax u p f) = m.issueMax t p f := ⟨rfl, rfl⟩
@[simp] theorem vecAbs_form (u : TileIdx) (p : Pred) (f : VecF) : slotOf (.vecAbs u p f) = .vec ∧ wellFormed (.vecAbs u p f) = (typeOk [0, 1] f) := ⟨rfl, rfl⟩
@[simp] theorem vecAbs_issue (u : TileIdx) (p : Pred) (f : VecF) :
    m.opUnmet t (.vecAbs u p f) = Unmet.none ∧ m.issueOp t (.vecAbs u p f) = m.issueAbs t p f := ⟨rfl, rfl⟩
@[simp] theorem vecNeg_form (u : TileIdx) (p : Pred) (f : VecF) : slotOf (.vecNeg u p f) = .vec ∧ wellFormed (.vecNeg u p f) = (typeOk [0, 1] f) := ⟨rfl, rfl⟩
@[simp] theorem vecNeg_issue (u : TileIdx) (p : Pred) (f : VecF) :
    m.opUnmet t (.vecNeg u p f) = Unmet.none ∧ m.issueOp t (.vecNeg u p f) = m.issueNeg t p f := ⟨rfl, rfl⟩
@[simp] theorem vecClt_form (u : TileIdx) (p : Pred) (f : VecF) : slotOf (.vecClt u p f) = .vec ∧ wellFormed (.vecClt u p f) = (typeOk [0, 1] f) := ⟨rfl, rfl⟩
@[simp] theorem vecClt_issue (u : TileIdx) (p : Pred) (f : VecF) :
    m.opUnmet t (.vecClt u p f) = Unmet.none ∧ m.issueOp t (.vecClt u p f) = m.issueClt t p f := ⟨rfl, rfl⟩
@[simp] theorem vecCeq_form (u : TileIdx) (p : Pred) (f : VecF) : slotOf (.vecCeq u p f) = .vec ∧ wellFormed (.vecCeq u p f) = (typeOk [0, 1] f) := ⟨rfl, rfl⟩
@[simp] theorem vecCeq_issue (u : TileIdx) (p : Pred) (f : VecF) :
    m.opUnmet t (.vecCeq u p f) = Unmet.none ∧ m.issueOp t (.vecCeq u p f) = m.issueCeq t p f := ⟨rfl, rfl⟩
@[simp] theorem vecSel_form (u : TileIdx) (p : Pred) (f : VecF) : slotOf (.vecSel u p f) = .vec ∧ wellFormed (.vecSel u p f) = (anyType f) := ⟨rfl, rfl⟩
@[simp] theorem vecSel_issue (u : TileIdx) (p : Pred) (f : VecF) :
    m.opUnmet t (.vecSel u p f) = Unmet.none ∧ m.issueOp t (.vecSel u p f) = m.issueSel t p f := ⟨rfl, rfl⟩
@[simp] theorem vecAnd_form (u : TileIdx) (p : Pred) (f : VecF) : slotOf (.vecAnd u p f) = .vec ∧ wellFormed (.vecAnd u p f) = (anyType f) := ⟨rfl, rfl⟩
@[simp] theorem vecAnd_issue (u : TileIdx) (p : Pred) (f : VecF) :
    m.opUnmet t (.vecAnd u p f) = Unmet.none ∧ m.issueOp t (.vecAnd u p f) = m.issueAnd t p f := ⟨rfl, rfl⟩
@[simp] theorem vecOr_form (u : TileIdx) (p : Pred) (f : VecF) : slotOf (.vecOr u p f) = .vec ∧ wellFormed (.vecOr u p f) = (anyType f) := ⟨rfl, rfl⟩
@[simp] theorem vecOr_issue (u : TileIdx) (p : Pred) (f : VecF) :
    m.opUnmet t (.vecOr u p f) = Unmet.none ∧ m.issueOp t (.vecOr u p f) = m.issueOr t p f := ⟨rfl, rfl⟩
@[simp] theorem vecXor_form (u : TileIdx) (p : Pred) (f : VecF) : slotOf (.vecXor u p f) = .vec ∧ wellFormed (.vecXor u p f) = (anyType f) := ⟨rfl, rfl⟩
@[simp] theorem vecXor_issue (u : TileIdx) (p : Pred) (f : VecF) :
    m.opUnmet t (.vecXor u p f) = Unmet.none ∧ m.issueOp t (.vecXor u p f) = m.issueXor t p f := ⟨rfl, rfl⟩
@[simp] theorem vecShl_form (u : TileIdx) (p : Pred) (f : VecF) : slotOf (.vecShl u p f) = .vec ∧ wellFormed (.vecShl u p f) = (typeOk [1] f) := ⟨rfl, rfl⟩
@[simp] theorem vecShl_issue (u : TileIdx) (p : Pred) (f : VecF) :
    m.opUnmet t (.vecShl u p f) = Unmet.none ∧ m.issueOp t (.vecShl u p f) = m.issueShl t p f := ⟨rfl, rfl⟩
@[simp] theorem vecShr_form (u : TileIdx) (p : Pred) (f : VecF) : slotOf (.vecShr u p f) = .vec ∧ wellFormed (.vecShr u p f) = (typeOk [1] f) := ⟨rfl, rfl⟩
@[simp] theorem vecShr_issue (u : TileIdx) (p : Pred) (f : VecF) :
    m.opUnmet t (.vecShr u p f) = Unmet.none ∧ m.issueOp t (.vecShr u p f) = m.issueShr t p f := ⟨rfl, rfl⟩
@[simp] theorem vecSra_form (u : TileIdx) (p : Pred) (f : VecF) : slotOf (.vecSra u p f) = .vec ∧ wellFormed (.vecSra u p f) = (typeOk [1] f) := ⟨rfl, rfl⟩
@[simp] theorem vecSra_issue (u : TileIdx) (p : Pred) (f : VecF) :
    m.opUnmet t (.vecSra u p f) = Unmet.none ∧ m.issueOp t (.vecSra u p f) = m.issueSra t p f := ⟨rfl, rfl⟩
@[simp] theorem vecRcp_form (u : TileIdx) (p : Pred) (f : VecF) : slotOf (.vecRcp u p f) = .vec ∧ wellFormed (.vecRcp u p f) = (typeOk [0] f) := ⟨rfl, rfl⟩
@[simp] theorem vecRcp_issue (u : TileIdx) (p : Pred) (f : VecF) :
    m.opUnmet t (.vecRcp u p f) = Unmet.none ∧ m.issueOp t (.vecRcp u p f) = m.issueRcp t p f := ⟨rfl, rfl⟩
@[simp] theorem vecRsq_form (u : TileIdx) (p : Pred) (f : VecF) : slotOf (.vecRsq u p f) = .vec ∧ wellFormed (.vecRsq u p f) = (typeOk [0] f) := ⟨rfl, rfl⟩
@[simp] theorem vecRsq_issue (u : TileIdx) (p : Pred) (f : VecF) :
    m.opUnmet t (.vecRsq u p f) = Unmet.none ∧ m.issueOp t (.vecRsq u p f) = m.issueRsq t p f := ⟨rfl, rfl⟩
@[simp] theorem vecExp2_form (u : TileIdx) (p : Pred) (f : VecF) : slotOf (.vecExp2 u p f) = .vec ∧ wellFormed (.vecExp2 u p f) = (typeOk [0] f) := ⟨rfl, rfl⟩
@[simp] theorem vecExp2_issue (u : TileIdx) (p : Pred) (f : VecF) :
    m.opUnmet t (.vecExp2 u p f) = Unmet.none ∧ m.issueOp t (.vecExp2 u p f) = m.issueExp2 t p f := ⟨rfl, rfl⟩
@[simp] theorem vecLog2_form (u : TileIdx) (p : Pred) (f : VecF) : slotOf (.vecLog2 u p f) = .vec ∧ wellFormed (.vecLog2 u p f) = (typeOk [0] f) := ⟨rfl, rfl⟩
@[simp] theorem vecLog2_issue (u : TileIdx) (p : Pred) (f : VecF) :
    m.opUnmet t (.vecLog2 u p f) = Unmet.none ∧ m.issueOp t (.vecLog2 u p f) = m.issueLog2 t p f := ⟨rfl, rfl⟩
@[simp] theorem vecRsum_form (u : TileIdx) (p : Pred) (f : VecF) : slotOf (.vecRsum u p f) = .vec ∧ wellFormed (.vecRsum u p f) = (typeOk [0, 1] f) := ⟨rfl, rfl⟩
@[simp] theorem vecRsum_issue (u : TileIdx) (p : Pred) (f : VecF) :
    m.opUnmet t (.vecRsum u p f) = Unmet.none ∧ m.issueOp t (.vecRsum u p f) = m.issueRsum t p f := ⟨rfl, rfl⟩
@[simp] theorem vecRmax_form (u : TileIdx) (p : Pred) (f : VecF) : slotOf (.vecRmax u p f) = .vec ∧ wellFormed (.vecRmax u p f) = (typeOk [0, 1] f) := ⟨rfl, rfl⟩
@[simp] theorem vecRmax_issue (u : TileIdx) (p : Pred) (f : VecF) :
    m.opUnmet t (.vecRmax u p f) = Unmet.none ∧ m.issueOp t (.vecRmax u p f) = m.issueRmax t p f := ⟨rfl, rfl⟩
@[simp] theorem vecShuf_form (u : TileIdx) (p : Pred) (f : VecF) : slotOf (.vecShuf u p f) = .vec ∧ wellFormed (.vecShuf u p f) = (anyType f) := ⟨rfl, rfl⟩
@[simp] theorem vecShuf_issue (u : TileIdx) (p : Pred) (f : VecF) :
    m.opUnmet t (.vecShuf u p f) = Unmet.none ∧ m.issueOp t (.vecShuf u p f) = m.issueShuf t p f := ⟨rfl, rfl⟩
@[simp] theorem vecRot_form (u : TileIdx) (p : Pred) (f : VecF) : slotOf (.vecRot u p f) = .vec ∧ wellFormed (.vecRot u p f) = (anyType f) := ⟨rfl, rfl⟩
@[simp] theorem vecRot_issue (u : TileIdx) (p : Pred) (f : VecF) :
    m.opUnmet t (.vecRot u p f) = Unmet.none ∧ m.issueOp t (.vecRot u p f) = m.issueRot t p f := ⟨rfl, rfl⟩
@[simp] theorem vecBcst_form (u : TileIdx) (p : Pred) (f : VecF) : slotOf (.vecBcst u p f) = .vec ∧ wellFormed (.vecBcst u p f) = (anyType f) := ⟨rfl, rfl⟩
@[simp] theorem vecBcst_issue (u : TileIdx) (p : Pred) (f : VecF) :
    m.opUnmet t (.vecBcst u p f) = Unmet.none ∧ m.issueOp t (.vecBcst u p f) = m.issueBcst t p f := ⟨rfl, rfl⟩
@[simp] theorem vecCvt_form (u : TileIdx) (p : Pred) (f : VecF) : slotOf (.vecCvt u p f) = .vec ∧ wellFormed (.vecCvt u p f) = (typeOk [0] f && decide (f.vc.toNat ≤ 7)) := ⟨rfl, rfl⟩
@[simp] theorem vecCvt_issue (u : TileIdx) (p : Pred) (f : VecF) :
    m.opUnmet t (.vecCvt u p f) = Unmet.none ∧ m.issueOp t (.vecCvt u p f) = m.issueCvt t p f := ⟨rfl, rfl⟩
@[simp] theorem vecQnt_form (u : TileIdx) (p : Pred) (f : VecF) : slotOf (.vecQnt u p f) = .vec ∧ wellFormed (.vecQnt u p f) = (typeOk [1] f && decide (f.md.toNat ≤ 3)) := ⟨rfl, rfl⟩
@[simp] theorem vecQnt_issue (u : TileIdx) (p : Pred) (f : VecF) :
    m.opUnmet t (.vecQnt u p f) = Unmet.none ∧ m.issueOp t (.vecQnt u p f) = m.issueQnt t p f := ⟨rfl, rfl⟩
@[simp] theorem vecSrnd_form (u : TileIdx) (p : Pred) (f : VecF) : slotOf (.vecSrnd u p f) = .vec ∧ wellFormed (.vecSrnd u p f) = (typeOk [0] f) := ⟨rfl, rfl⟩
@[simp] theorem vecSrnd_issue (u : TileIdx) (p : Pred) (f : VecF) :
    m.opUnmet t (.vecSrnd u p f) = Unmet.none ∧ m.issueOp t (.vecSrnd u p f) = m.issueSrnd t p f := ⟨rfl, rfl⟩
@[simp] theorem vecGen_form (u : TileIdx) (p : Pred) (f : VecF) : slotOf (.vecGen u p f) = .vec ∧ wellFormed (.vecGen u p f) = (typeOk [0] f) := ⟨rfl, rfl⟩
@[simp] theorem vecGen_issue (u : TileIdx) (p : Pred) (f : VecF) :
    m.opUnmet t (.vecGen u p f) = Unmet.none ∧ m.issueOp t (.vecGen u p f) = m.issueGen t p f := ⟨rfl, rfl⟩
@[simp] theorem vecRdac_form (u : TileIdx) (p : Pred) (f : VecF) : slotOf (.vecRdac u p f) = .vec ∧ wellFormed (.vecRdac u p f) = (typeOk [0] f) := ⟨rfl, rfl⟩
@[simp] theorem vecRdac_issue (u : TileIdx) (p : Pred) (f : VecF) :
    m.opUnmet t (.vecRdac u p f) = Unmet.none ∧ m.issueOp t (.vecRdac u p f) = m.issueRdac t p f := ⟨rfl, rfl⟩
@[simp] theorem vecWrac_form (u : TileIdx) (p : Pred) (f : VecF) : slotOf (.vecWrac u p f) = .vec ∧ wellFormed (.vecWrac u p f) = (typeOk [0] f) := ⟨rfl, rfl⟩
@[simp] theorem vecWrac_issue (u : TileIdx) (p : Pred) (f : VecF) :
    m.opUnmet t (.vecWrac u p f) = Unmet.none ∧ m.issueOp t (.vecWrac u p f) = m.issueWrac t p f := ⟨rfl, rfl⟩
@[simp] theorem vecMovv_form (u : TileIdx) (p : Pred) (f : VecF) : slotOf (.vecMovv u p f) = .vec ∧ wellFormed (.vecMovv u p f) = (anyType f) := ⟨rfl, rfl⟩
@[simp] theorem vecMovv_issue (u : TileIdx) (p : Pred) (f : VecF) :
    m.opUnmet t (.vecMovv u p f) = Unmet.none ∧ m.issueOp t (.vecMovv u p f) = m.issueMovv t p f := ⟨rfl, rfl⟩
@[simp] theorem movLdv_form (u : TileIdx) (p : Pred) (f : LdvF) : slotOf (.movLdv u p f) = .mov ∧ wellFormed (.movLdv u p f) = (ldvOk f) := ⟨rfl, rfl⟩
@[simp] theorem movLdv_issue (u : TileIdx) (p : Pred) (f : LdvF) :
    m.opUnmet t (.movLdv u p f) = m.unmetRead t f.n f.off (tmInForce f) ∧ m.issueOp t (.movLdv u p f) = m.issueLdv t p f := ⟨rfl, rfl⟩
@[simp] theorem movStv_form (u : TileIdx) (p : Pred) (f : LdvF) : slotOf (.movStv u p f) = .mov ∧ wellFormed (.movStv u p f) = (ldvOk f) := ⟨rfl, rfl⟩
@[simp] theorem movStv_issue (u : TileIdx) (p : Pred) (f : LdvF) :
    m.opUnmet t (.movStv u p f) = m.unmetStv t f ∧ m.issueOp t (.movStv u p f) = m.issueStv t p f := ⟨rfl, rfl⟩
@[simp] theorem movCpy_form (u : TileIdx) (p : Pred) (f : CpyF) : slotOf (.movCpy u p f) = .mov ∧ wellFormed (.movCpy u p f) = (tmOk f.tm && tmOk f.tm2) := ⟨rfl, rfl⟩
@[simp] theorem movCpy_issue (u : TileIdx) (p : Pred) (f : CpyF) :
    m.opUnmet t (.movCpy u p f) = m.unmetCpy t f ∧ m.issueOp t (.movCpy u p f) = m.issueCpy t p f := ⟨rfl, rfl⟩
@[simp] theorem movPut_form (u : TileIdx) (p : Pred) (f : PutF) : slotOf (.movPut u p f) = .mov ∧ wellFormed (.movPut u p f) = (tmOk f.tm) := ⟨rfl, rfl⟩
@[simp] theorem movPut_issue (u : TileIdx) (p : Pred) (f : PutF) :
    m.opUnmet t (.movPut u p f) = m.unmetPut t f ∧ m.issueOp t (.movPut u p f) = m.issuePut t p f := ⟨rfl, rfl⟩
@[simp] theorem movGld_form (u : TileIdx) (p : Pred) (f : GldF) : slotOf (.movGld u p f) = .mov ∧ wellFormed (.movGld u p f) = (tmOk f.tm) := ⟨rfl, rfl⟩
@[simp] theorem movGld_issue (u : TileIdx) (p : Pred) (f : GldF) :
    m.opUnmet t (.movGld u p f) = m.unmetGld t f ∧ m.issueOp t (.movGld u p f) = m.issueGld t p f := ⟨rfl, rfl⟩
@[simp] theorem movGst_form (u : TileIdx) (p : Pred) (f : GldF) : slotOf (.movGst u p f) = .mov ∧ wellFormed (.movGst u p f) = (tmOk f.tm) := ⟨rfl, rfl⟩
@[simp] theorem movGst_issue (u : TileIdx) (p : Pred) (f : GldF) :
    m.opUnmet t (.movGst u p f) = m.unmetGst t f ∧ m.issueOp t (.movGst u p f) = m.issueGst t p f := ⟨rfl, rfl⟩
@[simp] theorem movSeta_form (u : TileIdx) (p : Pred) (n : BitVec 4) (imm : BitVec 13) : slotOf (.movSeta u p n imm) = .mov ∧ wellFormed (.movSeta u p n imm) = true := ⟨rfl, rfl⟩
@[simp] theorem movSeta_issue (u : TileIdx) (p : Pred) (n : BitVec 4) (imm : BitVec 13) :
    m.opUnmet t (.movSeta u p n imm) = Unmet.none ∧ m.issueOp t (.movSeta u p n imm) = m.issueSeta t p n imm := ⟨rfl, rfl⟩
@[simp] theorem movTags_form (u : TileIdx) (p : Pred) (n : BitVec 4) (inc : Bool) (tag : Bool) (off : BitVec 11) : slotOf (.movTags u p n inc tag off) = .mov ∧ wellFormed (.movTags u p n inc tag off) = true := ⟨rfl, rfl⟩
@[simp] theorem movTags_issue (u : TileIdx) (p : Pred) (n : BitVec 4) (inc : Bool) (tag : Bool) (off : BitVec 11) :
    m.opUnmet t (.movTags u p n inc tag off) = Unmet.none ∧ m.issueOp t (.movTags u p n inc tag off) = m.issueTags t p n inc tag off := ⟨rfl, rfl⟩
@[simp] theorem movVout_form (u : TileIdx) (n : BitVec 4) (tm : BitVec 2) (inc : Bool) : slotOf (.movVout u n tm inc) = .mov ∧ wellFormed (.movVout u n tm inc) = (tmOk tm) := ⟨rfl, rfl⟩
@[simp] theorem movVout_issue (u : TileIdx) (n : BitVec 4) (tm : BitVec 2) (inc : Bool) :
    m.opUnmet t (.movVout u n tm inc) = m.unmetRead t n 0 tm.toNat ∧ m.issueOp t (.movVout u n tm inc) = m.issueVout t n tm inc := ⟨rfl, rfl⟩
@[simp] theorem syncLwait_form (u : TileIdx) (n : BitVec 4) (imm : BitVec 8) : slotOf (.syncLwait u n imm) = .sync ∧ wellFormed (.syncLwait u n imm) = (decide (1 ≤ imm.toNat)) := ⟨rfl, rfl⟩
@[simp] theorem syncLwait_issue (u : TileIdx) (n : BitVec 4) (imm : BitVec 8) :
    m.opUnmet t (.syncLwait u n imm) = m.unmetLwait t n ∧ m.issueOp t (.syncLwait u n imm) = m.issueLwait t := ⟨rfl, rfl⟩
@[simp] theorem syncLsig_form (u : TileIdx) (n : BitVec 4) (imm : BitVec 8) : slotOf (.syncLsig u n imm) = .sync ∧ wellFormed (.syncLsig u n imm) = (decide (1 ≤ imm.toNat)) := ⟨rfl, rfl⟩
@[simp] theorem syncLsig_issue (u : TileIdx) (n : BitVec 4) (imm : BitVec 8) :
    m.opUnmet t (.syncLsig u n imm) = Unmet.none ∧ m.issueOp t (.syncLsig u n imm) = m.issueLsig t n imm := ⟨rfl, rfl⟩
@[simp] theorem syncNext_form (u : TileIdx) (n : BitVec 4) : slotOf (.syncNext u n) = .sync ∧ wellFormed (.syncNext u n) = true := ⟨rfl, rfl⟩
@[simp] theorem syncNext_issue (u : TileIdx) (n : BitVec 4) :
    m.opUnmet t (.syncNext u n) = m.unmetNext t n ∧ m.issueOp t (.syncNext u n) = m.issueNext t n := ⟨rfl, rfl⟩
@[simp] theorem syncPass_form (u : TileIdx) (n : BitVec 4) : slotOf (.syncPass u n) = .sync ∧ wellFormed (.syncPass u n) = true := ⟨rfl, rfl⟩
@[simp] theorem syncPass_issue (u : TileIdx) (n : BitVec 4) :
    m.opUnmet t (.syncPass u n) = m.unmetPass t n ∧ m.issueOp t (.syncPass u n) = m.issuePass t n := ⟨rfl, rfl⟩
@[simp] theorem syncWopn_form (u : TileIdx) (w : BitVec 3) : slotOf (.syncWopn u w) = .sync ∧ wellFormed (.syncWopn u w) = true := ⟨rfl, rfl⟩
@[simp] theorem syncWopn_issue (u : TileIdx) (w : BitVec 3) :
    m.opUnmet t (.syncWopn u w) = Unmet.none ∧ m.issueOp t (.syncWopn u w) = m.issueWopn t w := ⟨rfl, rfl⟩
@[simp] theorem syncWcls_form (u : TileIdx) (w : BitVec 3) : slotOf (.syncWcls u w) = .sync ∧ wellFormed (.syncWcls u w) = true := ⟨rfl, rfl⟩
@[simp] theorem syncWcls_issue (u : TileIdx) (w : BitVec 3) :
    m.opUnmet t (.syncWcls u w) = Unmet.none ∧ m.issueOp t (.syncWcls u w) = m.issueWcls t w := ⟨rfl, rfl⟩
@[simp] theorem ctlLoop_form (u : TileIdx) (level : BitVec 2) (n : BitVec 4) : slotOf (.ctlLoop u level n) = .ctl ∧ wellFormed (.ctlLoop u level n) = true := ⟨rfl, rfl⟩
@[simp] theorem ctlLoop_issue (u : TileIdx) (level : BitVec 2) (n : BitVec 4) :
    m.opUnmet t (.ctlLoop u level n) = Unmet.none ∧ m.issueOp t (.ctlLoop u level n) = m.issueLoop t level n := ⟨rfl, rfl⟩
@[simp] theorem ctlEndl_form (u : TileIdx) (level : BitVec 2) : slotOf (.ctlEndl u level) = .ctl ∧ wellFormed (.ctlEndl u level) = true := ⟨rfl, rfl⟩
@[simp] theorem ctlEndl_issue (u : TileIdx) (level : BitVec 2) :
    m.opUnmet t (.ctlEndl u level) = Unmet.none ∧ m.issueOp t (.ctlEndl u level) = m.issueEndl t level := ⟨rfl, rfl⟩
@[simp] theorem ctlStep_form (u : TileIdx) : slotOf (.ctlStep u) = .ctl ∧ wellFormed (.ctlStep u) = true := ⟨rfl, rfl⟩
@[simp] theorem ctlStep_issue (u : TileIdx) :
    m.opUnmet t (.ctlStep u) = Unmet.none ∧ m.issueOp t (.ctlStep u) = m.issueStep t := ⟨rfl, rfl⟩
@[simp] theorem ctlArst_form (u : TileIdx) (kind : BitVec 3) (index : BitVec 4) : slotOf (.ctlArst u kind index) = .ctl ∧ wellFormed (.ctlArst u kind index) = (arstOk kind index) := ⟨rfl, rfl⟩
@[simp] theorem ctlArst_issue (u : TileIdx) (kind : BitVec 3) (index : BitVec 4) :
    m.opUnmet t (.ctlArst u kind index) = Unmet.none ∧ m.issueOp t (.ctlArst u kind index) = m.issueArst t kind index := ⟨rfl, rfl⟩
@[simp] theorem ctlTaly_form (u : TileIdx) (stream : BitVec 3) : slotOf (.ctlTaly u stream) = .ctl ∧ wellFormed (.ctlTaly u stream) = true := ⟨rfl, rfl⟩
@[simp] theorem ctlTaly_issue (u : TileIdx) (stream : BitVec 3) :
    m.opUnmet t (.ctlTaly u stream) = Unmet.none ∧ m.issueOp t (.ctlTaly u stream) = m.issueTaly t stream := ⟨rfl, rfl⟩
@[simp] theorem ctlHalt_form (u : TileIdx) : slotOf (.ctlHalt u) = .ctl ∧ wellFormed (.ctlHalt u) = true := ⟨rfl, rfl⟩
@[simp] theorem ctlHalt_issue (u : TileIdx) :
    m.opUnmet t (.ctlHalt u) = Unmet.none ∧ m.issueOp t (.ctlHalt u) = m.issueHalt t := ⟨rfl, rfl⟩

end Sys2Proof.Machine
end

