-- ==== Sys2Proof/Tests/Slice0.lean ====
section
/-! SUPPORT. Tests of the model: ill-formed operations that the checks refuse, one or two small steps per command with results worked out
from the spec by hand, and for each statement states and operands that meet its hypotheses together. -/
namespace Sys2Proof.Tests
open Sys2Proof Sys2Proof.Machine

set_option Elab.async false

/-! ### Helpers -/

/-- The state after reset with another module. -/
def withMach (m : Mach) : State := { State.reset with m := m }

/-- The module after a command; as it was if the command answers no next state. -/
def after (c : Instr) (m : Mach) : Mach :=
  match exec c (withMach m) with
  | .next s => s.m
  | _ => m

/-- A module that is up: supplies and clocks good, aligned, booted, DDR4 ready (R464). -/
def upMach : Mach :=
  { Mach.reset with pwr := { Pwr.off with
      vin := true, inReset := false, good := Mach.reset.variant.domains, locks := Mach.reset.variant.clocks, refOk := true, aligned := true,
      bootOk := true, ddrReady := true } }

/-! ### Tiles -/

def onTile : Tile := { Tile.idle with mode := .run, assigned := true }
def tileMach (x : Tile) : Mach := upMach.setTile 0 x
def runMach : Mach := tileMach onTile
def always : Pred := { pe := false, ppol := false, pflg := 0, sel := false }
def vf (ty md : BitVec 3) : VecF := { vd := 3, va := 1, vb := 2, vc := 4, ty := ty, md := md }
def mmF (tm : BitVec 2) : MmF := { n := 0, tm := tm, inc := false, aoff := 0, p := false, z := true, ws := false, ph := false, xsel := 0 }
def wldF (tm : BitVec 2) (fmt part : BitVec 4) : WldF := { n := 0, tm := tm, inc := false, ws := false, part := part, fmt := fmt }
def xldF (tm : BitVec 2) : XldF := { n := 0, tm := tm, inc := false }
def ldvF (tm : BitVec 2) (fmt : BitVec 3) (h : Bool) (x : BitVec 5) : LdvF :=
  { n := 0, tm := tm, inc := false, x := x, fmt := fmt, h := h, off := 0 }
def cpyF (tm tm2 : BitVec 2) : CpyF := { n := 0, tm := tm, inc := false, m := 1, tm2 := tm2, off := 0 }

/-! Well-formedness: each check refuses an operation that breaks it alone, and takes its boundary. -/

theorem test_wf_mm : wellFormed (.macMm 0 always (mmF 3)) = false ∧ wellFormed (.macMm 0 always (mmF 2)) = true := by decide
theorem test_wf_wld : wellFormed (.macWld 0 always (wldF 3 0 0)) = false ∧ wellFormed (.macWld 0 always (wldF 0 10 0)) = false
    ∧ wellFormed (.macWld 0 always (wldF 0 0 9)) = false ∧ wellFormed (.macWld 0 always (wldF 0 9 8)) = true
    ∧ wellFormed (.macWld 0 always (wldF 0 9 15)) = true := by decide
theorem test_wf_xld : wellFormed (.macXld 0 always (xldF 3)) = false ∧ wellFormed (.macXld 0 always (xldF 2)) = true := by decide
theorem test_wf_vec_arith : (∀ c ∈ [Instr.vecAdd 0 always (vf 3 0), .vecSub 0 always (vf 3 0), .vecMul 0 always (vf 3 0),
    .vecFma 0 always (vf 3 0)], wellFormed c = false) ∧ wellFormed (.vecAdd 0 always (vf 2 0)) = true := by decide
theorem test_wf_vec_compare : (∀ c ∈ [Instr.vecMin 0 always (vf 2 0), .vecMax 0 always (vf 2 0), .vecAbs 0 always (vf 2 0),
    .vecNeg 0 always (vf 2 0), .vecClt 0 always (vf 2 0), .vecCeq 0 always (vf 2 0)], wellFormed c = false)
    ∧ wellFormed (.vecMin 0 always (vf 1 0)) = true := by decide
theorem test_wf_vec_bitwise : (∀ c ∈ [Instr.vecSel 0 always (vf 3 0), .vecAnd 0 always (vf 3 0), .vecOr 0 always (vf 3 0),
    .vecXor 0 always (vf 3 0), .vecShuf 0 always (vf 3 0), .vecRot 0 always (vf 3 0), .vecBcst 0 always (vf 3 0),
    .vecMovv 0 always (vf 3 0)], wellFormed c = false) ∧ wellFormed (.vecSel 0 always (vf 2 0)) = true := by decide
theorem test_wf_vec_shift : (∀ c ∈ [Instr.vecShl 0 always (vf 0 0), .vecShr 0 always (vf 2 0), .vecSra 0 always (vf 0 0)],
    wellFormed c = false) ∧ wellFormed (.vecShl 0 always (vf 1 0)) = true := by decide
theorem test_wf_vec_functions : (∀ c ∈ [Instr.vecRcp 0 always (vf 1 0), .vecRsq 0 always (vf 1 0), .vecExp2 0 always (vf 1 0),
    .vecLog2 0 always (vf 1 0), .vecRsum 0 always (vf 2 0), .vecRmax 0 always (vf 2 0), .vecSrnd 0 always (vf 1 0),
    .vecGen 0 always (vf 1 0), .vecRdac 0 always (vf 1 0), .vecWrac 0 always (vf 1 0)], wellFormed c = false)
    ∧ wellFormed (.vecRsum 0 always (vf 1 0)) = true := by decide
theorem test_wf_vec_cvt : wellFormed (.vecCvt 0 always { vf 0 0 with vc := 8 }) = false
    ∧ wellFormed (.vecCvt 0 always { vf 1 0 with vc := 7 }) = false ∧ wellFormed (.vecCvt 0 always { vf 0 0 with vc := 7 }) = true := by
  decide
theorem test_wf_vec_qnt : wellFormed (.vecQnt 0 always (vf 1 4)) = false ∧ wellFormed (.vecQnt 0 always (vf 0 3)) = false
    ∧ wellFormed (.vecQnt 0 always (vf 1 3)) = true := by decide
theorem test_wf_ldv_stv : wellFormed (.movLdv 0 always (ldvF 3 0 false 0)) = false
    ∧ wellFormed (.movStv 0 always (ldvF 0 1 false 0)) = false ∧ wellFormed (.movLdv 0 always (ldvF 0 7 false 31)) = false
    ∧ wellFormed (.movStv 0 always (ldvF 2 1 true 31)) = true ∧ wellFormed (.movLdv 0 always (ldvF 0 7 false 30)) = true := by decide
theorem test_wf_cpy : wellFormed (.movCpy 0 always (cpyF 3 0)) = false ∧ wellFormed (.movCpy 0 always (cpyF 0 3)) = false
    ∧ wellFormed (.movCpy 0 always (cpyF 2 2)) = true := by decide
def putF (tm : BitVec 2) (dinc : Bool) (off : BitVec 11) : PutF :=
  { n := 0, tm := tm, inc := false, m := 1, dinc := dinc, dm := false, off := off }
def gldF (tm : BitVec 2) (ginc : Bool) : GldF := { n := 0, tm := tm, inc := false, m := 1, ginc := ginc }
theorem test_wf_remote : (∀ c ∈ [Instr.movPut 0 always (putF 3 false 0), .movGld 0 always (gldF 3 false),
    .movGst 0 always (gldF 3 false), .movVout 0 0 3 false], wellFormed c = false)
    ∧ wellFormed (.movPut 0 always (putF 2 true 0)) = true := by decide
theorem test_wf_latch : wellFormed (.syncLwait 0 0 0) = false ∧ wellFormed (.syncLsig 0 0 0) = false
    ∧ wellFormed (.syncLwait 0 0 1) = true := by decide
theorem test_wf_arst : wellFormed (.ctlArst 0 6 0) = false ∧ wellFormed (.ctlArst 0 1 8) = false ∧ wellFormed (.ctlArst 0 3 1) = false
    ∧ wellFormed (.ctlArst 0 0 15) = true ∧ wellFormed (.ctlArst 0 2 7) = true ∧ wellFormed (.ctlArst 0 5 0) = true := by decide

/-! Witnesses and results of the tile's operations. A slot of the scratchpad holds nothing yet, and every index register is 0. -/

theorem test_ready : runMach.Ready 0 .mac ∧ runMach.Ready 0 .vec ∧ runMach.Ready 0 .mov ∧ runMach.Ready 0 .sync
    ∧ runMach.Ready 0 .ctl ∧ runMach.Unopposed 0 := by unfold Mach.Ready Mach.Unopposed; decide
theorem test_vec_types : typeOk [0, 1, 2] (vf 2 0) = true ∧ typeOk [0, 1] (vf 1 0) = true ∧ (vf 0 0).ty = 0
    ∧ (vf 0 0).vc.toNat ≤ 7 ∧ (vf 1 3).md.toNat ≤ 3 := by decide
theorem test_mac_unheld : onTile.arrayFree ≤ runMach.cyc ∧ (mmF 2).tm ≠ 3 ∧ (wldF 0 9 8).fmt.toNat ≤ 9 ∧ (wldF 0 9 8).part.toNat ≤ 8
    ∧ (wldF 0 9 15).part = 15 := by decide

/-- A full slot 0, for reads that take it. -/
def fullMach : Mach := runMach.setTag 0 0 true
theorem test_read_clean : fullMach.ReadClean 0 (onTile.eff 0 0) 2 ∧ runMach.ReadClean 0 (onTile.eff 0 0) 0
    ∧ fullMach.Ready 0 .mac ∧ fullMach.Ready 0 .mov ∧ fullMach.Unopposed 0 := by
  unfold Mach.ReadClean Mach.Ready Mach.Unopposed; decide
theorem test_write_clean : runMach.WriteClean 0 (onTile.eff 0 0) 1 ∧ runMach.WriteClean 0 (onTile.eff 1 0) 2 := by
  unfold Mach.WriteClean; decide
theorem test_remote_witness : runMach.outbound 0 < 16 ∧ (onTile.dreg 1).base.toNat + (putF 0 false 0x7FF).off.toNat < 8192 := by decide

/-- Conditions that hold a bundle: an empty slot, a full one, a negative skew, and sixteen blocked writes. -/
def blockedWrite : Flight :=
  { writer := 0, target := .slot 1 0, data := none, ovr := false, gen := none, issue := 0, due := 0, blocked := true, owner := .none }
def fullOut : Mach := { runMach with flights := List.replicate 16 blockedWrite }
theorem test_hold_witness : runMach.tag 0 0 = false ∧ 0 ≤ runMach.skew 0 0 ∧ (runMach.setTag 0 0 true).tag 0 0 = true
    ∧ (runMach.setSkew 0 0 (-1)).skew 0 0 < 0 ∧ 0 < (runMach.setSkew 0 0 1).skew 0 0 ∧ 16 ≤ fullOut.outbound 0 := by decide
theorem test_hold_ready : fullOut.Ready 0 .mov ∧ fullOut.ReadClean 0 0 0 ∧ (runMach.setTag 0 0 true).Ready 0 .mov
    ∧ (runMach.setSkew 0 0 1).Unopposed 0 := by unfold Mach.Ready Mach.ReadClean Mach.Unopposed; decide
theorem test_holds : ((after (.movLdv 0 always (ldvF 2 0 true 0)) runMach).tile 0).held = some .tag
    ∧ ((after (.movPut 0 always (putF 0 false 0)) fullOut).tile 0).held = some .queue
    ∧ ((after (.movStv 0 always (ldvF 1 0 true 0)) (runMach.setTag 0 0 true)).tile 0).held = some .tag := by decide
def rowMach : Mach := tileMach { onTile with v := [(1, splat 0x3F800000), (2, splat 0x40000000), (4, splat 0xBF800000)] }
theorem test_add_lands_after_four : ((after (.vecAdd 0 always (vf 0 0)) rowMach).ticks 4).tile 0 |>.vreg 3 |> (· = splat 0x40400000) := by
  decide +kernel
theorem test_fma_row : (after (.vecFma 0 always (vf 0 0)) rowMach).fx
    = [{ tile := 0, issue := 0, prio := 4, land := 5, eff := .v 3 0xFFFFFFFF (splat 0x3F800000) }] := by decide +kernel
theorem test_rot_row : (after (.vecRot 0 always (vf 0 0)) (tileMach { onTile with v := [(1, 7)] })).fx
    = [{ tile := 0, issue := 0, prio := 4, land := 2, eff := .v 3 0xFFFFFFFF (7#1024 <<< 896) }] := by decide +kernel
theorem test_sub_mul : subF 0x3F800000 0x40000000 = 0xBF800000 ∧ mulF 0x40400000 0xBF000000 = 0xBFC00000
    ∧ addF 0x7F800000 0xFF800000 = 0x7FC00000 := by decide
theorem test_min_max : minF 0x80000000 0 = 0x80000000 ∧ maxF 0 0x80000000 = 0 ∧ minF 0x7FC00000 0 = 0x7FC00000
    ∧ minI 0xFFFFFFFF 1 = 0xFFFFFFFF ∧ maxI 0xFFFFFFFF 1 = 1 := by decide
theorem test_abs_neg : absI 0x80000000 = 0x7FFFFFFF ∧ negI 0x80000000 = 0x7FFFFFFF ∧ absF 0xBF800000 = 0x3F800000
    ∧ negF 0x7F800001 = 0x7FC00000 := by decide
theorem test_compares : cltF 0x80000000 0 = 0 ∧ ceqF 0x80000000 0 = 0xFFFFFFFF ∧ ceqF 0x7FC00000 0x7FC00000 = 0
    ∧ cltI 0xFFFFFFFF 0 = 0xFFFFFFFF ∧ ceqI 1 2 = 0 := by decide
/-- The special operands of R96. -/
theorem test_functions_special : rcpF 0x80000000 = 0xFF800000 ∧ rsqF 0xFF800000 = 0x7FC00000 ∧ exp2F 0 = 0x3F800000
    ∧ log2F 0x80000000 = 0xFF800000 ∧ log2F 0xBF800000 = 0x7FC00000 := by decide
theorem test_functions_exact : rcpF 0x40000000 = 0x3F000000 ∧ rsqF 0x40800000 = 0x3F000000 ∧ exp2F 0x40400000 = 0x41000000
    ∧ log2F 0x41000000 = 0x40400000 := by decide +kernel
/-- The examples of CVT 1, QNT and SRND. -/
theorem test_cvt_example : cvt 1 0x41D40000 = 0x5D ∧ cvt 1 0x41D80000 = 0x5E ∧ cvt 1 0x43FA0000 = 0x7E := by decide +kernel
theorem test_qnt_example : qnt 0 1536 0x1000001E 0 = 2 ∧ qnt 0 2560 0x1000001E 0 = 2 ∧ qnt 0 (-1536) 0x1000001E 0 = 0xFFFFFFFE
    ∧ qnt 0 300000 0x1000001E 0 = 0x7F ∧ qnt 0 1536 0x1000001E (-3) = 0xFFFFFFFF := by decide +kernel
theorem test_srnd_example : srnd 0x3F808000 0x7FFF = 0x3F800000 ∧ srnd 0x3F808000 0x8000 = 0x3F810000 := by decide
theorem test_gen_advances : (after (.vecGen 0 always (vf 0 0)) runMach).fx.map (fun g => g.eff) |>.getLast? |>
    (· = some (.draw 4 32)) := by decide +kernel
theorem test_wrac_row : (after (.vecWrac 0 always { vf 0 1 with vd := 1 }) rowMach).fx
    = [{ tile := 0, issue := 0, prio := 4, land := 2, eff := .acc 33 (splat 0x3F800000) }] := by decide +kernel
theorem test_rdac_clears : (after (.vecRdac 0 always (vf 0 2)) rowMach).fx.map (fun g => g.eff)
    = [.v 3 0xFFFFFFFF 0, .acc 1 0] := by decide +kernel

/-- The MXINT8 column of R87: 1.0 in the row, and 1.0 added by the block. -/
def mxMach : Mach :=
  tileMach { onTile with
    xs := 0x81, ws0 := { WeightSet.empty with fmt := 7, parts := [(0, 0x20), (1, 0x10)], scale := 0x7F }, acc := [(0, 0x3F800000)] }
theorem test_mm_occupies : ((after (.macMm 0 always (mmF 0)) runMach).tile 0).arrayFree = 0
    ∧ (after (.macMm 0 always (mmF 0)) runMach).fx.length = 2 := by decide +kernel
theorem test_wld_sets_format : (after (.macWld 0 always (wldF 0 3 0)) runMach).fx.map (fun g => (g.land, g.eff))
    = [(2, .wpart false 0 0), (2, .wfmt false 3)] := by decide +kernel
theorem test_wld_counts : (after (.macWld 0 always (wldF 2 0 15)) fullMach).fx.map (fun g => (g.land, g.eff))
    = [(1, .tag 0 false), (2, .wpart false 0 0), (2, .wfmt false 0), (1, .wcnt false 1)] := by decide +kernel
theorem test_xld : (after (.macXld 0 always (xldF 0)) runMach).fx.map (fun g => (g.land, g.eff)) = [(2, .xs 0)] := by decide +kernel
theorem test_aclr_wraps : (after (.macAclr 0 always 63 1) runMach).fx.map (fun g => (g.land, g.eff))
    = [(1, .acc 63 0), (1, .acc 0 0)] := by decide +kernel

theorem test_ldv_take : (after (.movLdv 0 always (ldvF 2 0 true 5)) fullMach).fx.map (fun g => (g.land, g.eff))
    = [(3, .v 5 0xFFFF0000 0), (1, .tag 0 false)] := by decide +kernel
theorem test_stv_fill : (after (.movStv 0 always (ldvF 1 6 true 1)) runMach).fx.map (fun g => (g.land, g.eff))
    = [(3, .slot 0 (BitVec.allOnes 64) 0), (3, .tag 0 true)] := by decide +kernel
theorem test_cpy_over : (after (.movCpy 0 always (cpyF 0 2)) runMach).fx.map (fun g => (g.land, g.eff))
    = [(3, .slot 0 (BitVec.allOnes 64) 0), (3, .tag 0 true)] := by decide +kernel
/-- Tile 200 to tile 31, as in the example of R156: Δ is 30. -/
theorem test_put_distance : putDelta 200 31 = 30 ∧ stackQ 200 0 = 9 ∧ stackS 200 0 = 45 ∧ latchL 200 5000 = 4 ∧ latchL 31 5000 = 16 := by
  decide
def regTile : Tile := { onTile with
  d := [(1, { tile := 31, base := 100, base0 := 100, stride := 0 })], g := [(1, { stack := 0, gran := 9, stack0 := 0, gran0 := 9, stride := 1 })] }
theorem test_put_flight : (after (.movPut 0 always (putF 0 false 3)) (tileMach regTile)).fx.map (fun g => g.eff)
    = [.flight { writer := 0, target := .slot 31 103, data := some 0, ovr := false, gen := none, issue := 0, due := putDelta 0 31 - 1,
                 blocked := false, owner := .none }] := by decide +kernel
theorem test_gst_flight : (after (.movGst 0 always (gldF 0 false)) (tileMach regTile)).fx.map (fun g => g.eff)
    = [.flight { writer := 0, target := .gran 0 9, data := some 0, ovr := false, gen := none, issue := 0, due := stackQ 0 0,
                 blocked := false, owner := .none }] := by decide +kernel
theorem test_gld_request : (after (.movGld 0 always (gldF 1 false)) (tileMach regTile)).fx.map (fun g => g.eff)
    = [.chan { stack := 0, gran := 9, requester := 0, sched := true, due := stackQ 0 0, read := some (.gld 0 0 1 false (stackS 0 0)),
               write := none }] := by decide +kernel
theorem test_seta : (after (.movSeta 0 always 3 77) runMach).fx.map (fun g => (g.land, g.eff)) = [(1, .a 3 77)] := by decide +kernel
theorem test_tags : (after (.movTags 0 always 0 false true 0) runMach).fx.map (fun g => g.eff) = [.tag 0 true, .skewClear 0] := by
  decide +kernel
theorem test_vout_takes : (after (.movVout 0 0 2 false) fullMach).fx.map (fun g => (g.land, g.eff))
    = [(1, .vout 0 0 0), (1, .tag 0 false)] := by decide +kernel

/-! SYNC and CTL. -/

theorem test_sync_witness : runMach.waitOf 0 = none ∧ (runMach.win 0 0).kind = false ∧ ∀ g ∈ runMach.fx, g.tile = 0 → g.issue ≠ runMach.cyc := by
  decide
/-- A wait that was granted and whose answer is back; a window of a stack. -/
def grantMach : Mach :=
  { runMach with cyc := 4, waits := [{ latch := 0, who := .tile 0, amount := 1, first := 0, arrive := 0, granted := some 0 }] }
theorem test_lwait_granted : ∃ w g, grantMach.waitOf 0 = some w ∧ w.granted = some g ∧ g + latchL 0 0 ≤ grantMach.cyc
    ∧ grantMach.Ready 0 .sync ∧ (after (.syncLwait 0 0 1) grantMach).waits = [] :=
  ⟨_, 0, rfl, by decide, by decide, by unfold Mach.Ready; decide, by decide +kernel⟩
def stackWinMach : Mach := runMach.setWin 0 2 { Window.unused with used := true, kind := true }
theorem test_window_kinds : (stackWinMach.win 0 2).kind = true ∧ stackWinMach.Ready 0 .sync
    ∧ ((after (.syncWopn 0 2) stackWinMach).winUpds.map fun u => u.opens) = [true]
    ∧ ((after (.syncWopn 0 1) runMach).win 0 1).gen = 1 := by unfold Mach.Ready; decide +kernel
theorem test_lwait_holds : ((after (.syncLwait 0 0 5) runMach).tile 0).held = some .latch
    ∧ (after (.syncLwait 0 0 5) runMach).waits.length = 1 := by decide +kernel
theorem test_lsig : (after (.syncLsig 0 0 5) runMach).signals.map (fun g => (g.amount, g.due)) = [(5, 4)] := by decide +kernel
theorem test_next_takes : fullMach.ReadClean 0 (onTile.eff 0 0) 2 ∧ (after (.syncNext 0 0) fullMach).fx.length = 5 := by
  unfold Mach.ReadClean; decide +kernel
theorem test_pass_fills : ((after (.syncPass 0 0) runMach).fx.map fun g => (g.land, g.prio)) = [(3, 8), (3, 8), (1, 8)] := by decide +kernel
theorem test_wcls : ((after (.syncWcls 0 1) runMach).win 0 1).isOpen = false := by decide +kernel

theorem test_loop : (after (.ctlLoop 0 0 2) (tileMach { onTile with c := [(2, 9)], pc := 7 })).fx.map (fun g => g.eff)
    = [.lc 0 9 8 1, .pc 8] := by decide +kernel
def loopMach (n : BitVec 16) : Mach := tileMach { onTile with pc := 12, depth := 1, lc := [(0, { count := n, start := 8 })] }
theorem test_endl_witness : 1 < ((loopMach 2).tile 0 |>.loopReg 0).count.toNat ∧ ((loopMach 1).tile 0 |>.loopReg 0).count.toNat ≤ 1
    ∧ (loopMach 2).Ready 0 .ctl := by unfold Mach.Ready; decide
theorem test_endl : (after (.ctlEndl 0 0) (loopMach 2)).fx.map (fun g => g.eff) = [.lc 0 1 8 1, .pc 8]
    ∧ (after (.ctlEndl 0 0) (loopMach 1)).fx.map (fun g => g.eff) = [.lc 0 0 8 0, .pc 13] := by decide +kernel
theorem test_step : (after (.ctlStep 0) (tileMach { onTile with pc := 9, entry := 5 })).fx.map (fun g => g.eff) = [.stepInc, .pc 5] := by
  decide +kernel
theorem test_halt : (after (.ctlHalt 0) runMach).fx.map (fun g => g.eff) = [.halt, .pc 1] := by decide +kernel
theorem test_arst : (after (.ctlArst 0 3 0) runMach).fx.map (fun g => g.eff) = [.acp 0, .pc 1] := by decide +kernel
theorem test_nop : ((after (.nop 0 .vec) runMach).tile 0).bundle = [.nop 0 .vec] ∧ (after (.nop 0 .vec) runMach).fx = [] := by decide +kernel
/-- TALY with an STV, a CPY or a PUT in its bundle, and with none. -/
def bundleMach (i : Instr) : Mach := tileMach { onTile with bundle := [i] }
theorem test_taly_witness :
    (∀ i ∈ ([] : List Instr), slotOf i ≠ .mov) ∧ (bundleMach (.movStv 0 always (ldvF 0 0 false 0))).Ready 0 .ctl
      ∧ (bundleMach (.movCpy 0 always (cpyF 0 0))).Ready 0 .ctl ∧ (bundleMach (.movPut 0 always (putF 0 false 0))).Ready 0 .ctl := by
  unfold Mach.Ready; decide
theorem test_taly : (after (.ctlTaly 0 1) (bundleMach (.movStv 0 always (ldvF 0 0 false 0)))).fx.map (fun g => (g.land, g.prio))
    = [(3, 11), (1, 11), (1, 10)] := by decide +kernel

def slipMach : Mach := tileMach { onTile with budget := 10, counted := 10, closed := true, held := some .latch, span := 3 }
theorem test_slip_witness : slipMach.issuing 0 = true ∧ (slipMach.tile 0).closed = true ∧ (slipMach.tile 0).slipped = false
    ∧ 1 ≤ (slipMach.tile 0).budget ∧ (slipMach.tile 0).budget ≤ (slipMach.tile 0).counted := by decide
theorem test_slip_marks : ((after (.slip 0) slipMach).tile 0).slips = 1 ∧ ((after (.slip 0) slipMach).tile 0).flags = 4
    ∧ ((after (.slip 0) slipMach).tile 0).spanLeft = 3 := by decide +kernel

/-! ### Power and bring-up of the module -/

def poweredMach : Mach := { upMach with pwr := { upMach.pwr with inReset := true, aligned := false, bootOk := false, ddrReady := false } }
def releasedMach : Mach := { poweredMach with pwr := { poweredMach.pwr with inReset := false } }
theorem test_reset_witness : upMach.pwr.vin = true ∧ upMach.hostUp = true ∧ (0x4C390001 : W32).toNat / 2 ^ 16 = 0x4C39
    ∧ (0x4C390001 : W32).getLsbD 0 = true ∧ upMach.variant.hasSensor 0 = true ∧ 1920 ≤ (1920 : BitVec 16).toInt := by decide
theorem test_dexzon_witness : ({ upMach with sec := { upMach.sec with dexUp := true } } : Mach).sec.dexUp = true ∧ upMach.pwr.inReset = false := by
  decide
theorem test_power_loss : (after .powerLoss upMach).pwr.good = 0 ∧ (after .powerLoss upMach).pwr.vin = false := by decide +kernel
theorem test_mrst : (after .mrst runMach).tiles = [] ∧ (after .mrst runMach).pwr.cause = 1 := by decide +kernel
theorem test_glb_rst : (after (.glbRst 0x4C390001) runMach).pwr.cause = 2 ∧ (after (.glbRst 0x4C380001) runMach).pwr.inReset = false := by
  decide +kernel
theorem test_thermal_trip : (after (.thermalTrip 0 1920) upMach).pwr.lockedOut = true
    ∧ (after (.thermalTrip 0 1919) upMach).pwr.lockedOut = false := by decide +kernel
theorem test_regulator_fault : (after .regulatorFault upMach).pwr.cause = 5 := by decide +kernel
theorem test_power_on_witness : Mach.reset.pwr.vin = false ∧ poweredMach.pwr.vin = true ∧ poweredMach.pwr.inReset = true
    ∧ poweredMach.pwr.lockedOut = false ∧ poweredMach.pwr.good = poweredMach.variant.domains
    ∧ poweredMach.pwr.locks = poweredMach.variant.clocks := by decide
theorem test_released_witness : releasedMach.pwr.inReset = false ∧ releasedMach.pwr.aligned = false ∧ releasedMach.pwr.tries = 0
    ∧ releasedMach.pwr.bootOk = false ∧ releasedMach.flash.journal = none := by decide
/-- A module whose flash holds a RoT image. -/
def bootMach : Mach :=
  { releasedMach with flash := { releasedMach.flash with fwA := { releasedMach.flash.fwA with valid := true, rotOk := true } } }
theorem test_boot_witness : bootMach.flash.fwA.valid = true ∧ bootMach.flash.fwA.rotOk = true ∧ bootMach.flash.journal = none
    ∧ bootMach.pwr.inReset = false ∧ bootMach.pwr.bootOk = false := by decide
theorem test_power_on : (after .powerOn Mach.reset).pwr.vin = true ∧ (after .powerOn Mach.reset).pwr.inReset = true := by decide +kernel
theorem test_reset_release : (after .resetRelease poweredMach).pwr.inReset = false
    ∧ (after .resetRelease poweredMach).reg rGlbRstCause = 1 := by decide +kernel
theorem test_alignment : (after (.clockAlignment 2) releasedMach).pwr.aligned = true
    ∧ (after (.clockAlignment 3) releasedMach).bit rClkErr 2 = true ∧ (after (.clockAlignment 3) releasedMach).pwr.aligned = false := by
  decide +kernel
theorem test_rot_boot : (after (.rotBoot false) bootMach).pwr.bootOk = true := by decide +kernel
theorem test_ddr_ready : ({ upMach with pwr := { upMach.pwr with ddrReady := false } } : Mach).pwr.ddrReady = false
    ∧ (after .ddrReady { upMach with pwr := { upMach.pwr with ddrReady := false } }).pwr.ddrReady = true := by decide +kernel

theorem test_supply_witness : upMach.pwr.inReset = false ∧ upMach.pwr.refOk = true ∧ upMach.pwr.locks.getLsbD 0 = true
    ∧ upMach.pwr.aligned = true ∧ upMach.pwr.good.getLsbD 0 = true ∧ upMach.pwr.excursion = false ∧ (3999 : BitVec 16).toNat < 4000
    ∧ 6000 < (6001 : BitVec 16).toNat ∧ upMach.variant.clocks.getLsbD 0 = true ∧ upMach.pwr.bootOk = true := by decide
theorem test_overpower_witness : upMach.variant.packageLimit < (0xFFFF : BitVec 16).toNat := by decide
theorem test_therm_witness : upMach.variant.hasSensor 0 = true ∧ 16 * (upMach.rbits rPwrTherm 7 0 : Int) ≤ (0x7FFF : BitVec 16).toInt
    ∧ 16 * (upMach.rbits rPwrTherm 15 8 : Int) ≤ (0x7FFF : BitVec 16).toInt
    ∧ ∀ i < 8, upMach.variant.hasSensor i = true → (([] : List (BitVec 16)).getD i 0).toInt < 16 * (upMach.rbits rPwrTherm 7 0 : Int) := by
  decide
theorem test_ref_loss : (after .refLoss upMach).bit rClkErr 0 = true ∧ (after .refRestored (after .refLoss upMach)).pwr.refOk = true := by
  decide +kernel
theorem test_pll : (after (.pllUnlock 24) upMach).bit rClkErr 1 = true
    ∧ (after (.pllRelock 24) (after (.pllUnlock 24) upMach)).pwr.locks = upMach.pwr.locks := by decide +kernel
theorem test_phase_drift : (after .phaseDrift upMach).bit rClkErr 3 = true := by decide +kernel
theorem test_pg_fault : (after (.pgFault 0) upMach).bit rClkErr 4 = true ∧ (after (.pgFault 0) upMach).pwr.good.getLsbD 0 = false := by
  decide +kernel
theorem test_vin : (after (.vinUv 3999) upMach).bit rClkErr 5 = true ∧ (after (.vinOv 6001) upMach).bit rClkErr 6 = true
    ∧ (after (.vinInRange 4000) (after (.vinUv 3999) upMach)).pwr.excursion = false := by decide +kernel
theorem test_overpower : (after (.overpower 0xFFFF 0) upMach).bit rClkErr 9 = true := by decide +kernel
theorem test_therm : (after (.thermWarn 0 0x7FFF) upMach).bit rClkErr 7 = true ∧ (after (.thermCrit 0 0x7FFF) upMach).bit rClkErr 8 = true
    ∧ (after (.thermWarnClear []) (after (.thermWarn 0 0x7FFF) upMach)).pwr.thermWarn = false := by decide +kernel
theorem test_endpoint : (after (.d3hot true) upMach).hostUp = false ∧ (after .perst { upMach with hif := { upMach.hif with d3 := true } }).hif.d3 = false
    ∧ (after .functionLevelReset { upMach with hif := { upMach.hif with irqs := [3] } }).hif.irqs = [] := by decide +kernel

/-! ### Windows, inbound buffers, channels, latches -/

/-- Tile 0 with an open window over its slots 0 to 15 for writer 7, and an open one over granules 0 to 3 of stack 1. -/
def winMach : Mach :=
  (runMach.setWin 0 0 { Window.unused with used := true, isOpen := true, gen := 5, limit := 15, writers := [7] }).setWin 0 1
    { Window.unused with used := true, kind := true, stack := 1, isOpen := true, gen := 2, limit := 3, writers := [7] }
def flightTo (target : WTarget) : Flight :=
  { writer := 7, target := target, data := some 0xAB, ovr := false, gen := none, issue := 0, due := 0, blocked := false, owner := .none }
def arriving (f : Flight) : Mach := { winMach with flights := [f] }
/-- One witness for each reason, for a write that is taken, and for one that the full buffer holds. -/
theorem test_window_check : winMach.windowCheck 7 (.slot 0 3) none = none ∧ winMach.windowCheck 7 (.gran 1 3) none = none
    ∧ winMach.windowCheck 7 (.slot 0 16) none = some ⟨0, some 0⟩ ∧ winMach.windowCheck 8 (.slot 0 3) none = some ⟨2, some 0⟩
    ∧ winMach.windowCheck 7 (.slot 0 3) (some 4) = some ⟨3, some 0⟩ ∧ winMach.windowCheck 7 (.slot 1 3) none = some ⟨4, some 1⟩
    ∧ (after (.syncWcls 0 0) winMach).windowCheck 7 (.slot 0 3) none = some ⟨1, some 0⟩ := by decide +kernel
theorem test_arrival_witness : (arriving (flightTo (.slot 0 3))).flights[0]? = some (flightTo (.slot 0 3))
    ∧ (arriving (flightTo (.slot 0 3))).inCount 0 true < 16 := by decide +kernel
def entry (s : BitVec 13) (sched : Bool) : InEntry :=
  { tile := 0, sched := sched, slot := s, data := some 0xAB, ovr := false, gld := none, ue := false, crec := false }
def fullBuffer : Mach := { arriving (flightTo (.slot 0 3)) with inbox := List.replicate 16 (entry 3 true) }
theorem test_arrival_blocked : 16 ≤ fullBuffer.inCount 0 true
    ∧ (after (.remoteWriteArrival 0) fullBuffer).flights.map (fun f => f.blocked) = [true] := by decide +kernel
theorem test_arrival_taken : (after (.remoteWriteArrival 0) (arriving (flightTo (.slot 0 3)))).inbox = [entry 3 true]
    ∧ (after (.remoteWriteArrival 0) (arriving (flightTo (.slot 0 16)))).bit rMemWdropStat 31 = true
    ∧ (after (.remoteWriteArrival 0) (arriving (flightTo (.gran 1 3)))).chanQ.length = 1 := by decide +kernel
def drainMach : Mach := { runMach with inbox := [entry 3 false, entry 11 true] }
theorem test_drain_witness : drainMach.portBusy 0 3 = false
    ∧ ((drainMach.pickEntry 0 3 true [] drainMach.inbox).or (drainMach.pickEntry 0 3 false [] drainMach.inbox)) = some 1
    ∧ drainMach.inbox[1]? = some (entry 11 true)
    ∧ ((drainMach.pickEntry 0 4 true [] drainMach.inbox).or (drainMach.pickEntry 0 4 false [] drainMach.inbox)) = none
    ∧ ∀ g ∈ drainMach.fx, g.tile = (entry 11 true).tile → g.issue = drainMach.cyc → g.eff.same (.tag 11 true) = false := by decide +kernel
theorem test_drain : (after (.inboundDrain 0 3) drainMach).inbox = [entry 3 false]
    ∧ (after (.inboundDrain 0 3) drainMach).fx.map (fun g => g.eff) = [.slot 11 (BitVec.allOnes 64) 0xAB, .tag 11 true] := by decide +kernel
/-- A reply with an uncorrectable error sets F3 as it is written, and not where R160 discards it (R136). -/
def ueMach (k : Int) : Mach := ({ runMach with inbox := [{ entry 11 true with gld := some 1, ue := true }] } : Mach).setSkew 0 11 k
theorem test_drain_ue : ((after (.inboundDrain 0 3) (ueMach 0)).tile 0).flags = 8 ∧ ((after (.inboundDrain 0 3) (ueMach 1)).tile 0).flags = 0
    ∧ (after (.inboundDrain 0 3) (ueMach 1)).inbox = [] := by decide +kernel
def replyMach : Mach := { runMach with gldReplies := [{ tile := 0, slot := 5, tm := 1, data := some 9, due := 0, ue := false }] }
theorem test_gld_reply : replyMach.gldReplies[0]? = some { tile := 0, slot := 5, tm := 1, data := some 9, due := 0, ue := false }
    ∧ (after (.gldReply 0) replyMach).inbox.map (fun e => (e.slot, e.gld)) = [(5, some 1)] := by decide +kernel

def chanReq (read : Option ReadFor) (write : Option Flight) : ChanReq :=
  { stack := 1, gran := 2, requester := 0, sched := true, due := 0, read := read, write := write }
def chanMach (q : ChanReq) : Mach := { runMach with chanQ := [q], engines := [] }
def gstReq : ChanReq := chanReq none (some (flightTo (.gran 1 2)))
def gldReq : ChanReq := chanReq (some (.gld 0 5 1 false 40)) none
def sluReq : ChanReq := chanReq (some (.sluice 3 0 0 0)) none
/-- The order in which the channel of granule 2 serves one request. -/
theorem test_channel_witness : ∀ q ∈ [gstReq, gldReq, sluReq],
    ((chanMach q).chanQ.filter fun q => q.at 1 2).map (·.due) = [0] ∧
    (let m := ((chanMach q).advanceTo 0).awaitChannel 1 2 4
     sortBy ChanReq.le (m.chanQ.filter fun q => q.at 1 2 && decide (q.due ≤ m.cyc)) = [q]) := by decide +kernel
theorem test_channel_gst : (after (.stackChannelAccess 1 2) (chanMach gstReq)).gran 1 2 = 0xAB := by decide +kernel
theorem test_channel_gld : (after (.stackChannelAccess 1 2) (chanMach gldReq)).gldReplies.map (fun r => (r.slot, r.due)) = [(5, 39)]
    ∨ (after (.stackChannelAccess 1 2) (chanMach gldReq)).gldReplies.map (fun r => (r.slot, r.due)) = [(5, 40)] := by decide +kernel
def desc0 : SluDesc := (sluDesc (leBytes 64 0))
def run0 : SluRun :=
  { desc := { desc0 with op := 4 }, index := 0, pass := 0, gen := 1, cgen := 0, left := 1, drops := 0, ue := false, ce := false,
    windrop := false, ddrRange := false, range := false }
def engine0 : Engine := { Engine.free with mode := .plan, inflight := [run0] }
theorem test_channel_sluice_witness :
    (((chanMach sluReq).setEngine 3 engine0).engine 3).inflight.find? (fun r => r.index == 0 && r.pass == 0) = some run0 := by decide
theorem test_window_update : ({ runMach with winUpds := [{ tile := 0, w := 1, opens := true, issue := 0, due := 0 }] } : Mach).winUpds[0]?
      = some { tile := 0, w := 1, opens := true, issue := 0, due := 0 }
    ∧ ((after (.stackWindowUpdate 0) { runMach with winUpds := [{ tile := 0, w := 1, opens := true, issue := 0, due := 0 }] }).win 0 1).isOpen
      = true := by decide +kernel

def latchMach (n : BitVec 32) : Mach := upMach.setLatch 5000 { count := n, owner := 200, st := .held }
def signalMach : Mach := { latchMach 0xFFFFFFFE with signals := [{ latch := 5000, amount := 3, src := 0x4003, issue := 0, due := 0 }] }
theorem test_signal_saturates : ((after (.latchSignalArrival 0) signalMach).latch 5000).count = 0xFFFFFFFF
    ∧ signalMach.signals[0]? = some { latch := 5000, amount := 3, src := 0x4003, issue := 0, due := 0 } := by decide +kernel
def waitingOn (amount : Nat) : Wait := { latch := 5000, who := .engine 3, amount := amount, first := 0, arrive := 0, granted := none }
def waitMach (amount : Nat) : Mach := { latchMach 2 with waits := [waitingOn amount] }
theorem test_wait_witness : ∀ n ∈ [2, 3], ((waitMach n).waits.filter fun w => w.latch == 5000 && w.granted.isNone).map (·.arrive) = [0]
    ∧ (∀ g ∈ (waitMach n).signals, g.latch = 5000 → (waitMach n).cyc < g.due)
    ∧ sortBy Wait.le ((waitMach n).waits.filter fun w => w.latch == 5000 && w.granted.isNone && decide (w.arrive ≤ (waitMach n).cyc))
      = [waitingOn n] := by decide
theorem test_wait_grant : ((after (.latchWaitGrant 5000) (waitMach 2)).latch 5000).count = 0
    ∧ ((after (.latchWaitGrant 5000) (waitMach 3)).latch 5000).count = 2 ∧ ((waitMach 2).latch 5000).st = .held := by decide +kernel

/-! ### Sluices, leases, memory errors, responses -/

/-- An engine in PLAN mode with one descriptor. -/
def planMach (d : SluDesc) : Mach := runMach.setEngine 3 { Engine.free with mode := .plan, plan := [d] }
def fetch : SluDesc := { desc0 with op := 1, len := 1 }
theorem test_sluice_witness : (planMach fetch).nextDesc 3 = some (fetch, 0, 0) ∧ fetch.gate = false ∧ fetch.inRange = true ∧ fetch.op ≤ 4
    ∧ (planMach { fetch with gate := true }).nextDesc 3 = some ({ fetch with gate := true }, 0, 0)
    ∧ ((planMach { fetch with gate := true }).waits.find? fun w => w.who == Waiter.engine 3) = none
    ∧ ((planMach fetch).latch fetch.glatch).st ≠ .revoked
    ∧ (∃ k < fetch.len, (planMach fetch).ddrAllowed (fetch.daddr + 64 * (k : Int)) = false)
    ∧ (planMach { fetch with fslot := 8192 }).nextDesc 3 = some ({ fetch with fslot := 8192 }, 0, 0)
    ∧ ({ fetch with fslot := 8192 } : SluDesc).inRange = false ∧ ({ fetch with fslot := 8191 } : SluDesc).inRange = true := by
  refine ⟨by decide, by decide, by decide, by decide, by decide, by decide, by decide, ⟨0, by decide, by decide⟩, by decide, by decide, by decide⟩
theorem test_sluice_revoked_gate : ((planMach { fetch with gate := true }).setLatch 0 { count := 0, owner := 0, st := .revoked }).latch
    fetch.glatch |>.st |> (· = .revoked) := by decide
/-- A descriptor from a stack, whose granules no DDR4 range limits. -/
def spill : SluDesc := { fetch with op := 4 }
theorem test_sluice_moves : (∀ k < spill.len, (1 ≤ spill.op ∧ spill.op ≤ 3 → (planMach spill).ddrAllowed (spill.daddr + 64 * ((k : Nat) : Int)) = true)
      ∧ (spill.op = 1 ∨ spill.op = 2 → (planMach spill).ddrEcc (spill.daddr + 64 * (k : Int)).toNat = .ok)) ∧ spill.inRange = true
    ∧ (after (.sluiceDescriptorStart 3) (planMach spill)).chanQ.length = 1 := by decide +kernel
theorem test_sluice_gate : (after (.sluiceDescriptorStart 3) (planMach { fetch with gate := true, gcnt := 1 })).waits
    = [{ latch := 0, who := .engine 3, amount := 1, first := 0, arrive := 0, granted := none }] := by decide +kernel
theorem test_sluice_refused : (after (.sluiceDescriptorStart 3) (planMach fetch)).bit (rMemSluErr 3) 5 = true
    ∧ (after (.sluiceDescriptorStart 3) (planMach { fetch with fslot := 8192 })).bit (rMemSluErr 3) 6 = true := by decide +kernel
/-- Queue 0 is a sluice queue of engine 0 with one entry. -/
def sluQueue : Mach :=
  ((upMach.setReg (rQCfg 0) 9).setQueue 0 { Queue.empty with pi := 1 })
theorem test_sluice_queue_witness : sluQueue.engineQueue 0 = some 0 ∧ sluQueue.qReady 0 4 = true ∧ (sluQueue.engine 0).mode ≠ .plan
    ∧ (sluQueue.engine 0).st ≠ .fault ∧ (sluQueue.engine 0).st ≠ .revoked ∧ sluReserved (slotBytes 15) = true := by decide +kernel
theorem test_sluice_queue_program : (after (.sluiceQueueDescriptor 0 15) sluQueue).bit (rMemSluErr 0) 6 = true := by decide +kernel
def linked : Mach := (runMach.setReg (rQCfg 0) 9).setFld (rQLink 0) 20 16 3
def doneMach : Mach := linked.setEngine 3 { engine0 with inflight := [{ run0 with left := 0, desc := { run0.desc with crec := true, csig := true, ccnt := 2 } }] }
theorem test_sluice_complete : (after (.sluiceComplete 3) doneMach).flights.length = 1
    ∧ (after (.sluiceComplete 3) doneMach).signals.map (fun g => g.amount) = [2] ∧ ((after (.sluiceComplete 3) doneMach).engine 3).inflight = [] := by
  decide +kernel
theorem test_sluice_done_witness : (doneMach.engine 3).inflight = [{ run0 with left := 0, desc := { run0.desc with crec := true, csig := true, ccnt := 2 } }]
    ∧ (doneMach.engine 3).st ≠ .fault ∧ (doneMach.engine 3).st ≠ .revoked ∧ doneMach.hostWrites (rMemSluCtl 3) = true
    ∧ doneMach.variant.hasEngine 3 = true := by decide +kernel
theorem test_sluice_abort : ((after (.sluiceAbort 3) doneMach).engine 3).aborted = true
    ∧ ((after (.sluiceFault 3) doneMach).engine 3).st = .fault := by decide +kernel

/-- Tile 0 has stopped 714 ms ago and its leases run out. -/
def leaseMach (arm : Nat) : Mach :=
  (({ winMach with cyc := 1000000000, notLive := [(.tile 0, 0, false)] }.setTile 0 { onTile with mode := .fault }).setLatch 9 { count := 4, owner := 0, st := .held }).putBit rMemLease 16 (decide (arm = 1))
theorem test_lease_witness : (leaseMach 0).leaseDue (.tile 0) = true ∧ (leaseMach 0).live (.tile 0) = false ∧ (leaseMach 0).hasLeases (.tile 0) = true ∧ (leaseMach 0).bit rMemLease 16 = false
    ∧ (leaseMach 1).bit rMemLease 16 = true ∧ (leaseMach 1).revoked.contains (.tile 0) = false := by decide +kernel
theorem test_lease_revokes : ((after (.leaseExpiry (.tile 0)) (leaseMach 1)).latch 9).st = .revoked
    ∧ ((after (.leaseExpiry (.tile 0)) (leaseMach 1)).win 0 0).gen = 6 ∧ (after (.leaseExpiry (.tile 0)) (leaseMach 0)).revoked = [] := by
  decide +kernel
def faultedEngine (m : Mach) : Mach := ({ m with cyc := 1000000000, notLive := [(.engine 3, 0, false)] }.setEngine 3 { engine0 with st := .fault }).putBit rMemLease 16 true
theorem test_lease_engine_witness : (faultedEngine upMach).leaseDue (.engine 3) = true ∧ (faultedEngine upMach).live (.engine 3) = false ∧ ((faultedEngine upMach).engine 3).mode = .plan
    ∧ (faultedEngine upMach).revoked.contains (.engine 3) = false ∧ (faultedEngine upMach).bit rMemLease 16 = true := by decide +kernel
def deadQueue : Mach :=
  ((({ upMach with cyc := 1000000000, notLive := [(.queue 0, 0, false)] }.setReg (rQCfg 0) 8).setEngine 2
    { Engine.free with mode := .queue, feeds := true, queue := 0 }).putBit rMemLease 16 true)
theorem test_lease_queue_witness : deadQueue.leaseDue (.queue 0) = true ∧ deadQueue.qType 0 = 4
    ∧ (deadQueue.engines.find? fun p => p.2.feeds && p.2.queue == 0).map (·.1) = some 2 ∧ ((after (.leaseExpiry (.queue 0)) deadQueue).engine 2).st = .revoked
    ∧ deadQueue.bit rMemLease 16 = true := by decide +kernel
theorem test_revocation_complete : ({ upMach with revoking := [(.tile 0, 1, false)] } : Mach).revoking ≠ []
    ∧ (after .revocationComplete { upMach with revoking := [(.tile 0, 1, false)] }).bit rMemLeaseStat 1 = true := by decide +kernel
def anEvent : Event :=
  { block := 1, bit := 1, sev := 2, akind := 1, source := 0, info := 0, tb1 := 0, addr := 0, sample := none, redacted := false, boot := false }
def response (action : Nat) : Rsp := { entry := 2, ev := anEvent, action := action, arg := 0, till := 0 }
def started (action : Nat) : Mach := { upMach with flt := { upMach.flt with started := [response action] } }
theorem test_started_witness : ∀ a < 8, (started a).flt.startedOf 2 a = some (response a) := by decide
theorem test_act_revoke_witness : (started 6).scrubbing = false ∧ sourceHolder (response 6).ev = some (.tile 0)
    ∧ (started 6).revoked.contains (.tile 0) = false := by decide
def eccMach (e : Ecc) : Mach :=
  { upMach with mem := { upMach.mem with eccStack := FMap.put (fun _ => Ecc.ok) [] 21 e, eccDdr := FMap.put (fun _ => Ecc.ok) [] 42 e } }
theorem test_scrub_witness : ∀ e ∈ [Ecc.ok, .ce, .ue], (eccMach e).granErrors 0 5 = [e].filter (· != .ok) ∧ (eccMach e).ddrEcc 320 = e := by decide
theorem test_scrub_stack : (after (.patrolScrub (.stack 0 5)) (eccMach .ce)).reg (rMemStkCe 0) = 1
    ∧ (after (.patrolScrub (.stack 0 5)) (eccMach .ce)).mem.eccStack = [] := by decide +kernel
theorem test_scrub_ddr : (after (.patrolScrub (.ddr 5)) (eccMach .ue)).bit rMemDdrStat ((eccMach .ue).ddrChannel 320) = true := by decide +kernel
theorem test_pmem_ue : (runMach.tile 0).mode = .run ∧ ((after (.pmemUe 0) runMach).tile 0).mode = .fault
    ∧ (after (.pmemUe 0) runMach).bit (rTileErr 0) 1 = true := by decide +kernel
theorem test_counters_clear : upMach.hostWrites rMemCeClr = true ∧ runMach.hostWrites (rTileCntCtl 0) = true
    ∧ (after .memCeClr (upMach.setReg (rMemStkCe 0) 7)).reg (rMemStkCe 0) = 0
    ∧ ((after (.tileCntClr 0) (tileMach { onTile with cntHtag := 8 })).tile 0).cntHtag = 0 := by decide +kernel

def armedMach : Mach := { upMach.putBit (rRspAct 2) 31 true with flt := { upMach.flt with rsps := [response 0] } }
theorem test_response_witness : armedMach.flt.rsps = [response 0] ∧ bitAt (armedMach.reg (rRspAct 2)) 31 = true := by decide
theorem test_response_starts : (after .response armedMach).flt.started.map (fun p => p.entry) = [2]
    ∧ (after .response armedMach).bit (rRspAct 2) 31 = false := by decide +kernel
def lastOf (c : Instr) (m : Mach) : Nat := (after c m).rbits (rRspStat 2) 7 0
theorem test_actions : lastOf (.actNone 2) (started 0) = 0 ∧ lastOf (.actFieldSafe 2) (started 1) = 0 ∧ lastOf (.actWeaveStop 2) (started 5) = 0
    ∧ lastOf (.actDump 2) (started 7) = 0 := by decide +kernel
/-- The last port of a block, the number after it, and the event's own source. -/
theorem test_off_port : offPort { response 4 with arg := 3 } 0xB 4 = some 3 ∧ offPort { response 4 with arg := 4 } 0xB 4 = none
    ∧ offPort { response 3 with arg := 11 } 6 12 = some 11 ∧ offPort { response 3 with arg := 0xFFFF } 6 12 = none
    ∧ offPort { response 3 with arg := 0xFFFF, ev := { anEvent with block := 6, source := 7 } } 6 12 = some 7 := by decide
theorem test_port_actions : lastOf (.actPortOff 2) (started 3) = 0 ∧ lastOf (.actRingPortOff 2) (started 4) = 0 := by decide +kernel
theorem test_act_revoke : lastOf (.actRevoke 2) { leaseMach 1 with flt := { upMach.flt with started := [response 6] } } = 0 := by decide +kernel
theorem test_act_field_resume : (after (.actFieldResume 2) (started 2)).flt.waits.map (fun p => p.till) = [1000000] := by decide +kernel
def resumeWait : Mach := { upMach with flt := { upMach.flt with waits := [response 2] } }
theorem test_resume_wait_witness : (resumeWait.flt.waits.find? fun w => w.entry == 2) = some (response 2) ∧ resumeWait.crossingReady = false
    ∧ (response 2).till ≤ resumeWait.tb1 := by decide
theorem test_resume_wait_end : lastOf (.actFieldResumeWaitEnd 2) resumeWait = 1 := by decide +kernel

/-! ### Weave commands, recipes and swaps -/

/-- SHA-256 of the three bytes "abc" (FIPS 180-4). -/
theorem test_sha : sha256 (ascii "abc") = beBytes 32 0xba7816bf8f01cfea414140de5dae2223b00361a396177a9cb410ff61f20015ad := by decide +kernel
/-- Bytes in which fields (offset, length, value) stand. -/
def fieldsOf (n : Nat) (l : List (Nat × Nat × Nat)) : List Byte := leBytes n (l.foldl (fun v f => v + f.2.2 % 256 ^ f.2.1 * 256 ^ f.1) 0)
def goCtl (op : Nat) : W32 := BitVec.ofNat 32 (0x80000000 + op)
/-- A bank with an empty image, as its digest names it. -/
def bank0 : BankImg := { img := [], key := none, digest := weaveDigest [], head := none }
theorem test_bank_sound : bank0.sound = true := by simp [BankImg.sound, bank0]
def banksMach (f : BankCopy → BankCopy) : Mach := upMach.commitBanks f
def running0 : RunWeave :=
  { serial := 1, digest := 0, img := [], hdr := weaveHdr [], recipe := none, start := 0, since := none, started := true }
def runningMach : Mach := { upMach with wv := { Weaving.none with running := [running0], serial := 2 } }
theorem test_weave_takes : ∀ op ∈ [1, 2, 3, 4, 5, 6, 7], upMach.hostUp = true ∧ bitAt (goCtl op) 31 = true ∧ bits (goCtl op) 7 0 = op
    ∧ upMach.wv.cmd = none ∧ (upMach.wvTaken (goCtl op)).wvRange op (upMach.wvTaken (goCtl op)).wvArgs = false
    ∧ upMach.sec.switching = none ∧ upMach.adapt.run = none := by decide +kernel
theorem test_weave_load_witness : (banksMach fun c => { c with active := some bank0 }).mayLoad = true
    ∧ (banksMach fun c => { c with active := some bank0 }).hif.lot.isOpen = false
    ∧ (banksMach fun c => { c with active := some bank0 }).wv.running = []
    ∧ ((banksMach fun c => { c with active := some bank0 }).wvTaken (goCtl 2)).banks.active.isSome = true := by decide +kernel
theorem test_weave_load : (after (.weaveLoad (goCtl 2)) (banksMach fun c => { c with active := some bank0 })).wv.cmd.map (fun c => c.phase)
    = some .loading := by decide +kernel
theorem test_weave_stop : runningMach.wv.running ≠ [] ∧ (after (.weaveStop (goCtl 5)) runningMach).wv.cmd.map (fun c => c.phase)
    = some .waitStop ∧ (after (.weaveStop (goCtl 5)) (runningMach.setReg (rGlbWvArg 10) 4)).wv.running = [] := by decide +kernel
theorem test_weave_discard : (after (.weaveDiscard (goCtl 6)) (banksMach fun c => { c with staged := some bank0 })).banks.staged = none := by
  decide +kernel
def loadingCmd (op : Nat) (phase : WvPhase) (drain : Bool) : WvCmd :=
  { op := op, phase := phase, new := some bank0, recipe := none, p1 := 0, p2 := 0, res := 0, drain := drain, late := false, t0 := 0 }
def cmdMach (c : WvCmd) (running : List RunWeave) : Mach :=
  { banksMach (fun b => { b with staged := some bank0, active := some bank0 }) with
    wv := { Weaving.none with running := running, cmd := some c, serial := 3 } }
def waitingCmd : WvCmd := { loadingCmd 3 .waitStop true with p1 := 5 }
theorem test_weave_abort_witness : ((cmdMach waitingCmd []).wvTaken (goCtl 7)).cmdPending waitingCmd = true
    ∧ (cmdMach waitingCmd []).wv.cmd = some waitingCmd := by decide +kernel
theorem test_weave_abort : (after (.weaveAbort (goCtl 7)) (cmdMach waitingCmd [running0])).wv.cmd = none := by decide +kernel

/-- An image of one empty LATCH section for the resident context 2, without certificates, signed by OSIG's scalar 7. -/
def image1 : List Byte :=
  fieldsOf 268 [(0, 4, 0x4139574C), (4, 1, 1), (6, 2, 1), (8, 4, 264), (12, 4, 332), (33, 1, 1), (56, 1, 1), (256, 2, 3)] ++ beBytes 64
    0x51590b7a515140d2d784c85608668fdfef8c82fd1f5be52421554a0dc3d033ed77932c92689789a4c19a5cd84be27e8e0243b70d93720e6541d97a927e4d0778
def ctx2 : Ctx :=
  { owner := pkBytes (publicKey 7) ++ pkBytes (publicKey 9), conf := false, psize := 4096, tsize := 4096, pbase := 0, tbase := 4096, kp := 0,
    kt := none, kw := none, kos := none, pkg := none, pkgSha := [] }
def ctxMach : Mach := { upMach with sec := { upMach.sec with ctxs := [(2, ctx2)], resident := some 2, hostBase := 0x10000 } }
/-- The image passes every check, its signature's among them. -/
theorem test_stage_checks : stageA ctxMach.variant image1 = none ∧ stageC ctxMach.variant ctxMach.portWidth (weaveOfImage image1) = none := by decide +kernel
theorem test_stage_sig : sigOk image1 ctx2.osig = true ∧ sigOk (image1.set 9 7) ctx2.osig = false := by decide +kernel
theorem test_stage_witness : ctxMach.checkImage image1 = none := by
  have hb : ctxMach.stageB image1 = none := by
    have hc : (weaveHdr image1).ctx = true ∧ sigLen image1 = 0 := by decide +kernel
    simp [Mach.stageB, ctxMach, Mach.ctx, hc, test_stage_sig]
  simp [Mach.checkImage, test_stage_checks, hb]
/-- ECDSA over P-256 with SHA-256 of "sample": the key and the signature of RFC 6979, A.2.5. -/
theorem test_ecdsa : ecdsaSign 0xC9AFA9D845BA75166B5C215767B1D6934E50C3DB36E89B127B8A622B120F6721
      0xA6E3C57DD01ABE90086538398355DD4C3B17AA873382B0F24D6129493D8AAD60 (sha256 (ascii "sample"))
    = 0xEFD48B2AACB6A8FD1140DD9CD45E81D69D2C877B56AAF991C34D0EA84EAF3716F7CB1C942D657C41D436C7A1B6E29F65F3E900DBB9AFF4064DC4AB2F843ACDA8 := by
  decide +kernel
theorem test_ecdsa_key : (publicKey 0xC9AFA9D845BA75166B5C215767B1D6934E50C3DB36E89B127B8A622B120F6721).toNat / 2 ^ 256
    = 0x60FED4BA255A9D31C961EB74C6356D68C049B8923B61FA6CE669622E60F29FB6 := by decide +kernel
/-- Substitution and column mixing of AES: FIPS 197's 53 to ED, and the column DB 13 53 45 to 8E 4D A1 BC. -/
theorem test_aes_parts : subst 0x53 = 0xED ∧ unsubst 0xED = 0x53 ∧ (mixColumns [2, 3, 1, 1] ([0xDB, 0x13, 0x53, 0x45] ++ zeros 12)).take 4
    = [0x8E, 0x4D, 0xA1, 0xBC] := by decide +kernel
def stageMach : Mach := (ctxMach.setHostBytes 0 image1).setReg (rGlbWvArg 2) 332
theorem test_stage_image : (stageMach.wvTaken (goCtl 1)).hostBytes (argImg (stageMach.wvTaken (goCtl 1)).wvArgs)
    (argLen (stageMach.wvTaken (goCtl 1)).wvArgs) = image1 ∧ (stageMach.flash.used + image1.length ≤ bankArea) ∧ stageMach.flash.sets.length < 17
    ∧ stageMach.pwr.ddrReady = true := by decide +kernel

def swapMach (running : List RunWeave) (flags : W32) : Mach :=
  ({ banksMach (fun b => { b with staged := some bank0, previous := some bank0 }) with
    wv := { Weaving.none with running := running, serial := 3 } } : Mach).setReg (rGlbWvArg 10) flags
theorem test_swap_witness : ((swapMach [running0] 0).wvTaken (goCtl 3)).banks.staged.isSome = true
    ∧ ((swapMach [running0] 0).wvTaken (goCtl 4)).banks.previous.isSome = true ∧ (swapMach [running0] 0).mayLoad = true
    ∧ (swapMach [running0] 0).wv.running.getLast?.isSome = true := by decide +kernel
theorem test_swap_flag : argFlag ((swapMach [running0] 1).wvTaken (goCtl 3)).wvArgs 0 = true
    ∧ argFlag ((swapMach [running0] 0).wvTaken (goCtl 3)).wvArgs 0 = false := by decide +kernel
theorem test_swap_admitted : (((swapMach [running0] 0).wvTaken (goCtl 3)).admitPair (weaveOfImage bank0.img)
      ((swapMach [running0] 0).wvTaken (goCtl 3)).wvArgs).err.isNone = true := by decide +kernel
theorem test_swap : (after (.weaveActivate (goCtl 3)) (swapMach [] 0)).wv.cmd.map (fun c => c.phase) = some .loading
    ∧ (after (.weaveRollback (goCtl 4)) (swapMach [running0] 1)).wv.cmd.map (fun c => c.phase) = some .waitStop := by decide +kernel

/-- A weave with a stem on port 0, a stack window that PREP may write, and latches 0 and 1; and a recipe for it. -/
def section0 (ty : Nat) (body : List Byte) : List Byte :=
  fieldsOf 8 [(0, 2, ty), (4, 4, body.length)] ++ body ++ zeros ((8 - body.length % 8) % 8)
def prog0 : List Byte := fieldsOf 864 [(16, 4, 1), (344, 4, 1), (352, 4, 4095), (356, 2, 0xC002)]
def stem0 : List Byte := fieldsOf 144 [(8, 1, 1), (24, 2, 2)]
def weave0 : List Byte :=
  let secs := section0 1 prog0 ++ section0 3 (zeros 16) ++ section0 6 stem0
  fieldsOf 256 [(0, 4, 0x4139574C), (4, 1, 1), (6, 2, 3), (8, 4, 256 + secs.length), (38, 2, 1), (40, 4, 1000), (44, 4, 1000), (60, 2, 2), (72, 1, 1), (144, 1, 1)] ++ secs
def recipe0 : List Byte :=
  let secs := section0 1 (fieldsOf 24 [(4, 4, 1000000), (12, 4, 1000), (16, 4, 1000), (20, 4, 1000000)])
    ++ section0 2 (zeros 48)
    ++ section0 3 (fieldsOf 72 [(2, 2, 1), (4, 4, 100), (8, 1, 1), (11, 1, 1), (16, 4, 1000), (20, 2, 1), (26, 2, 64)])
    ++ section0 4 (fieldsOf 28 [(2, 2, 64), (4, 2, 64), (6, 1, 2), (16, 2, 1), (20, 2, 1), (24, 4, 1000)])
  fieldsOf 32 [(0, 1, 1), (2, 2, 4), (4, 4, 32 + secs.length)] ++ secs
/-- Queue 0 is a CMD queue with an entry, queue 1 a RESULT queue; the recipe lies in the host region from 64 on. -/
def recipeMach (running : List RunWeave) : Mach :=
  ((((({ upMach with wv := { Weaving.none with running := running, serial := 3 } } : Mach).setReg (rQCfg 0) 5).setReg (rQCfg 1) 3).setQueue 0
    { Queue.empty with pi := 1 }).setFld (rPortGeom 0 0) 13 0 63).setHostBytes 64 recipe0
def running1 : RunWeave := { running0 with img := weave0, hdr := weaveHdr weave0 }
def recipeEntry (len : Nat) : Slot := BitVec.ofNat 512 (1 + 64 * 256 ^ 8 + len * 256 ^ 16 + 4096 * 256 ^ 24)
theorem test_recipe_witness : ∀ e ∈ [slotBytes (recipeEntry recipe0.length)], (recipeMach [running1]).qReady 0 2 = true
    ∧ (recipeMach [running1]).hif.lot.ending = none ∧ (recipeMach [running1]).hif.lot.isOpen = false ∧ fieldAt e 0 1 = 1 ∧ fieldAt e 1 1 = 0
    ∧ reservedZero e [(8, 12), (24, 8)] = true ∧ fieldAt e 8 8 = 64 ∧ fieldAt e 24 8 = 4096
    ∧ (recipeMach [running1]).inHost 64 recipe0.length = true ∧ (recipeMach [running1]).inHost 4096 128 = true
    ∧ (recipeMach [running1]).wv.running.getLast? = some running1 ∧ running1.started = true ∧ (recipeMach [running1]).wv.cmd = none
    ∧ (recipeMach [running1]).fabricHeld = false ∧ (recipeMach [running1]).sec.conf = false := by decide +kernel
theorem test_recipe_admitted : (((recipeMach [running1]).qTake 0).admitImage (weaveOfImage weave0)
      (((recipeMach [running1]).qTake 0).hostBytes 64 recipe0.length)).recipe.isSome = true := by decide +kernel
theorem test_recipe_refused : (((recipeMach [running1]).qTake 0).admitImage (weaveOfImage weave0) []).recipe = none := by decide +kernel
theorem test_recipe_load : (after (.recipeLoad 0 (recipeEntry recipe0.length)) (recipeMach [running1])).prep.recipe.isSome = true
    ∧ (after (.recipeLoad 0 (recipeEntry 0)) (recipeMach [running1])).prep.recipe = none := by decide +kernel
def lotOpen (m : Mach) : Mach := { m with hif := { m.hif with lot := { m.hif.lot with isOpen := true } } }
theorem test_recipe_lot_open : (lotOpen (recipeMach [running1])).hif.lot.isOpen = true
    ∧ (after (.recipeLoad 0 (recipeEntry recipe0.length)) (lotOpen (recipeMach [running1]))).prep.recipe = none := by decide +kernel

theorem test_phases_witness : ∀ ph ∈ [WvPhase.waitStop, .draining, .loading, .loaded],
    (cmdMach (loadingCmd 3 ph true) [running0]).adapt.run = none ∧ (cmdMach (loadingCmd 3 ph true) [running0]).sec.switching = none
    ∧ (cmdMach (loadingCmd 3 ph true) [running0]).wv.cmd = some (loadingCmd 3 ph true)
    ∧ (cmdMach (loadingCmd 3 ph true) [running0]).reached (loadingCmd 3 ph true).p1 = true
    ∧ (cmdMach (loadingCmd 3 ph true) [running0]).reached (loadingCmd 3 ph true).p2 = true
    ∧ (cmdMach (loadingCmd 3 ph true) [running0]).drained (loadingCmd 3 ph true).p1 = true
    ∧ (cmdMach (loadingCmd 3 ph true) [running0]).wv.running.getLast? = some running0 := by decide +kernel
theorem test_p_stop : (after .pStop (cmdMach (loadingCmd 3 .waitStop true) [running0])).wv.cmd.map (fun c => c.phase) = some .draining
    ∧ (after .drainEnd (cmdMach (loadingCmd 3 .draining true) [running0])).wv.cmd.map (fun c => c.phase) = some .loading
    ∧ (after .drainEnd (cmdMach (loadingCmd 5 .draining true) [running0])).wv.cmd = none := by decide +kernel
theorem test_load_complete : (after .loadComplete (cmdMach (loadingCmd 2 .loading false) [])).wv.running.length = 1
    ∧ (after .loadComplete (cmdMach (loadingCmd 3 .loading true) [running0])).wv.cmd.map (fun c => c.phase) = some .loaded := by decide +kernel
def running2 : RunWeave := { running0 with serial := 2, since := some 0 }
theorem test_p_sw : (after .pSw (cmdMach (loadingCmd 3 .loaded false) [running0, running2])).wv.cmd.map (fun c => c.phase) = some .overlap
    ∧ (cmdMach (loadingCmd 3 .loaded false) [running0, running2]).reached 0 = true
    ∧ (cmdMach (loadingCmd 3 .loaded false) [running0, running2]).wv.running.getLast? = some running2 := by decide +kernel
theorem test_old_weave_done : (after .oldWeaveDone (cmdMach (loadingCmd 3 .overlap false) [running0, running2])).wv.running = [running2]
    ∧ (cmdMach (loadingCmd 3 .overlap false) [running0, running2]).prep.outstanding = []
    ∧ (cmdMach (loadingCmd 3 .overlap false) [running0, running2]).prep.markers = [] := by decide +kernel
theorem test_p_resume : (after .pResume (cmdMach (loadingCmd 3 .loaded true) [running0])).wv.cmd = none
    ∧ (after .pResume (cmdMach (loadingCmd 3 .loaded true) [running0])).banks.staged = none := by decide +kernel

/-! ### Adaptation -/

def adaptSec0 : AdaptSec :=
  { tensors := [], cut := 0, featOff := 0, nf := 4, fsz := 1, labOff := 4096, nmax := 2, ncls := 3, secs := [], latch0 := 0, ringTile := 0, ringSlot := 0,
    ringLen := 4, relLatch := 0, hdrTile := 0, hdrSlot := 9, wRun := 700 }
def label0 : LabelPos := { idx := 0, cls := 1, weight := 1 }
def run1 (phase : AdaptPhase) (status : Nat) : AdaptRun :=
  { isRun := true, tag := 0, keep := false, nosel := false, version := 1, parent := 0, pStop := 0, pResume := 0, lr := 0, phase := phase,
    late := false, status := status, nlab := 1, tStart := 0, cyc4 := 0, cycles := 0, ring := 0, serial := 1, slot := 1, ldigest := 0, wdigest := 0 }
def slot7 : VersionSlot := { num := 7, parent := 0, nlab := 1, wdigest := 0, data := [], masters := [] }
/-- The running weave's section, one label, version 7 in slot 0, and queue 0 an adaptation queue with an entry. -/
def adaptMach (run : Option AdaptRun) : Mach :=
  (({ runningMach with
      adapt := { Adapt.empty with sec := some adaptSec0, labels := [some label0], slots := [some slot7, none, none, none], run := run } } : Mach).setReg
    (rQCfg 0) 19).setQueue 0 { Queue.empty with pi := 1 }
def adaptEntry (op v : Nat) : Slot := BitVec.ofNat 512 (op + v * 256 ^ 4)
theorem test_adapt_takes : ∀ op ∈ [1, 2, 3, 4, 5, 6, 7], (adaptMach none).queueOfType 9 = some 0 ∧ (adaptMach none).qReady 0 9 = true
    ∧ (adaptMach none).section = some adaptSec0 ∧ fieldAt (slotBytes (adaptEntry op 0)) 0 1 = op
    ∧ fieldAt (slotBytes (adaptEntry op 0)) 1 1 = 0 ∧ reservedZero (slotBytes (adaptEntry op 0)) [] = true := by decide +kernel
theorem test_adapt_version_witness : reservedZero (slotBytes (adaptEntry 3 7)) [(4, 4)] = true
    ∧ fieldAt (slotBytes (adaptEntry 3 7)) 4 4 = 7 ∧ ((adaptMach none).qTake 0).version adaptSec0 7 = some slot7
    ∧ (adaptMach none).adapt.slotOf 7 = some slot7 ∧ (adaptMach none).adapt.active = 0 ∧ (adaptMach none).runBusy = false
    ∧ (adaptMach none).adapt.labelCount = 1 ∧ (adaptMach none).adapt.slots.any Option.isNone = true := by decide +kernel
theorem test_adapt_export_witness : let m : Mach := { adaptMach none with sec := { ctxMach.sec with sdev := some 5 } }
    m.sec.resident = some 2 ∧ m.ctx 2 = some ctx2 ∧ m.sec.sdev = some 5 := by decide +kernel
theorem test_adapt_run : (after (.adaptRun (adaptEntry 1 0)) (adaptMach none)).adapt.run.map (fun r => (r.version, r.phase)) = some (8, .waitStop) := by
  decide +kernel
theorem test_adapt_select : (after (.adaptSelect (adaptEntry 2 7)) (adaptMach none)).adapt.run.map (fun r => (r.version, r.isRun))
    = some (7, false) := by decide +kernel
theorem test_adapt_discard : (after (.adaptDiscard (adaptEntry 4 7)) (adaptMach none)).adapt.slots = [none, none, none, none] := by decide +kernel
def knownMach : Mach := { adaptMach none with sec := { upMach.sec with sdev := some 5 } }
theorem test_adapt_commit : (after (.adaptCommit (adaptEntry 3 7)) knownMach).banks.seq = 1 ∧ knownMach.sec.sdev = some 5
    ∧ (after (.adaptCommit (adaptEntry 3 7)) (adaptMach none)).banks.seq = 0
    ∧ (after (.adaptCommit (adaptEntry 3 0)) (adaptMach none)).banks.seq = 1 := by decide +kernel
theorem test_adapt_clear : (after (.adaptClear (adaptEntry 6 0)) (adaptMach none)).adapt.labels = []
    ∧ (after (.adaptClear (adaptEntry 6 0)) (adaptMach (some (run1 .running 0)))).adapt.waitingClear = [0] := by decide +kernel
theorem test_adapt_status : ((after (.adaptStatus (adaptEntry 7 0)) (adaptMach none)).queue 0).ci = 1 := by decide +kernel
def labelMach : Mach := (adaptMach none).setReg (rQCfg 0) 15
theorem test_label_queue : ((List.range 8192).find? fun k => labelMach.qReady k 7) = some 0 ∧ labelMach.fabricHeld = false := by decide +kernel
/-- A label with weight 0 for sample 0 removes position 0. -/
theorem test_adapt_label : (after (.adaptLabel 0) labelMach).adapt.labels = [none] := by decide +kernel
/-- Bytes of a label record, one for each rule of R254; the class bound is 3. -/
def record (idx cls weight : Nat) : List Byte := leBytes 6 idx ++ leBytes 1 cls ++ [0#8] ++ leBytes 2 weight ++ zeros 6
theorem test_label_rules : ((adaptMach none).handleLabel (record 0 3 1)).1 = 5 ∧ ((adaptMach none).handleLabel (record 0 2 0)).1 = 2
    ∧ ((adaptMach none).handleLabel (record 5 2 0)).2.1 = 0xFFFFFFFF ∧ ((adaptMach none).handleLabel (record 0 2 9)).1 = 1
    ∧ ((adaptMach none).handleLabel (record 5 2 9)).1 = 3 := by decide +kernel
def emptyStore (n : Nat) : Mach :=
  { adaptMach none with adapt := { (adaptMach none).adapt with labels := List.replicate n (some { label0 with idx := 9 }) } }
theorem test_label_room : ((emptyStore 1).handleLabel (record 0 2 9)).1 = 0 ∧ ((emptyStore 2).handleLabel (record 0 2 9)).1 = 6 := by
  decide +kernel
/-- The feature entry of sample 0 is tainted, wherever the store lies in the context's region. -/
def tainted : Mach :=
  ({ emptyStore 1 with sec := ctxMach.sec } : Mach).setDdrBytes (({ emptyStore 1 with sec := ctxMach.sec } : Mach).featAddr adaptSec0 0 + 6) [1#8]
theorem test_label_tainted (h : tainted.inPersistent (tainted.featAddr adaptSec0 0) (64 * adaptSec0.fsz) = true) :
    fieldAt (tainted.storeBytes (tainted.featAddr adaptSec0 0) (64 * adaptSec0.fsz)) 0 6 = 0
    ∧ fieldAt (tainted.storeBytes (tainted.featAddr adaptSec0 0) (64 * adaptSec0.fsz)) 6 2 % 16 ≠ 0 := by
  have h : tainted.storeBytes (tainted.featAddr adaptSec0 0) (64 * adaptSec0.fsz) = [0, 0, 0, 0, 0, 0, 1] ++ zeros 57 := by
    rw [Mach.storeBytes, if_pos h]
    show ({ emptyStore 1 with sec := ctxMach.sec, mem := { (emptyStore 1).mem with
      ddr := writeBytes [] (({ emptyStore 1 with sec := ctxMach.sec } : Mach).featAddr adaptSec0 0 + 6) [1#8] } } : Mach).ddrBytes
        (({ emptyStore 1 with sec := ctxMach.sec } : Mach).featAddr adaptSec0 0) 64 = _
    generalize (({ emptyStore 1 with sec := ctxMach.sec } : Mach).featAddr adaptSec0 0) = A
    simp [Mach.ddrBytes, Mach.ddrByte, Mach.stale, coverOf, emptyStore, adaptMach, runningMach, upMach, Mach.reset, Mem.empty, readByte, writeBytes, FMap.put,
      FMap.erase, FMap.ins, FMap.get, emptyByte, zeros, List.replicate, List.range, List.range.loop, Mach.setQueue, Mach.setReg]
  rw [h]; decide

theorem test_run_phases_witness : ∀ ph ∈ [AdaptPhase.waitStop, .draining, .loading, .running, .reloading, .waitResume],
    (adaptMach (some (run1 ph 0))).adapt.run = some (run1 ph 0) ∧ (adaptMach (some (run1 ph 0))).adapt.sec = some adaptSec0
    ∧ (adaptMach (some (run1 ph 0))).reached (run1 ph 0).pStop = true ∧ (adaptMach (some (run1 ph 0))).reached (run1 ph 0).pResume = true
    ∧ (adaptMach (some (run1 ph 0))).drained (run1 ph 0).pStop = true := by decide +kernel
theorem test_run_end_witness : (adaptMach (some (run1 .running 0))).runTainted adaptSec0 = false
    ∧ (adaptMach (some (run1 .running 0))).allHalted adaptSec0 = true ∧ (adaptMach (some (run1 .running 0))).plansDone adaptSec0 = true
    ∧ (adaptMach (some (run1 .running 0))).adapt.slots.findIdx? Option.isNone = some 1 := by decide +kernel
/-- A section with one program, whose tile runs and has its epoch granted. -/
def adaptSec1 : AdaptSec := { adaptSec0 with secs := [(1, prog0)] }
def epochWait : Wait := { latch := 0, who := .prep 0, amount := 1, first := 0, arrive := 0, granted := some 0 }
def epochMach : Mach :=
  { (adaptMach (some (run1 .running 0))).setTile 0 onTile with
    waits := [epochWait], adapt := { (adaptMach (some (run1 .running 0))).adapt with sec := some adaptSec1 } }
theorem test_epoch_witness : epochMach.allHalted adaptSec1 = false ∧ (epochMach.waits.find? fun w => w.who == Waiter.prep 0) = some epochWait
    ∧ epochWait.granted.isSome = true := by decide +kernel
theorem test_epoch_start : (after .epochStart epochMach).flights.length = 2 := by decide +kernel
theorem test_run_end : (after .runEnd (adaptMach (some (run1 .running 0)))).adapt.run.map (fun r => (r.phase, r.status)) = some (.reloading, 0)
    ∧ (after .runEnd (adaptMach (some (run1 .running 0)))).adapt.labels = []
    ∧ (after .runEnd (adaptMach (some (run1 .running 6)))).adapt.run.map (fun r => (r.phase, r.status)) = some (.reloading, 6) := by
  decide +kernel
def lateMach : Mach := { adaptMach (some (run1 .running 0)) with cyc := 10000000 }
theorem test_run_timeout : (run1 .running 0).tStart + ceilDiv (5 * adaptSec0.wRun) 7 + 1000000 ≤ lateMach.tb1
    ∧ (after .runTimeout lateMach).adapt.run.map (fun r => r.status) = some 7 := by decide +kernel

/-! ### Stems, ROI samplers, camera ports, ring links, weirs -/

def line0 (l : Nat) : VLine :=
  { r := { l := l, pos := 0, posv := false, tb1 := 0, fn := 0, gen := 0, st := .ok, gap := false }, pix := [7] }
/-- Port 0 has a stem with rows of one line, a ring of two rows, and a line in its buffer. -/
def stemMach (x : StemPort) : Mach :=
  ((upMach.setFld (rPortGeom 0 0) 13 0 0).setStem 0 { x with cfg := { StemCfg.off with en := true, ringRows := 2 } }).setPort 0 { Port.idle with vbuf := [line0 0] }
theorem test_stem_line_witness : ((stemMach StemPort.idle).port 0).vbuf = [line0 0] ∧ ((stemMach StemPort.idle).stem 0).cfg.en = true
    ∧ (line0 0).r.l / ((stemMach StemPort.idle).stem 0).cfg.b
      < ((stemMach StemPort.idle).stem 0).oldest + ((stemMach StemPort.idle).stem 0).cfg.kh + 1 := by decide +kernel
theorem test_stem_line_take : ((after (.stemLineTake 0 0) (stemMach StemPort.idle)).stem 0).taken = 1
    ∧ ((after (.stemLineTake 0 0) (stemMach StemPort.idle)).port 0).vbuf = [] := by decide +kernel
def dueMach (released : Nat) : Mach := stemMach { StemPort.idle with taken := 3, nextRow := 2, released := released }
theorem test_stem_row_witness : ((dueMach 1).stem 0).due (((dueMach 1).port 0).vbuf.isEmpty) = true
    ∧ ((dueMach 1).stem 0).nextRow < ((dueMach 1).stem 0).released + 2 ∧ ((dueMach 0).stem 0).released + 2 ≤ ((dueMach 0).stem 0).nextRow := by
  decide +kernel
theorem test_stem_row_write : ((after (.stemRowWrite 0 0) (dueMach 1)).stem 0).nextRow = 3
    ∧ (after (.stemRowWrite 0 0) (dueMach 1)).flights.length = 1 ∧ (after (.stemRowWrite 0 0) (dueMach 0)).bit (rStemErr 0) 2 = true := by
  decide +kernel
def checkedMach : Mach := stemMach { StemPort.idle with checking := [(4, 0, false, false)] }
theorem test_stem_row_done : (checkedMach.stem 0).checking = [(4, 0, false, false)]
    ∧ (after (.stemRowDone 0 0) checkedMach).prep.rows.map (fun r => r.row) = [4]
    ∧ (after (.stemRowDone 0 0) checkedMach).reg (rStemRows 0 0) = 1 := by decide +kernel

def job0 : RoiJob := roiJob (zeros 64)
def roiMach (x : Roi) : Mach := upMach.setRoi 0 { x with planMode := true }
def roiIdle (j : RoiJob) : Mach := roiMach { Roi.idle with jobs := [j] }
theorem test_roi_witness : ((roiIdle job0).roi 0).jobs[((roiIdle job0).roi 0).job]? = some job0 ∧ job0.gate = false
    ∧ ((roiIdle job0).roi 0).planMode = true ∧ ((roiIdle job0).roi 0).aborted = false ∧ ((roiIdle job0).roi 0).st = .idle
    ∧ ((roiIdle { job0 with gate := true }).waits.find? fun w => w.who == Waiter.roi 0) = none
    ∧ ((roiIdle { job0 with gate := true }).latch job0.glatch).st ≠ .revoked := by decide +kernel
theorem test_roi_job_start : ((after (.roiJobStart 0) (roiIdle job0)).roi 0).st = .read ∧ (after (.roiJobStart 0) (roiIdle job0)).chanQ.length = 2
    ∧ ((after (.roiJobStart 0) (roiIdle { job0 with gate := true })).roi 0).st = .gate := by decide +kernel
/-- The last granule of an empty box list has returned: no map is read, and no crop sets out. -/
def roiReading (j : RoiJob) : Mach := roiMach { Roi.idle with jobs := [j], st := .read, left := 1 }
theorem test_roi_got : ((roiReading job0).roi 0).jobs[((roiReading job0).roi 0).job]? = some job0 ∧ (roiReading job0).granErrors 0 0 = []
    ∧ (((roiReading job0).roiGot 0 0 0).roi 0).st = .write ∧ (((roiReading job0).roiGot 0 0 0).roi 0).left = 0 := by decide +kernel
/-- A box list of one box, the pixel (0, 0): the map's granule is read; and the same job when that has returned. -/
def roiBoxes (listed : Bool) : Mach :=
  (roiMach { Roi.idle with jobs := [{ job0 with nk := 1 }], st := .read, left := 1, listed := listed, got := [(0, BitVec.ofNat 512 (256 ^ 8))] }).setGran 0 1
    (BitVec.ofNat 512 (256 ^ 9 + 256 ^ 13))
theorem test_roi_boxes : ((roiBoxes false).roiGot 0 0 1).chanQ.map (fun q => q.gran) = [0]
    ∧ (((roiBoxes false).roiGot 0 0 1).roi 0).listed = true ∧ ((roiBoxes true).roiGot 0 0 1).flights.length = 1 := by decide +kernel
/-- A correctable error in a granule that is not the last. -/
def roiErrorMach : Mach :=
  { roiMach { Roi.idle with jobs := [job0], st := .read, left := 2 } with mem := (eccMach .ce).mem }
theorem test_roi_error : (roiErrorMach.roiGot 0 0 5).bit (rRoiErr 0) 0 = true ∧ ((roiErrorMach.roiGot 0 0 5).roi 0).ce = true := by decide +kernel
def roiDone : Mach := roiMach { Roi.idle with jobs := [{ job0 with csig := true, ccnt := 4 }], st := .write }
theorem test_roi_complete : (roiDone.roi 0).st = .write ∧ (roiDone.roi 0).left = 0
    ∧ (after (.roiJobComplete 0) roiDone).signals.map (fun g => g.amount) = [4] ∧ (after (.roiJobComplete 0) roiDone).flights.length = 1 := by
  decide +kernel
theorem test_roi_abort : roiDone.hostWrites (rRoiCtl 0) = true ∧ roiDone.variant.hasDie 0 = true ∧ (roiDone.roi 0).st ≠ .fault
    ∧ ((after (.roiAbort 0) roiDone).roi 0).aborted = true ∧ (after (.roiFault 0) roiDone).bit (rRoiErr 0) 5 = true := by decide +kernel

def cable0 : Cable := .passive 2
/-- PORT_CFG of one lane, enabled: RAW8. -/
def portMach : Mach := upMach.setFld (rPortGeom 0 0) 13 0 63
theorem test_port_witness : upMach.hostUp = true ∧ upMach.variant.hasDie 0 = true ∧ portMach.portEn 0 = false
    ∧ ((portMach.writeReg (rPortCfg 0 0) 1).putBit (rPortCfg 0 0) 0 false).portOk 0 = true
    ∧ ((portMach.writeReg (rPortCfg 0 0) 0x5001).putBit (rPortCfg 0 0) 0 false).portOk 0 = false := by decide +kernel
def portOn : Mach := after (.portEnable 0 0 1 cable0) portMach
theorem test_port_enable : portOn.portEn 0 = true ∧ portOn.lstate 0 = 1
    ∧ (after (.portEnable 0 0 0x5001 cable0) portMach).bit (rPortErr 0 0) 15 = true := by decide +kernel
theorem test_port_on_witness : (portOn.writeReg (rPortCfg 0 0) 1).reg (rPortCfg 0 0) = portOn.reg (rPortCfg 0 0)
    ∧ (portOn.writeReg (rPortCfg 0 0) 0).reg (rPortCfg 0 0) = (portOn.putBit (rPortCfg 0 0) 0 false).reg (rPortCfg 0 0)
    ∧ (portOn.writeReg (rPortCfg 0 0) 0x10).reg (rPortCfg 0 0) ≠ (portOn.putBit (rPortCfg 0 0) 0 false).reg (rPortCfg 0 0) := by decide +kernel
theorem test_port_disable : (after (.portDisable 0 0 0) portOn).portEn 0 = false ∧ (after (.portDisable 0 0 0) portOn).lstate 0 = 0
    ∧ (after (.portDisable 0 0 0x10) portOn).portEn 0 = true := by decide +kernel
def ringPortOn : Mach := after (.ringLinkEnable 0 1 cable0) upMach
theorem test_ring_link_witness : upMach.variant.absentReg (rRpCtl 0) = false ∧ upMach.bit (rRpCtl 0) 0 = false ∧ ringPortOn.bit (rRpCtl 0) 0 = true
    ∧ bitAt (rpCtlOf 1) 0 = true ∧ bitAt (rpCtlOf 0) 0 = false := by decide +kernel
theorem test_ring_link_enable : ringPortOn.rpState 0 = 1 ∧ (ringPortOn.link 12).stage = .locking
    ∧ ((after (.ringLinkEnable 0 0 cable0) ringPortOn).link 12).stage = .off := by decide +kernel
def ringUpLink : Mach := ringPortOn.setLink 12 { Link.off with stage := .up }
theorem test_ring_retrain : (after (.ringRetrain 0) ringUpLink).bit rLnkErr 4 = true
    ∧ ((after (.ringLinkFault 0) ringUpLink).link 12).stage = .locking ∧ (ringUpLink.link 12).stage ≠ .locking := by decide +kernel
theorem test_weir_insert : (after (.weirInsert 0) upMach).rbits rLnkWeir 1 0 = 0 := by decide +kernel
def weirMach : Mach := (upMach.putBit rLnkWeir 6 true).setFld rLnkWeir 5 4 (3 - upMach.rbits rLnkWeir 1 0)
theorem test_weir_witness : weirMach.bit rLnkWeir 6 = true ∧ weirMach.bit rLnkWeir 0 ≠ weirMach.bit rLnkWeir 4 := by decide +kernel
theorem test_weir_done : (after (.weirSwitchDone 0 true) weirMach).bit rLnkWeir 4 = weirMach.bit rLnkWeir 0
    ∧ (after (.weirSwitchDone 0 false) weirMach).bit rLnkErr 20 = true := by decide +kernel

/-! ### Lanes and bring-up -/

/-- Ring port 0 is connected, and its lanes wait to lock. -/
def lockMach : Mach := (ringPortOn.putBit rLnkWeir 4 true).setLane 24 { Lane.quiet with preset := some 0 }
theorem test_lane_witness : lockMach.linkOfLane (laneNo (.ring 0 0)) = some 12 ∧ (lockMach.link 12).stage = .locking
    ∧ (lockMach.lane 24).preset.isSome = true ∧ (lockMach.lane 24).lowPower = false ∧ lockMach.ringConnected 0 = true := by decide +kernel
def camMach : Mach := portOn.setLane 0 { Lane.quiet with preset := some 0 }
theorem test_cam_lane_witness : camMach.linkOfLane (laneNo (.cam 0 0)) = some 0 ∧ (camMach.link 0).stage = .locking
    ∧ (camMach.lane 0).preset.isSome = true := by decide +kernel
theorem test_block_lock : ((after (.blockLock (.cam 0 0) none false) camMach).lane 0).lock = true
    ∧ ((after (.blockLock (.cam 0 0) none false) camMach).link 0).stage = .mapping
    ∧ ((after (.blockLock (.ring 0 0) (some 0) false) lockMach).lane 24).lock = true := by decide +kernel
def block0 : W64 := 0x965A4B
def hearMach : Mach := lockMach.setLane 24 { Lane.quiet with lock := true, preset := some 0 }
theorem test_training_witness : trainingOk block0 = true ∧ (hearMach.lane 24).lock = true ∧ hearMach.linkOfLane (laneNo (.ring 0 0)) = some 12
    ∧ (hearMach.link 12).stage ≠ .off := by decide +kernel
theorem test_training_block : ((after (.trainingBlock (.ring 0 0) block0 false) hearMach).lane 24).heardValid
    = ((hearMach.lane 24).hear block0 false).heardValid := by decide +kernel
def tapMach (p : Option (BitVec 3)) : Mach := hearMach.setLane 24 { Lane.quiet with reqSeen := true, reqPreset := p, reqPre := 1 }
theorem test_tap_witness : ((tapMach (some 1)).lane 24).reqSeen = true ∧ ((tapMach (some 1)).lane 24).reqPreset = some 1
    ∧ ((tapMach none).lane 24).reqPreset = none := by decide +kernel
theorem test_tap_step : tapStep 1 3 20 8 0 = (4, 1) ∧ tapStep 1 8 0 8 0 = (8, 3) ∧ tapStep 1 4 20 8 0 = (4, 3) ∧ tapStep 2 0 0 8 0 = (0, 2) := by
  decide
theorem test_tap_update : ((after (.tapUpdate (.ring 0 0)) (tapMach none)).taps 24).1 = ((tapMach none).taps 24).1 + 1 := by decide +kernel
def lockedCam : Mach := camMach.setLane 0 { Lane.quiet with lock := true, preset := some 0 }
theorem test_lock_loss : (lockedCam.lane 0).lock = true ∧ ((after (.blockLockLoss (.cam 0 0) 16) lockedCam).lane 0).lock = false
    ∧ ((after (.blockLockLoss (.cam 0 0) 15) lockedCam).lane 0).lock = true := by decide +kernel
theorem test_window_fault : (after (.windowFault (.cam 0 0) 16) lockedCam).reg (rClIhdr 0) = 16
    ∧ ((after (.windowFault (.ring 0 0) 16) hearMach).link 12).stage = .locking := by decide +kernel

def staged (k : Nat) (st : LinkStage) : Mach := (portOn.setReg (rRpCtl 0) 1).setLink k { Link.off with stage := st }
theorem test_link_stage_witness : ∀ k ∈ [0, 12], ((staged k .quality).link k).stage = .quality ∧ ((staged k .quality).link k).retried = false
    ∧ ((staged k .deskew).link k).stage = .deskew ∧ ((staged k .adapt).link k).stage = .adapt ∧ ((staged k .locking).link k).stage = .locking
    ∧ (staged k .locking).allLocked k = false ∧ ((staged k .failed).link k).stage = .failed := by decide +kernel
theorem test_adapt_on : ((staged 12 .quality).putBit (rRpCtl 0) 4 true).adaptOn 12 24 = true ∧ (staged 12 .quality).adaptOn 12 24 = false
    ∧ ((staged 0 .quality).putBit (rClCtl 0) 3 true).adaptOn 0 0 = true := by decide +kernel
theorem test_checked_witness : (staged 12 .quality).checked 12 [] = [(24, 0), (25, 0), (26, 0), (27, 0)]
    ∧ (staged 12 .quality).checked 12 [0, 3] = [(24, 0), (25, 3), (26, 0), (27, 0)] := by decide +kernel
theorem test_quality_check : ((after (.qualityCheck (.ring 0) []) (staged 12 .quality)).link 12).stage = .up
    ∧ ((after (.qualityCheck (.cam 0 0) [0]) (staged 0 .quality)).link 0).stage = .ready
    ∧ ((after (.qualityCheck (.ring 0) [0, 3]) ((staged 12 .quality).putBit (rRpCtl 0) 4 true)).link 12).stage = .adapt := by decide +kernel
theorem test_adaptive_end : ((after (.adaptiveTrainingEnd (.cam 0 0)) (staged 0 .adapt)).link 0).stage = .quality := by decide +kernel
def readyLanes : Mach :=
  [24, 25, 26, 27].foldl (fun (m : Mach) i => m.setLane i { Lane.quiet with peerReady := true, rxReady := true }) (staged 12 .adapt)
theorem test_adaptive_ring_witness : ∀ i ∈ readyLanes.lanesOf 12, (readyLanes.lane i).peerReady = true ∧ (readyLanes.lane i).rxReady = true := by decide +kernel
theorem test_deskew : ((after (.deskewDone (.cam 0 0) 48) (staged 0 .deskew)).link 0).stage = .up
    ∧ ((after (.deskewDone (.cam 0 0) 49) (staged 0 .deskew)).link 0).stage ≠ .up
    ∧ ((after (.deskewDone (.ring 0) 48) (staged 12 .deskew)).link 12).stage = .quality := by decide +kernel
theorem test_lock_timeout : ((after (.lockTimeout (.ring 0)) (staged 12 .locking)).link 12).timedOut = true
    ∧ ((after (.bringupRetry (.cam 0 0)) (staged 0 .failed)).link 0).stage = .locking := by decide +kernel
def trialMach (n : Nat) : Mach := (staged 12 .locking).setLink 12 { Link.off with stage := .locking, timedOut := true, trial := n }
theorem test_preset_retry : ((trialMach 3).link 12).timedOut = true ∧ ((after (.presetRetry 0) (trialMach 3)).link 12).trial = 4
    ∧ ((after (.presetRetry 0) (trialMach 4)).link 12).timedOut = false := by decide +kernel
theorem test_relock_timeout : ((staged 0 .relock).link 0).stage = .relock
    ∧ ((after (.relockTimeout 0 0) (staged 0 .relock)).link 0).stage = .locking := by decide +kernel

/-! ### Camera packets -/

/-- Port 0 of block 0 takes four pixels of eight bits a line and two lines a frame, images on channel 0 and control on 1; its link state is
given. -/
def quietCam (ls : Nat) : Mach := (((upMach.setReg (rPortGeom 0 0) 0x10003).setReg (rPortCfg 0 0) 0x101).setLstate 0 ls).setLink 0 { Link.off with stage := .up }
def frame0 : Frame := { fn := 5, gen := 1, tfs := 0, l0 := 0, lines := [], long := false, ovf := false, fnSkip := false, ffcBypassed := false }
def cam (ls : Nat) (f : Option Frame) : Mach := (quietCam ls).setPort 0 { Port.idle with frame := f }
/-- The header octets of a packet of channel 0 to 3: R197. -/
def hdrOctets (chan dt field : Nat) : List Byte :=
  let d := dt + chan * 64 + field * 256
  leBytes 3 d ++ [BitVec.ofNat 8 (eccOf d)]
/-- Octets as blocks: a start block, data blocks, and a terminate block (R198). -/
def blocksOf66 (o : List Byte) : List Block :=
  let rest := o.drop 7
  let ctl := fun (type : Nat) (bs : List Byte) => ({ ctl := true, data := BitVec.ofNat 64 (leNat (padTo 8 (leBytes 1 type ++ bs))) } : Block)
  ctl 0x78 (o.take 7) :: ((List.range (rest.length / 8)).map fun i => ({ ctl := false, data := BitVec.ofNat 64 (fieldAt rest (8 * i) 8) } : Block))
    ++ [ctl ([0x87, 0x99, 0xAA, 0xB4, 0xCC, 0xD2, 0xE1, 0xFF].getD (rest.length % 8) 0) (rest.drop (rest.length / 8 * 8))]
def shortPkt (dt field : Nat) : List Block := blocksOf66 (hdrOctets 0 dt field)
/-- The octets of a long packet, with its checksum off by some amount. -/
def longOctets (chan dt : Nat) (body : List Byte) (off : Nat) : List Byte := hdrOctets chan dt body.length ++ body ++ leBytes 2 (crcCsi body + off)
def longPkt (chan dt : Nat) (body : List Byte) (off : Nat) : List Block := blocksOf66 (longOctets chan dt body off)
/-- The command that a long packet's blocks spell. -/
def pixels0 (l : List Block) : Instr :=
  match l with
  | b :: r => .pixelPacket 0 0 b r
  | [] => .pixelPacket 0 0 ⟨true, 0⟩ []
/-- The packet that some blocks hold. -/
def packetIn (bs : List Block) : Option Packet := match deframe none bs with
  | .packet o => packetOf o
  | _ => none
/-- The blocks hold a packet that the port takes. -/
def takes (m : Mach) (bs : List Block) : Bool := match packetIn bs with
  | some k => m.portHears 0 && !(m.heard 0 k).scrubbing && (m.heard 0 k).rightChannel 0 k && ((m.heard 0 k).lstate 0 == 3 || (m.heard 0 k).lstate 0 == 4)
  | none => false
theorem test_carries (bs : List Block) (k : Packet) (h : packetIn bs = some k) : Carries bs k := by
  unfold packetIn at h
  split at h
  · exact ⟨_, by assumption, h⟩
  · cases h
theorem test_taken (m : Mach) (bs : List Block) (k : Packet) (h : packetIn bs = some k) (ht : takes m bs = true) : m.PacketTaken 0 k := by
  simpa [takes, h, Mach.PacketTaken, and_assoc] using ht
/-- The check bits of a header with Data Identifier 0x37 and word count 0x01F0, the worked example of the error code: 0x3F. -/
theorem test_ecc : eccOf 0x01F037 = 0x3F := by decide +kernel
/-- A header bit that arrives inverted is corrected, two are not. -/
theorem test_header : checkHeader 0x01F035 0x3F = .corrected 0x01F037 ∧ checkHeader 0x01F034 0x3F = .bad := by decide +kernel
theorem test_crc_csi : crcCsi [0xFF, 0, 0, 2, 0xB9, 0xDC, 0xF3, 0x72, 0xBB, 0xD4, 0xB8, 0x5A, 0xC8, 0x75, 0xC2, 0x7C, 0x81, 0xF8, 0x05, 0xDF, 0xFF, 0, 0, 1] = 0x00F0 := by
  decide +kernel
theorem test_unpack : unpack 10 [0xFF, 0, 1, 2, 0xE4] = [1020, 1, 6, 11] ∧ unpack 12 [0x12, 0x34, 0x56] = [0x126, 0x345] := by decide +kernel
theorem test_packet_taken : takes (cam 3 none) (shortPkt 0 0x0205) = true ∧ takes (cam 4 (some frame0)) (shortPkt 2 9) = true
    ∧ takes (cam 4 none) (shortPkt 3 9) = true ∧ takes (cam 4 (some frame0)) (shortPkt 1 5) = true
    ∧ takes (cam 4 (some frame0)) (longPkt 0 0x2A [1, 2, 3, 4] 0) = true ∧ takes (cam 4 (some frame0)) (longPkt 0 0x2B [1] 0) = true := by
  decide +kernel
theorem test_packet_types : [shortPkt 0 0x0205, shortPkt 1 5, shortPkt 2 9, shortPkt 3 9, longPkt 0 0x2A [1, 2, 3, 4] 0, longPkt 1 0x31 (zeros 16) 0,
    longPkt 1 0x33 (zeros 8) 0, longPkt 1 0x34 (zeros 8) 0].map (fun b => (packetIn b).map fun k => (k.dt.toNat, k.field.toNat, k.crcOk || k.trunc))
    = [some (0, 0x205, true), some (1, 5, true), some (2, 9, true), some (3, 9, true), some (0x2A, 4, true), some (0x31, 16, true), some (0x33, 8, true),
       some (0x34, 8, true)] := by decide +kernel
theorem test_frame_start : ((after (.frameStart ⟨0, 0⟩ (shortPkt 0 0x0205)) (cam 3 none)).port 0).frame.map (fun f => (f.fn, f.gen)) = some (5, 2)
    ∧ (after (.frameStart ⟨0, 0⟩ (shortPkt 0 0x0205)) (cam 3 none)).lstate 0 = 4 := by decide +kernel
theorem test_line_start : ((after (.lineStart ⟨0, 0⟩ (shortPkt 2 9)) (cam 4 (some frame0))).port 0).ls = some (9, 0)
    ∧ (after (.lineStart ⟨0, 0⟩ (shortPkt 2 9)) (cam 4 none)).bit (rPortErr 0 0) 6 = true := by decide +kernel
theorem test_line_end : (after (.lineEnd ⟨0, 0⟩ (shortPkt 3 9)) (cam 4 none)).bit (rPortErr 0 0) 6 = true := by decide +kernel
theorem test_frame_end : ((after (.frameEnd ⟨0, 0⟩ (shortPkt 1 5)) (cam 4 (some frame0))).port 0).lidx = 2
    ∧ (after (.frameEnd ⟨0, 0⟩ (shortPkt 1 5)) (cam 4 (some frame0))).reg (rPortFrames 0 0) = 1 := by decide +kernel
/-- The line image on channel 1, where control belongs; and in link state 2. -/
theorem test_not_taken : (cam 4 (some frame0)).portHears 0 = true
    ∧ (packetIn (longPkt 1 0x2A [1, 2, 3, 4] 0)).any (fun k => (cam 4 (some frame0)).rightChannel 0 k) = false
    ∧ (after (pixels0 (longPkt 1 0x2A [1, 2, 3, 4] 0)) (cam 4 (some frame0))).bit (rPortErr 0 0) 5 = true
    ∧ (cam 2 none).portHears 0 = true ∧ (after (.frameStart ⟨0, 0⟩ (shortPkt 0 0x0205)) (cam 2 none)).bit (rPortErr 0 0) 6 = true := by decide +kernel
/-- A header with two bits inverted. -/
def badHdr : List Block := blocksOf66 ([0x35, 0xF0, 0x00, 0x3F] ++ zeros 20)
theorem test_hdr_ue : packetIn badHdr = none ∧ (match deframe none badHdr with
    | .packet _ => true
    | _ => false) = true ∧ ((after (.hdrUe ⟨0, 0⟩ badHdr) (cam 4 (some frame0))).port 0).ueGap = true := by decide +kernel
theorem test_pixel_witness : (packetIn (longPkt 0 0x2A [1, 2, 3, 4] 0)).map (fun k => k.dt.toNat) = some ((cam 4 (some frame0)).portDt 0)
    ∧ frame0.lines.length < (cam 4 (some frame0)).portLines 0 ∧ ((cam 4 (some frame0)).port 0).drop = false
    ∧ ((cam 4 (some frame0)).stem 0).cfg.en = false ∧ (cam 4 (some frame0)).portWc 0 = 4 := by decide +kernel
def lines0 (m : Mach) : List (List Nat × LineState) := ((m.port 0).frame.map fun f => f.lines.map fun l => (l.pix, l.r.st)).getD []
theorem test_pixel_packet : lines0 (after (pixels0 (longPkt 0 0x2A [1, 2, 3, 4] 0)) (cam 4 (some frame0)))
    = [([256, 512, 768, 1024], .ok)] := by decide +kernel
theorem test_pixel_faults : (lines0 (after (pixels0 (longPkt 0 0x2A [1, 2, 3, 4] 1)) (cam 4 (some frame0)))).map (fun l => l.2) = [.bad]
    ∧ (after (pixels0 (longPkt 0 0x2B [1, 2, 3, 4] 0)) (cam 4 (some frame0))).bit (rPortErr 0 0) 4 = true := by decide +kernel
def fullFrame : Frame := { frame0 with lines := List.replicate 2 ⟨{ l := 0, pos := 0, posv := false, tb1 := 0, fn := 0, gen := 0, st := .ok, gap := false }, []⟩ }
theorem test_pixel_long : (cam 4 (some fullFrame)).portLines 0 ≤ fullFrame.lines.length
    ∧ ((after (pixels0 (longPkt 0 0x2A [1, 2, 3, 4] 0)) (cam 4 (some fullFrame))).port 0).frame.map (fun f => f.long) = some true := by
  decide +kernel
def fullStem : Mach := ((cam 4 (some frame0)).setStem 0 { StemPort.idle with cfg := { StemCfg.off with en := true } }).setPort 0
  { Port.idle with frame := some frame0, vbuf := List.replicate 8 (line0 0) }
theorem test_pixel_overflow : (fullStem.stem 0).cfg.en = true ∧ (fullStem.port 0).vbuf.length = 8
    ∧ ((after (pixels0 (longPkt 0 0x2A [1, 2, 3, 4] 0)) fullStem).port 0).drop = true := by decide +kernel
/-- A packet that a start block cuts off after its start block, and a data block outside a packet. -/
def cutPkt (dt : Nat) : List Block := (longPkt 0 dt [1, 2, 3, 4] 0).take 1 ++ (shortPkt 0 0).take 1
theorem test_framing_witness : deframe none [{ ctl := false, data := 0 }] = .broken none
    ∧ (deframe none (cutPkt 0x2A) = .broken (some ((longOctets 0 0x2A [1, 2, 3, 4] 0).take 7)))
    ∧ (packetOf ((longOctets 0 0x2A [1, 2, 3, 4] 0).take 7)).map (fun k => (k.dt.toNat, k.payload)) = some (0x2A, [1, 2, 3])
    ∧ (packetOf ((longOctets 0 0x2B [1, 2, 3, 4] 0).take 7)).map (fun k => k.dt.toNat) = some 0x2B
    ∧ packetOf ([0x35, 0xF0, 0x00, 0x3F] ++ zeros 3) = none := by decide +kernel
theorem test_framing_error : (lines0 (after (.framingError 0 0 (cutPkt 0x2A)) (cam 4 (some frame0)))).map (fun l => l.2) = [.bad]
    ∧ (after (.framingError 0 0 [{ ctl := false, data := 0 }]) (cam 4 (some frame0))).bit (rPortErr 0 0) 7 = true := by decide +kernel

/-- A version word: role camera, versions 1 to 1. -/
def ver1 : BitVec 64 := 0x01010101
def verPkt (v : BitVec 64) : List Block := longPkt 1 0x34 (leBytes 8 v.toNat) 0
theorem test_ver_witness : (cam 2 none).lstate 0 = 2 ∧ (cam 2 none).portHears 0 = true ∧ bits ver1 31 24 = 1 ∧ bits ver1 63 34 = 0
    ∧ bits ver1 7 0 = 1 ∧ bits ver1 23 16 ≤ min 1 (bits ver1 15 8) ∧ ¬(bits (0x01020201 : BitVec 64) 23 16 ≤ min 1 (bits (0x01020201 : BitVec 64) 15 8))
    ∧ (packetIn (verPkt ver1)).any (fun k => (cam 2 none).rightChannel 0 k && k.wc == 8 && k.crcOk && k.body 64 == ver1) = true := by
  decide +kernel
theorem test_ver : (after (.camVer ⟨0, 0⟩ (verPkt ver1)) (cam 2 none)).lstate 0 = 3
    ∧ (after (.camVer ⟨0, 0⟩ (verPkt 0x01020201)) (cam 2 none)).lstate 0 = 5
    ∧ ((after (.verSend 0 0) (cam 2 none)).port 0).sent.map (fun e => e.2) = [ourVer] := by
  decide +kernel
def echoPkt : List Block := longPkt 1 0x31 (leBytes 16 0x30042) 0
theorem test_echo_witness : takes (cam 4 none) echoPkt = true ∧ (packetIn echoPkt).any (fun k => k.crcOk && k.body 128 == 0x30042) = true := by
  decide +kernel
theorem test_echo : (after (.camEcho ⟨0, 0⟩ echoPkt) (cam 4 none)).rbits (rPortEcho 0 0) 31 24 = 3
    ∧ (after (.camEcho ⟨0, 0⟩ echoPkt) (cam 4 none)).rbits (rPortEcho 0 0) 23 16 = 0x42 := by decide +kernel
def markMach : Mach := (cam 4 none).setFld (rPortStat 0 0) 15 8 1
def markPkt : List Block := longPkt 1 0x33 (leBytes 8 0x90001) 0
theorem test_pmark_witness : markMach.rbits (rPortStat 0 0) 15 8 ≠ 0 ∧ markMach.lstate 0 = 4 ∧ takes markMach markPkt = true
    ∧ (packetIn markPkt).any (fun k => k.crcOk && k.body 64 == 0x90001) = true := by decide +kernel
theorem test_pmark : (after (.pmark ⟨0, 0⟩ markPkt) markMach).prep.markers.map (fun k => (k.trail, k.tag)) = [(true, 9)] := by
  decide +kernel
def trigMach : Mach := (cam 4 none).putBit (rPortCfg 0 0) 3 true
theorem test_ltrig : trigMach.trigMode 0 = true ∧ 0 ≤ diff32 (trigMach.portPos 0) (trigMach.port 0).target
    ∧ ((after (.ltrig 0 0) trigMach).port 0).tagCnt = 1 := by decide +kernel
theorem test_exp_commit : ((after (.portExpCommit 0 0) (cam 4 none)).port 0).sgen = 1
    ∧ ((after (.portExpCommit 0 0) ((cam 4 none).setPort 0 { Port.idle with sgen := 255 })).port 0).sgen = 1 := by decide +kernel
theorem test_ffc_table : (after (.ffcTableWrite 0 0 true 3 7) (cam 4 none)).ffc = [(16387, 7)]
    ∧ (after (.ffcTableWrite 0 0 false 3 7) ((cam 4 none).putBit (rPortFfc 0 0) 0 true)).bit (rIntErr 0) 3 = true := by decide +kernel

/-- Queue 0 is the crop queue of block 0. -/
def cropQueue : Mach := (upMach.setReg (rQCfg 0) 13).setQueue 0 { Queue.empty with pi := 1 }
theorem test_crop_witness : ((List.range 8192).find? fun q => cropQueue.qReady q 6 && cropQueue.rbits (rQLink q) 20 16 == 0) = some 0 := by
  decide +kernel
theorem test_crop_request : ((after (.cropRequest 0 0) cropQueue).coder 0).ready.length = 1 := by decide +kernel
def coded : CodeOut := { status := 0, kind := 1, port := 0, tag := 0, l0 := 0, pos0 := 0, nl := 1, nw := 1, stream := [] }
def coderMach (j : Option CodeOut) : Mach := upMach.setCoder 0 { Coder.idle with ready := [.overview 0 0 0 false [[1]]], busy := j }
theorem test_coder_start : ((after (.coderStart 0) (coderMach none)).coder 0).busy.isSome = true := by decide +kernel
def expired : CodeOut := { coded with kind := 0, l0 := BitVec.ofInt 32 (-1) }
theorem test_archive_record : ((after (.archiveRecord 0) (coderMach (some coded))).coder 0).busy = none
    ∧ (coderMach (some expired)).cropExpired 0 expired.l0 = true ∧ (coderMach (some coded)).scrubbing = false := by decide +kernel

/-! ### Samples -/

def group0 : GroupCfg :=
  { ports := 3, pmark := false, x0 := List.replicate 12 0, xw := List.replicate 12 4, maxlen := 100, bkts := 1, refsel := 0, refidx := 0, ens := 1,
    sm := 0, flipx := false, flipy := false, rfa := 0, tSdl := 1000, result := 1 }
def bucket0 : BucketCfg :=
  { whole := false, h := 1, w := 4, nq := 2, stack := 1, base := 0, dtile := 0, dslot := 0, drl := 4, rel := 0, rdy := 1, tClose := 1000,
    padv := 0, low := 0 }
def recipe1 : Recipe :=
  { seed := 1, tb4 := false, d := 1000, cClose := 10, vMax := 1000, pMin := 10, tPrep := 1000, rates := [], groups := [(0, group0)],
    buckets := [(0, bucket0)], rules := [], refs := [], params := [], digest := 0, secNos := [] }
def sampleWeave : RunWeave := { running0 with recipe := some recipe1, hdr := { weaveHdr [] with nb := 1 } }
def sampleMach (ks : List Marker) (ps : List Part) : Mach :=
  lotOpen { upMach with wv := { Weaving.none with running := [sampleWeave], serial := 2 }, prep := { Prep.empty with markers := ks, parts := ps } }
def marker (port : Nat) (trail : Bool) (l : Nat) : Marker := { port := port, pmark := false, trail := trail, tag := 0, pos := 0, l := l, t := 0, ovs3 := false, ovs4 := false }
def part0 (stripes : List Stripe) : Part :=
  { idx := 0, accepted := true, group := 0, pt := 0, tag := 0, stripes := stripes, last := none, tl := none, bucket := none, batch := 0, place := 0,
    void := none, f3 := false, ovs := false, ref := .none, refPix := [], copy := .none, ready := false, done := false, weave := 1 }
def stripeOf (port : Nat) (trail : Option Nat) : Stripe := { port := port, lead := 0, trail := trail, t := 0 }
theorem test_marker_witness : ∀ k ∈ [marker 0 false 0, marker 1 false 0, marker 0 true 3],
    ((sampleMach [k] [part0 [stripeOf 0 none]]).recipeOf 1).isSome = true ∧ recipe1.groupFor k = some (0, group0)
    ∧ (sampleMach [k] [part0 [stripeOf 0 none]]).weaveFor k.pos = 1 := by decide +kernel
theorem test_marker_group_none : recipe1.groupFor (marker 2 false 0) = none ∧ group0.principal 0 = true ∧ group0.principal 1 = false := by
  decide +kernel
theorem test_marker_lot_witness : (sampleMach [marker 0 false 0] []).hif.lot.isOpen = true
    ∧ (sampleMach [marker 0 false 0] []).bit rFltRplCtl 0 = false ∧ (sampleMach [marker 0 false 0] []).prep.idxEnd = false
    ∧ (sampleMach [marker 0 false 0] []).prep.nextIdx ≠ BitVec.allOnes 48 ∧ (sampleMach [marker 0 false 0] []).inDrain 0 = false
    ∧ (∃ w ∈ (sampleMach [marker 0 false 0] []).wv.running, w.started = true) ∧ (sampleMach [marker 0 false 0] []).hif.lot.ending = none := by
  decide +kernel
theorem test_marker_opens : (after .markerRecord (sampleMach [marker 0 false 7] [])).prep.parts.map (fun x => (x.idx, x.stripes.map fun s => s.lead))
    = [(0, [7])] ∧ (after .markerRecord (sampleMach [marker 0 false 7] [])).hif.lot.accepted = 1 := by decide +kernel
theorem test_marker_other_port : (after .markerRecord (sampleMach [marker 1 false 7] [part0 [stripeOf 0 none]])).prep.parts.map
    (fun x => x.stripes.map fun s => s.port) = [[0, 1]] := by decide +kernel
theorem test_marker_no_lot : (after .markerRecord { sampleMach [marker 0 false 7] [] with hif := Hif.reset }).reg rHifCntNolot = 1 := by
  decide +kernel

/-- A stem on ports 0 and 1, rows reported, and a part whose stripes have closed and whose place is claimed; the place may be written. -/
def closedPart : Part :=
  { part0 [stripeOf 0 (some 1), stripeOf 1 (some 1)] with bucket := some 0, last := some 1 }
def rep0 (port : Nat) : RowRep := { die := 0, port := port, row := 0, dropped := false, ue := false, t := 5 }
def batch0 (samples : List (BitVec 48)) (q : Option Nat) (closed : Bool) : Batch :=
  { id := 0, q := q, samples := samples, closed := closed, tOpen := 0, image := none, copy := .none }
def stemCfg0 : StemCfg := { StemCfg.off with en := true, ringRows := 4 }
def copyMach (c : CopyState) : Mach :=
  let m := sampleMach [] [{ closedPart with copy := c }]
  let m := { m with prep := { m.prep with rows := [rep0 0, rep0 1] } }
  let m := ((m.setStem 0 { StemPort.idle with cfg := stemCfg0 }).setStem 1 { StemPort.idle with cfg := stemCfg0 }).setBucket 8
    { BucketSt.empty with batches := [batch0 [0] (some 0) true], nextQ := 1, nextId := 1 }
  (m.setTile 0 onTile).setWin 0 0
    { Window.unused with used := true, kind := true, stack := 1, isOpen := true, gen := 1, limit := 63, writers := [0xC002] }
def wanted (m : Mach) : Option (BitVec 48 × CopyState) := ((m.pump.judge 0).wantedPart 0).map fun x => (x.idx, x.copy)
theorem test_sample_reads : ((copyMach .none).pump.prep.parts.map fun x => match x.copy with
    | .reading n _ => n
    | _ => 0) = [(copyMach .none).pump.chanQ.length] ∧ (copyMach .none).pump.chanQ ≠ [] := by decide +kernel
theorem test_sample_got_witness : ((copyMach (.reading 2 [])).wantedPart 0).map (fun x => x.copy) = some (.reading 2 [])
    ∧ (copyMach (.reading 2 [])).granErrors 0 0 = []
    ∧ (((copyMach (.reading 1 [])).wantedPart 0).bind fun x => (copyMach (.reading 1 [])).copyPlan x).map (fun p => (p.2.2.1, p.2.2.2.2)) = some (0, 0) := by
  decide +kernel
theorem test_sample_got : ((copyMach (.reading 2 [])).prepGot 0 0 0).prep.parts.map (fun x => x.copy) = [.reading 1 [(0, 0)]]
    ∧ ((copyMach (.reading 1 [])).prepGot 0 0 0).prep.parts.map (fun x => x.copy)
      = [.writing ((copyMach (.reading 1 [])).prepGot 0 0 0).flights.length] := by decide +kernel
theorem test_sample_witness : wanted (copyMach (.writing 0)) = some (0, .writing 0) ∧ ((copyMach (.writing 0)).pump.judge 0).chanQ = []
    ∧ wanted (copyMach (.writing 3)) = some (0, .writing 3) ∧ wanted (copyMach .dropped) = none := by decide +kernel
theorem test_sample_ready : (after (.sampleReady 0) (copyMach (.writing 0))).prep.parts.map (fun x => x.ready) = [true]
    ∧ (after (.sampleReady 0) (copyMach (.writing 3))).prep.parts.map (fun x => x.ready) = [false]
    ∧ (after (.sampleReady 0) (copyMach .dropped)).prep.parts.map (fun x => x.void) = [some .corrupt] := by decide +kernel
/-- The rows came at 5 ns, so that the deadline is 1 005 ns, which is cycle 1 407. -/
def deadlineMach (cyc : Nat) : Mach := { copyMach (.writing 3) with cyc := cyc }
theorem test_deadline_witness : (((deadlineMach 1407).pump.judge 0).wantedPart 0).bind ((deadlineMach 1407).pump.judge 0).deadline = some 1005
    ∧ ((deadlineMach 1407).pump.judge 0).tb1 = 1005 ∧ ((deadlineMach 1406).pump.judge 0).tb1 = 1004 := by decide +kernel
theorem test_deadline : (after (.prepDeadline 0) (deadlineMach 1407)).prep.parts.map (fun x => x.void) = [some .late]
    ∧ (after (.prepDeadline 0) (deadlineMach 1406)).prep.parts.map (fun x => x.void) = [none] := by decide +kernel
def refRecipe : Recipe := { recipe1 with refs := [{ addr := 0, len := 64, hr := 1, wr := 4 }], groups := [(0, { group0 with refsel := 1 })] }
def refMach : Mach :=
  let m := copyMach .none
  { m with wv := { m.wv with running := [{ sampleWeave with recipe := some refRecipe }] },
           prep := { m.prep with parts := [{ closedPart with ref := .wait }] } }
theorem test_ref_witness : refMach.pump.prep.decoding.lookup 0 = none ∧ refMach.pump.variant.hasDie 0 = true
    ∧ ((refMach.pump.prep.parts.find? fun x => x.wanted && x.ref == .wait && refMach.pump.refDie x == 0).map fun x => x.idx) = some 0 := by
  decide +kernel
theorem test_ref_decode_start : (after (.refDecodeStart 0) refMach).prep.decoding = [(0, 0)] := by decide +kernel
def decodeMach : Mach := after (.refDecodeStart 0) refMach
theorem test_ref_decode_done : (after (.refDecodeDone 0) decodeMach).prep.parts.map (fun x => x.void) = [some .corrupt]
    ∧ refRecipe.refOf { group0 with refsel := 1 } closedPart = some { addr := 0, len := 64, hr := 1, wr := 4 } := by decide +kernel
def openBatchMach (cyc : Nat) : Mach :=
  { (copyMach .none).setBucket 8 { BucketSt.empty with batches := [batch0 [0] none false], nextId := 1 } with cyc := cyc }
def dueBatch (m : Mach) : Option Nat :=
  (m.bucketWith 0 fun w k => !k.closed && (m.closeAt w 0 k).any fun t => decide (t ≤ m.tb1)).map fun p => p.2.id
theorem test_batch_close_witness : dueBatch (openBatchMach 1400).pump = some 0 ∧ dueBatch (openBatchMach 1399).pump = none := by decide +kernel
theorem test_batch_close : ((after (.batchCloseTimeout 0) (openBatchMach 1400)).bucket 8).batches.map (fun k => k.closed) = [true]
    ∧ ((after (.batchCloseTimeout 0) (openBatchMach 1399)).bucket 8).batches.map (fun k => k.closed) = [false] := by decide +kernel
def handMach : Mach :=
  let m := copyMach .none
  { m with prep := { m.prep with parts := [{ closedPart with ready := true }] } }
theorem test_handover_witness : ((handMach.pump.bucketWith 0 fun s k => handMach.pump.batchDone (8 * s) k && (handMach.pump.bucket (8 * s)).batches.head? == some k).map
    fun p => p.2.id) = some 0 ∧ sampleWeave.recipe = some recipe1 ∧ (batch0 [0] (some 0) true).image = none := by decide +kernel
theorem test_batch_handover : (after (.batchHandover 0) handMach).flights.length = 1
    ∧ (after (.batchHandover 0) handMach).signals.map (fun g => g.latch) = [1] := by decide +kernel

/-! ### Encoders, observers, spouts, PTP and the field section -/

def enc0 (a b : Bool) (r p : Int) : Enc := { Enc.zero with a := a, b := b, r := r, p := p }
/-- Decoding is on; every quadrature state. -/
def encMach (x : Enc) : Mach := ({ upMach with pos := { upMach.pos with enc0 := x } }).setReg (rEncCfg 0) 1
theorem test_step_witness : ∀ a ∈ [false, true], ∀ b ∈ [false, true], (encMach (enc0 a b 5 5)).bit (rEncCfg 0) 0 = true
    ∧ (encMach (enc0 a b 5 5)).rbits (rEncStat 0) 2 0 = 0 := by decide +kernel
theorem test_step_off_witness : upMach.bit (rEncCfg 0) 0 = false ∧ (after (.los 0 .a) (encMach (enc0 false false 0 0))).rbits (rEncStat 0) 2 0 = 1 := by
  decide +kernel
/-- Forward from 00 to 10 counts up; back counts down with a hysteresis of one count. -/
theorem test_encoder_step : (after (.encoderStep 0 true false false) (encMach (enc0 false false 5 5))).pos.enc0 = enc0 true false 6 5
    ∧ (after (.encoderStep 0 false true false) (encMach (enc0 false false 6 5))).pos.enc0 = enc0 false true 5 5
    ∧ (after (.encoderStep 0 true true false) (encMach (enc0 false false 6 6))).bit (rEncErr 0) 0 = true := by decide +kernel
/-- In a loss nothing counts, but an illegal step still shows; a close edge shows RATE; the lot whose LOT_END waits closes at P_END. -/
theorem test_encoder_loss : (after (.encoderStep 0 true false false) (after (.los 0 .z) (encMach (enc0 false false 5 5)))).pos.enc0 = enc0 true false 5 5
    ∧ (after (.encoderStep 0 true true false) (after (.los 0 .z) (encMach (enc0 false false 5 5)))).bit (rEncErr 0) 0 = true
    ∧ (after (.encoderStep 0 true false true) (encMach (enc0 false false 5 5))).bit (rEncErr 0) 1 = true := by decide +kernel
def lotEndingMach (p : W32) : Mach :=
  let m := encMach (enc0 false false 5 5)
  { m with hif := { m.hif with lot := { m.hif.lot with isOpen := true, ending := some (p, 0, 0) } } }
theorem test_lot_end_passed : (after (.encoderStep 0 true false false) (lotEndingMach 5)).hif.lot.isOpen = false
    ∧ (after (.encoderStep 0 true false false) (lotEndingMach 6)).hif.lot.isOpen = true := by decide +kernel
theorem test_los : (after (.los 0 .b) upMach).rbits (rEncStat 0) 2 0 = 2
    ∧ (after (.losClear 0 .b) (after (.los 0 .b) upMach)).rbits (rEncStat 0) 2 0 = 0 := by decide +kernel
def zMach (cap : Option Int) (per : W32) : Mach :=
  (encMach { enc0 false false 100 100 with lastCap := cap }).setReg (rEncCfg 0) 0x21 |>.setReg (rEncZper 0) per
theorem test_index_witness : (zMach none 0).bit (rEncCfg 0) 5 = true
    ∧ (∀ t < 4, ((zMach none 0).ptOn t 1 && (zMach none 0).ptBase t == false) = false)
    ∧ (diff32 (BitVec.ofInt 32 100) (BitVec.ofInt 32 50)).natAbs ≠ ((zMach (some 50) 49).reg (rEncZper 0)).toNat := by decide +kernel
theorem test_index_edge : (after (.indexEdge 0) (zMach (some 50) 49)).bit (rEncErr 0) 3 = true
    ∧ (after (.indexEdge 0) (zMach (some 50) 50)).bit (rEncErr 0) 3 = false
    ∧ ((after (.indexEdge 0) (zMach (some 50) 50)).reg64 (rEncZcapLo 0)).toNat = 100 := by decide +kernel
theorem test_base_named : upMach.namesBase false = false ∧ (sampleMach [] []).hostUp = true ∧ (sampleMach [] []).namesBase false = true
    ∧ (sampleMach [] []).namesBase true = false := by decide +kernel
theorem test_enc_load : (after (.encCmdLoad 0) (upMach.setReg (rEncLoadLo 0) 7)).pos.enc0.p = 7
    ∧ (after (.encCmdLoad 0) (sampleMach [] [])).bit (rEncErr 0) 5 = true := by decide +kernel
theorem test_enc_cfg : (after (.encCfgWrite 0 0x101) (encMach { enc0 false false 0 0 with u := 9 })).pos.enc0.u = 0
    ∧ (after (.encCfgWrite 0 0x3) (encMach { enc0 false false 0 0 with u := 9 })).pos.enc0.u = 9 := by decide +kernel
/-- Generator 0 makes markers at a fixed pitch of 100, with parts 40 long, at port 0. -/
def pitchMach (p : Int) (trail : List PTrail) : Mach :=
  let m := encMach (enc0 false false p p)
  let m := (((m.setReg (rPtCfg 0) 9).setReg (rPtPitch 0) 100).setReg (rPtLen 0) 40).setReg (rPtPorts 0) 1
  ((m.setReg (rPortCfg 0 0) 1).setLstate 0 4).setPtrig 0 { next := 1000, trail := trail, lead := none }
theorem test_pitch_witness : (pitchMach 1000 []).ptOn 0 2 = true
    ∧ 0 ≤ diff32 ((pitchMach 1000 []).pos32 ((pitchMach 1000 []).ptBase 0)) ((pitchMach 1000 []).ptrig 0).next
    ∧ (pitchMach 1000 []).bit (rEncStat (b2n ((pitchMach 1000 []).ptBase 0))) 3 = false := by decide +kernel
theorem test_pitch_marker : (after (.pitchMarker 0) (pitchMach 1000 [])).prep.markers.map (fun k => (k.port, k.trail, k.pos)) = [(0, false, 1000)]
    ∧ ((after (.pitchMarker 0) (pitchMach 1000 [])).ptrig 0).next = 1100
    ∧ (after (.pitchMarker 0) (pitchMach 999 [])).prep.markers = [] := by decide +kernel
def tr0 (pos : BitVec 32) : PTrail := { pos := pos, tb4 := false, ports := 1 }
theorem test_trailing_witness : ((pitchMach 1000 [tr0 1001, tr0 1000]).ptrig 0).trail = [tr0 1001] ++ tr0 1000 :: []
    ∧ (∀ j ∈ [tr0 1001], diff32 ((pitchMach 1000 []).pos32 j.tb4) j.pos < 0) ∧ 0 ≤ diff32 ((pitchMach 1000 []).pos32 false) 1000 := by
  decide +kernel
theorem test_trailing_marker : (after (.trailingMarker 0) (pitchMach 1000 [tr0 1001, tr0 1000])).prep.markers.map (fun k => (k.trail, k.pos))
    = [(true, 1000)] := by decide +kernel
theorem test_pt_witness : (sampleMach [] []).hostUp = true ∧ (((sampleMach [] []).setReg (rPtPorts 0) 1).ptUsed 0) = true
    ∧ (pitchMach 0 []).ptUsed 0 = false ∧ ((pitchMach 0 []).writeReg (rPtPitch 0) 40).ptOn 0 2 = true
    ∧ (((pitchMach 0 []).writeReg (rPtPitch 0) 40).reg (rPtPitch 0)).toNat ≤ (((pitchMach 0 []).writeReg (rPtPitch 0) 40).reg (rPtLen 0)).toNat := by
  decide +kernel
theorem test_pt_write : (after (.ptWrite 0 .pitch 41) (pitchMach 0 [])).reg (rPtPitch 0) = 41
    ∧ (after (.ptWrite 0 .pitch 40) (pitchMach 0 [])).reg (rPtPitch 0) = 100
    ∧ (after (.ptWrite 0 .pitch 40) (pitchMach 0 [])).bit rPosErr 8 = true := by decide +kernel

theorem test_obs_gain : (after (.obsG3Write 0 3) (upMach.setReg (rObsG1 0) 1)).pos.enc0.gHeld = some (1, 0, 3)
    ∧ (after (.obsG3Write 0 3) (sampleMach [] [])).bit (rEncErr 0) 6 = true := by decide +kernel
/-- One count in an interval of 100 ns is a speed of 10⁷ ct/s. -/
def speedMach (u : Int) : Mach :=
  let m := sampleMach [] [{ closedPart with weave := 1 }]
  { m with pos := { m.pos with enc0 := { Enc.zero with u := u } } }
theorem test_observer_witness : (speedMach 0).recipeOn false = some recipe1 ∧ (speedMach 0).ovs false = false
    ∧ (speedMach (2 ^ 40)).pos.enc0.gHeld = none := by decide +kernel
theorem test_observer_update : (after (.observerUpdate 0) (speedMach (2 ^ 40))).reg (rObsSpeed 0) = 10000000
    ∧ (after (.observerUpdate 0) (speedMach (2 ^ 40))).ovs false = true
    ∧ (after (.observerUpdate 0) (speedMach (2 ^ 40))).prep.parts.map (fun p => p.ovs) = [true]
    ∧ (after (.observerUpdate 0) (speedMach 0)).ovs false = false := by decide +kernel
def slowMach (v : W32) : Mach := ((speedMach 0).putBit (rEncStat 0) 4 true).setReg (rObsSpeed 0) v
theorem test_ovs_clear : (after (.overspeedClear 0) (slowMach 985)).ovs false = true
    ∧ (after (.overspeedClear 0) (slowMach 984)).ovs false = false := by decide +kernel
/-- A sample whose last stripe closed, and V_MAX exceeded; its part point lies 0 counts upstream of d = 1000. -/
def lateMach2 (p : Int) (tl : Option Nat) : Mach :=
  let m := (slowMach 1000)
  { m with pos := { m.pos with enc0 := enc0 false false p p }, prep := { m.prep with parts := [{ closedPart with tl := tl, idx := 4 }] } }
theorem test_late_witness : (lateMach2 0 (some 0)).prep.outstanding.length = 1 ∧ (lateMach2 0 (some 0)).ovs ((lateMach2 0 none).baseOf 1) = true
    ∧ (lateMach2 0 (some 0)).prep.outstanding.map (lateMach2 0 (some 0)).isLate = [false]
    ∧ (lateMach2 999 (some 0)).prep.outstanding.map (lateMach2 999 (some 0)).isLate = [true] := by decide +kernel
theorem test_late_check : (after .lateCheck (lateMach2 999 (some 0))).reg rPosLate = 1 ∧ (after .lateCheck (lateMach2 0 (some 0))).reg rPosLate = 0 := by
  decide +kernel
theorem test_backstop_witness : ((lateMach2 998 none).prep.part 4).map (fun p => (p.accepted, p.weave)) = some (true, 1)
    ∧ (lateMach2 998 none).recipeOf 1 = some recipe1 ∧ ceilDiv (2000 * recipe1.vMax) (10 ^ 9) + 1 = 2 := by decide +kernel
theorem test_backstop : (after (.backstop 4) (lateMach2 998 none)).prep.parts.map (fun p => p.done) ≠ (lateMach2 998 none).prep.parts.map (fun p => p.done)
    ∧ (after (.backstop 4) (lateMach2 997 none)).prep.parts = (lateMach2 997 none).prep.parts := by decide +kernel
theorem test_snap : (after .posSnapCapture (encMach (enc0 false false 7 7))).reg (rPosSnapTbLo 3) = 7 ∧ upMach.hostUp = true := by decide +kernel

/-- Queue 0 is a SPOUT queue with a record, queue 1 a SPOUT_DONE queue; p of base TB3 stands at 0. -/
def spoutMach (tab : List (Nat × Spout)) : Mach :=
  let m := ((((upMach.setReg (rQCfg 0) 23).setReg (rQCfg 1) 25).setFld (rQLink 0) 12 0 1).setQueue 0 { Queue.empty with pi := 1 })
  { m with pos := { m.pos with spouts := tab } }
/-- A record: ARM of strobe 0, 10 cycles wide, at a target. -/
def armRec (target mask width fl : Nat) : BitVec 256 :=
  BitVec.ofNat 256 (1 + fl * 256 + target * 256 ^ 4 + mask * 256 ^ 8 + width * 256 ^ 12)
def cancelRec (n seq : Nat) : BitVec 256 := BitVec.ofNat 256 (2 + seq * 256 ^ 22 + n * 256 ^ 24)
theorem test_arm_witness : (spoutMach []).qReady 0 0xB = true ∧ ((spoutMach []).qTake 0).rbits (rQLink 0) 12 0 = 1
    ∧ (spoutMach []).pos.spouts.length < 4096 ∧ (spoutMach []).spout 0 = none := by decide +kernel
/-- Targets at the edges: 1 ahead, 0, and 2^30 and 2^30 + 1 ahead; a mask or a width of 0. -/
theorem test_arm : (after (.spoutArm 0 (armRec 1 1 10 0)) (spoutMach [])).pos.spouts.map (fun e => (e.1, e.2.armseq)) = [(0, 1)]
    ∧ (after (.spoutArm 0 (armRec 0 1 10 0)) (spoutMach [])).reg rSptPast = 1
    ∧ (after (.spoutArm 0 (armRec (2 ^ 30) 1 10 0)) (spoutMach [])).pos.spouts.length = 1
    ∧ (after (.spoutArm 0 (armRec (2 ^ 30 + 1) 1 10 0)) (spoutMach [])).pos.spouts.length = 0 := by decide +kernel
theorem test_arm_ill : (after (.spoutArm 0 (armRec 1 0 10 0)) (spoutMach [])).pos.spouts.length = 0
    ∧ (after (.spoutArm 0 (armRec 1 1 0 0)) (spoutMach [])).pos.spouts.length = 0
    ∧ (after (.spoutArm 0 (armRec 1 1 10 4)) (spoutMach [])).pos.spouts.length = 0
    ∧ (after (.spoutArm 0 (armRec 1 1 10 3)) (spoutMach [])).pos.spouts.map (fun e => (e.2.tb4, e.2.ct)) = [(true, true)] := by decide +kernel
def spout0 (mask : BitVec 24) (target : BitVec 32) : Spout :=
  { tb4 := false, ct := false, tag := 0, target := target, mask := mask, width := 10, smp := 0, armseq := 3, src := 0, doneq := 1, stbOn := false,
    stbDone := false, outOn := false, outDone := false, tStb := 0, tOut := 0, posFire := 0, tFire := 0, maxon := false }
def fullTable : Mach := spoutMach ((List.range 4096).map fun n => (n, spout0 1 5))
theorem test_arm_full_witness : fullTable.qReady 0 0xB = true ∧ 4096 ≤ fullTable.pos.spouts.length := by decide +kernel
theorem test_arm_full : (after (.spoutArm 0 (armRec 1 1 10 0)) fullTable).bit rPosErr 5 = true := by decide +kernel
theorem test_cancel_witness : (spoutMach [(0, spout0 1 5)]).spout 0 = some (spout0 1 5) ∧ (spout0 1 5).armseq.toNat = 3
    ∧ (fieldAt (leBytes 32 (cancelRec 0 3).toNat) 24 2, fieldAt (leBytes 32 (cancelRec 0 3).toNat) 22 2) = (0, 3) := by decide +kernel
theorem test_cancel : (after (.spoutCancel 0 (cancelRec 0 3)) (spoutMach [(0, spout0 1 5)])).pos.spouts = []
    ∧ (after (.spoutCancel 0 (cancelRec 0 2)) (spoutMach [(0, spout0 1 5)])).bit rPosErr 6 = true
    ∧ (after (.spoutCancel 0 (cancelRec 0 3)) (spoutMach [])).bit rPosErr 6 = true := by decide +kernel
def rule0 (cond : Nat) : SpoutRule := { cond := cond, wunit := false, doneq := 1, offset := 50, mask := 1, width := 10 }
def ruleMach (cond : Nat) : Mach :=
  let m := spoutMach []
  { m with pos := { m.pos with rules := [{ decision := 2, pt := 100, smp := 9, tb4 := false, rules := [(7, rule0 cond)] }] } }
theorem test_rule_witness : (rule0 4).cond.testBit 2 = true ∧ (rule0 3).cond.testBit 2 = false := by decide
theorem test_rule_arm : (after .spoutRuleArm (ruleMach 4)).pos.spouts.map (fun e => (e.1, e.2.target, e.2.src, e.2.smp)) = [(0, 150, 8, 9)]
    ∧ (after .spoutRuleArm (ruleMach 3)).pos.spouts = [] ∧ (after .spoutRuleArm (ruleMach 3)).pos.rules = [] := by decide +kernel
def fireMach (x : Spout) : Mach := spoutMach [(5, x)]
theorem test_fire_witness : (fireMach (spout0 1 0)).spout 5 = some (spout0 1 0) ∧ (fireMach (spout0 1 0)).scrubbing = false
    ∧ (fireMach (spout0 0x100 1)).spout 5 = some (spout0 0x100 1) := by decide +kernel
theorem test_strobe_fire : (after (.strobeFire 5) (fireMach (spout0 1 0))).reg rSptFired = 1
    ∧ (after (.strobeFire 5) (fireMach (spout0 1 1))).reg rSptFired = 0
    ∧ (after (.strobeFire 5) (fireMach { spout0 0x101 0 with outOn := true })).reg rSptFired = 0 := by decide +kernel
theorem test_command_instant : (after (.commandInstant 5) (fireMach (spout0 0x100 0))).fld.commanded = 1
    ∧ (after (.commandInstant 5) (fireMach (spout0 0x100 1))).fld.commanded = 0 := by decide +kernel
def pulsing (m : Mach) (cyc : Nat) : Mach := { m with cyc := cyc }
theorem test_pulse_witness : (pulsing (fireMach { spout0 1 0 with stbOn := true }) 25).tb1 < 100
    ∧ 100 ≤ (pulsing (fireMach { spout0 1 0 with stbOn := true }) 1000000).tb1
    ∧ 0 ≤ diff32 ((fireMach (spout0 1 0)).pos32 false) ((0xFFFFFFF6 : BitVec 32) + BitVec.ofNat 32 10) := by decide +kernel
theorem test_pulse_end : (after (.pulseEnd 5) (pulsing (fireMach { spout0 1 0 with stbOn := true }) 1000000)).pos.spouts = []
    ∧ (after (.pulseEnd 5) (pulsing (fireMach { spout0 1 0 with stbOn := true }) 0)).pos.spouts.length = 1
    ∧ (after (.pulseEnd 5) (fireMach { spout0 0x101 0xFFFFFFF6 with ct := true, stbOn := true })).pos.spouts.map (fun e => e.2.stbDone) = [true] := by
  decide +kernel
theorem test_pulse_maxon : (after (.pulseMaxon 5) ((pulsing (fireMach { spout0 1 0 with stbOn := true }) 10000000).setReg rSptCfg 1)).bit rPosErr 7 = true
    ∧ (after (.pulseMaxon 5) ((pulsing (fireMach { spout0 1 0 with stbOn := true }) 0).setReg rSptCfg 1)).bit rPosErr 7 = false := by decide +kernel

def port0 (n : W64) : PtpPort := { clock := n, port := 1 }
def ann (p1 : BitVec 8) (gm : W64) : AnnounceMsg :=
  { src := port0 gm, interval := 0, domain := 0, priority1 := p1, clockClass := 0, accuracy := 0, variance := 0, priority2 := 0, gm := gm, stepsRemoved := 0 }
def ptpMach (f : Ptp → Ptp) (st : Nat) : Mach :=
  let m := ((upMach.setReg rPtpCfg 1).setFld rPtpCfg 31 16 5).setPtpState st
  m.setPtp (f { m.pos.ptp with mgmtUp := true })
/-- A sender heard once, at TB1 = 0. -/
def once (a : AnnounceMsg) : Foreign := { msg := a, last := 0, prev := none }
/-- A sender heard twice. -/
def twice (a : AnnounceMsg) : Foreign := { msg := a, last := 0, prev := some 0 }
def sync0 : SyncMsg := { src := port0 7, domain := 0, twoStep := true, seq := 4, t1 := 0 }
def stamp (seq : BitVec 16) : PtpStamp := { mtype := 1, seq := seq, tb0 := 0, tb1 := 0 }
theorem test_ptp_witness : (ptpMach id 1).ptpOn = true ∧ (ptpMach id 1).pos.ptp.mgmtUp = true ∧ (ptpMach id 1).pos.ptp.master = none
    ∧ (ptpMach id 1).rbits rPtpCfg 15 8 = 0 ∧ upMach.ptpOn = false ∧ better (ann 1 8) (ann 2 7) = true ∧ better (ann 2 7) (ann 1 8) = false
    ∧ (ptpMach (fun p => { p with master := some (ann 1 8) }) 2).pos.ptp.master = some (ann 1 8) := by decide +kernel
theorem test_ptp_enable : (after (.ptpEnable 1) upMach).ptpState = 1 ∧ (after (.ptpEnable 0) (ptpMach id 3)).ptpState = 0 := by decide +kernel
/-- The second Announce message of a sender, 4 s after the first at the latest, qualifies it; another sender's needs two of its own, and
one of another domain says nothing. -/
theorem test_announce : (after (.ptpAnnounce (ann 2 7)) (ptpMach id 1)).pos.ptp.master = none
    ∧ (after (.ptpAnnounce (ann 2 7)) (ptpMach (fun p => { p with foreign := [once (ann 2 7)] }) 1)).ptpState = 2
    ∧ (after (.ptpAnnounce (ann 2 7)) { (ptpMach (fun p => { p with foreign := [once (ann 2 7)] }) 1) with cyc := 5600000002 }).ptpState = 1
    ∧ (after (.ptpAnnounce (ann 1 8)) (ptpMach (fun p => { p with foreign := [twice (ann 2 7), once (ann 1 8)], master := some (ann 2 7) }) 3)).ptpState
      = 4
    ∧ (after (.ptpAnnounce (ann 1 8)) (ptpMach (fun p => { p with foreign := [twice (ann 2 7)], master := some (ann 2 7) }) 3)).ptpState = 3
    ∧ (after (.ptpAnnounce { ann 2 7 with domain := 1 }) (ptpMach (fun p => { p with foreign := [once (ann 2 7)] }) 1)).ptpState = 1 := by
  decide +kernel
/-- The hypotheses on the best master: none, the first, the parent's own data again, another parent of the same grandmaster, another one. -/
theorem test_best_witness : ((ptpMach id 1).pos.ptp.heard (ann 2 7) 0).best 0 = none
    ∧ ({ (ptpMach id 1).pos.ptp with foreign := [once (ann 2 7)] }.heard (ann 2 7) 0).best 0 = some (ann 2 7)
    ∧ ({ (ptpMach id 1).pos.ptp with foreign := [twice (ann 2 7)], master := some (ann 2 7) }.heard (ann 3 7) 0).best 0 = some (ann 3 7)
    ∧ ({ (ptpMach id 1).pos.ptp with foreign := [twice (ann 2 7), once { ann 2 7 with src := port0 6 }], master := some (ann 2 7) }.heard
      { ann 2 7 with src := port0 6 } 0).best 0 = some { ann 2 7 with src := port0 6 } ∧ announceWindow (ann 2 7) = 4000000000 := by decide +kernel
theorem test_sync_follow : (after (.ptpSync sync0) (ptpMach (fun p => { p with master := some (ann 2 7) }) 2)).bit rPtpStat 3 = true
    ∧ (after (.ptpSync sync0) (ptpMach (fun p => { p with master := some (ann 2 7), syncSeq := 9 }) 2)).pos.ptp.syncSeq = 4
    ∧ (after (.ptpSync { sync0 with src := port0 8 }) (ptpMach (fun p => { p with master := some (ann 2 7) }) 2)).bit rPtpStat 3 = false
    ∧ (after (.ptpFollowUp ⟨port0 7, 4⟩ 77) ((ptpMach (fun p => { p with master := some (ann 2 7), syncSeq := 4 }) 2).putBit rPtpStat 3 true)).pos.ptp.t1
      = some 77
    ∧ (after (.ptpFollowUp ⟨port0 8, 4⟩ 77) ((ptpMach (fun p => { p with master := some (ann 2 7), syncSeq := 4 }) 2).putBit rPtpStat 3 true)).pos.ptp.t1
      = none := by decide +kernel
theorem test_delay_req : (after (.ptpDelayReq 6) (ptpMach (fun p => { p with master := some (ann 2 7) }) 2)).pos.ptp.queue.length = 1
    ∧ (after (.ptpDelayReq 6) (ptpMach (fun p => { p with master := some (ann 2 7), queue := List.replicate 16 (stamp 0) }) 2)).bit rPosErr 13
      = true := by decide +kernel
/-- t1 = 0, t2 = 4005 ns, the request left at 0 and arrived at t4 = 5 ns: the offset is (4005 − 5) / 2 = 2000 ns, within 5 µs. -/
def delayMach (t2 : W64) : Mach :=
  ptpMach (fun p => { p with master := some (ann 2 7), t1 := some 0, t2 := t2, queue := [stamp 1, stamp 6] }) 2
theorem test_delay_witness : (delayMach 4005).pos.ptp.queue = [stamp 1] ++ stamp 6 :: [] ∧ (delayMach 4005).rbits rPtpCfg 31 16 = 5 := by decide +kernel
theorem test_delay_resp : (after (.ptpDelayResp ⟨port0 7, 6⟩ 5) (delayMach 4005)).pos.ptp.queue = [stamp 1]
    ∧ (after (.ptpDelayResp ⟨port0 7, 6⟩ 5) (delayMach 10007)).reg rPtpOffset = 5001 ∧ (after (.ptpDelayResp ⟨port0 7, 6⟩ 5) (delayMach 10007)).ptpState = 2 := by decide +kernel
theorem test_tb0_step : (after (.tb0Step 9) (delayMach 0)).pos.tb0 = 9 * 2 ^ 40 ∧ (after (.holdover true) (delayMach 0)).bit rPosErr 12 = true
    ∧ (after .mgmtLinkDown (delayMach 0)).ptpState = 4 ∧ (after .mgmtLinkUp upMach).pos.ptp.mgmtUp = true
    ∧ (after (.holdover false) (ptpMach (fun p => { p with foreign := [twice (ann 2 7), twice (ann 3 8)], master := some (ann 2 7) }) 3)).pos.ptp.master
      = some (ann 3 8) := by decide +kernel

/-- A field side that runs, locked, out of SAFE. -/
def side0 : FieldSide := { FieldSide.off with running := true, lplus := true, safe := false, downLock := true }
def fldMach (x : FieldSide) : Mach := upMach.setSide x
def evFrame (v : Nat) : W64 := frameOf v
theorem test_crc16 : crc16 0 ≠ 0 ∧ frameOk (frameOf 12345) = true ∧ frameOk (frameOf 12345 ^^^ 1) = false := by decide +kernel
/-- "123456" gives 0x2EF4 under CRC-16 with the polynomial 0x1021 and the initial value 0xFFFF (CCITT-FALSE). -/
theorem test_crc16_ascii : crc16 0x313233343536 = 0x2EF4 := by decide +kernel
theorem test_down_witness : (fldMach side0).side.running = true ∧ frameOk (evFrame 0x4F0001) = true ∧ (fldMach side0).side.downLock = true
    ∧ (fldMach side0).fld.down = [] ∧ bitAt (evFrame 0x4F0001) 23 = false ∧ bits (evFrame 0x4F0001) 22 16 = 79
    ∧ bits (evFrame 0x500001) 22 16 = 80 := by decide +kernel
theorem test_event_frame : (after (.eventFrame (evFrame 0x4F0001)) (fldMach side0)).side.todo = [(400 * ((fldMach side0).tb1 / 400) + 1195, 1)]
    ∧ (after (.eventFrame (evFrame 0x500001)) (fldMach side0)).side.todo = []
    ∧ (after (.eventFrame (evFrame (2 ^ 47 + 5 * 2 ^ 40 + 2 * 2 ^ 24 + 0x40001))) (fldMach side0)).side.todo.length = 2
    ∧ (after (.eventFrame (evFrame (2 ^ 47 + 4 * 2 ^ 40 + 2 * 2 ^ 24 + 0x40001))) (fldMach side0)).side.todo.length = 0 := by decide +kernel
def setFrame (a d : Nat) : W64 := frameOf (d * 2 ^ 32 + a * 2 ^ 24 + 2 ^ 23)
theorem test_config_frame : FMap.get (fun _ => 10) (after (.configurationFrame (setFrame 15 99)) (fldMach side0)).side.deb 15 = 99
    ∧ bits (setFrame 15 99) 31 24 = 15 ∧ bitAt (setFrame 15 99) 23 = true := by decide +kernel
theorem test_resume_force : (after (.fldResume (setFrame 0x20 0)) (fldMach { side0 with safe := true })).side.safe = false
    ∧ (after (.fldForceSafe (setFrame 0x21 0)) (fldMach side0)).side.safe = true
    ∧ (after (.fldForceSafe (setFrame 0x21 0)) (fldMach side0)).reg rFldSafeCnt = 1 := by decide +kernel
theorem test_state_apply : (after .stateApply (fldMach { side0 with todo := [(0, 5)] })).side.outputs = 5
    ∧ (after .stateApply (fldMach { side0 with todo := [(10 ^ 9, 5)] })).side.outputs = 0 := by decide +kernel
/-- The silence timeout of 50 us and the four silent slots of the receiver run from the last frame. -/
def quietMach (cyc : Nat) : Mach :=
  { upMach with cyc := cyc, fld := { upMach.fld with side := { side0 with validAt := some 0, heardAt := some 0 } } }
theorem test_silence : (fldMach side0).pwr.inReset = false ∧ (after .silenceTimeout (quietMach 70000)).bit rFldErr 3 = true
    ∧ (after .silenceTimeout (quietMach 69999)).bit rFldErr 3 = false
    ∧ (after .downLockLoss (quietMach 2240)).side.downLock = false ∧ (after .downLockLoss (quietMach 2239)).side.downLock = true
    ∧ (after .controllerStart upMach).side.running = true
    ∧ upMach.side.running = false ∧ (after .lplusLoss (fldMach side0)).side.running = false := by decide +kernel
/-- A wrong CRC counts; the fourth in a row ends lock and enters SAFE; two good frames give lock. -/
theorem test_down_bad : (after (.eventFrame 0) (fldMach side0)).reg rFldDcrcCnt = 1 ∧ (after (.eventFrame 0) (fldMach side0)).side.downLock = true
    ∧ (after (.eventFrame 0) (fldMach { side0 with badRun := 3 })).side.downLock = false
    ∧ (after (.eventFrame 0) (fldMach { side0 with badRun := 3 })).side.safe = true
    ∧ (after (.eventFrame (evFrame 0)) (fldMach { side0 with downLock := false })).side.downLock = false
    ∧ (after (.eventFrame (evFrame 0)) (fldMach { side0 with downLock := false, goodRun := 1 })).side.downLock = true := by decide +kernel
theorem test_safe_drive : (after (.fldForceSafe (setFrame 0x21 0)) (fldMach { side0 with everApplied := true, applied := 5, safeCfg := 0x12 })).side.outputs
    = 5 := by decide +kernel
theorem test_lplus : (after .lplusUv (fldMach side0)).side.lplus = false ∧ (after .lplusOk (fldMach { side0 with lplus := false })).side.lplus = true
    ∧ (after (.fieldSideOvertemp true) (fldMach side0)).side.overtemp = true := by decide +kernel
theorem test_output_events : (after (.overcurrent 15) (fldMach { side0 with everApplied := true, applied := 0xFFFF })).side.outputs = 0x7FFF
    ∧ (after (.wireBreak 0) (fldMach { side0 with wben := 1 })).side.wb = 1 ∧ (after (.wireBreak 1) (fldMach { side0 with wben := 1 })).side.wb = 0
    ∧ (after (.wireBreakClear 0) (fldMach { side0 with wb := 3 })).side.wb = 2 := by decide +kernel
theorem test_input_edge : (after (.inputEdge 15 true) (fldMach side0)).side.inputs = 0x8000
    ∧ (after (.inputEdge 15 false) (fldMach side0)).side.edges = [] := by decide +kernel

/-- The module side in a slot: TB1 = 4000, slot 10, the changes given. -/
def slotMach (l : List (Nat × BitVec 16)) : Mach :=
  let m := { fldMach side0 with cyc := 5600 }
  { m with fld := { m.fld with changes := l } }
theorem test_slot_witness : (slotMach []).tb1 = 4000 ∧ (slotMach []).pwr.aligned = true ∧ (slotMach []).fld.slot ≤ 10 ∧ (slotMach []).cfgNext = none := by
  decide +kernel
theorem test_down_frame : (after .downFrame (slotMach [])).fld.down = [(10, frameOf 0)]
    ∧ (after .downFrame (slotMach [(3995, 7)])).fld.down = [(10, frameOf (79 * 2 ^ 16 + 7))]
    ∧ (after .downFrame (slotMach [(4000, 7)])).fld.down = [(10, frameOf 0)]
    ∧ (after .downFrame (slotMach [(3600, 1), (3700, 2), (3995, 7)])).fld.down = [(10, frameOf (2 ^ 47 + 79 * 2 ^ 40 + 7 * 2 ^ 24 + 1))]
    ∧ (after .downFrame (slotMach [(3600, 1), (3700, 2), (3995, 7)])).bit rFldErr 4 = true := by decide +kernel
def settingMach : Mach := let m := slotMach []; { m with fld := { m.fld with cfgq := [(0x12, 50)] } }
/-- A field side that is off hears nothing. -/
theorem test_down_unheard : (after .downFrame { upMach with cyc := 5600 }).fld.down = [] := by decide +kernel
theorem test_down_setting : settingMach.cfgNext = some (0x12, 50) ∧ (after .downFrame settingMach).fld.down = [(10, setFrame 0x12 50)] := by decide +kernel
def edge0 (te : Option Nat) : FldEdge := { i := 3, level := true, te := te }
def upSendMach (te : Option Nat) : Mach :=
  { fldMach { side0 with edges := [edge0 te], inputs := 8 } with cyc := 7000 }.putBit rFldStat 1 true
theorem test_up_witness : (upSendMach (some 4000)).tb1 = 5000 ∧ (5000 - 800) / 400 = 10 ∧ (upSendMach none).side.upK ≤ 10
    ∧ 800 + 400 * 8 ≤ (4000 : Nat) ∧ (4000 : Nat) < 1200 + 400 * 8 ∧ (upSendMach none).side.running = true
    ∧ (upSendMach none).bit rFldStat 1 = true ∧ (fldMach side0).bit rFldStat 1 = false := by decide +kernel
/-- Slot 10 sends the edge at 4000 ns: it lies in slot 8 of the field side, at OFF 0, AGE 1. One at 2400 ns lies in slot 4, too old by one
slot: it goes as a late edge, as does one from before the present TB1. -/
theorem test_up_frame_send : (after .upFrameSend (upSendMach (some 4000))).fld.up = [(10, frameOf (2 ^ 46 + 3 * 2 ^ 42 + 2 ^ 34 + 2 ^ 32 + 8))]
    ∧ (after .upFrameSend (upSendMach (some 2400))).fld.up = [(10, frameOf (3 * 2 ^ 46 + 3 * 2 ^ 42 + 2 ^ 34 + 8))]
    ∧ (after .upFrameSend (upSendMach none)).fld.up = [(10, frameOf (3 * 2 ^ 46 + 3 * 2 ^ 42 + 2 ^ 34 + 8))] := by decide +kernel
/-- Slot 7 sends page 0, slot 15 page 1, and no edge. -/
theorem test_up_page : (after .upFrameSend { upSendMach none with cyc := 5040 + 70 }).fld.up = [(7, frameOf (8 * 2 ^ 44 + 8))]
    ∧ (after .upFrameSend { upSendMach none with cyc := 9590 }).fld.up = [(15, frameOf (9 * 2 ^ 44 + 8))] := by decide +kernel
/-- The receiver of the module side at 4000 ns: an up frame of slot 6 arrives at 3700 ns. -/
def upAt (good bad : Nat) : Mach := { upMach with cyc := 5600, fld := { upMach.fld with upGood := good, upBad := bad } }
def upMach2 : Mach := (upAt 2 0).putBit rFldStat 1 true
theorem test_up_frame_bad : frameOk 0 = false ∧ (after (.upFrame 0) upMach2).reg rFldUcrcCnt = 1 ∧ (after (.upFrame 0) upMach2).fld.upBad = 1
    ∧ (after (.upFrame 0) upMach2).bit rFldStat 1 = true ∧ (after (.upFrame 0) ((upAt 0 3).putBit rFldStat 1 true)).bit rFldStat 1 = false
    ∧ (after (.upFrame (frameOf 0)) (upAt 0 0)).fld.upGood = 1 ∧ (after (.upFrame (frameOf 0)) (upAt 0 0)).reg rFldUcrcCnt = 1 := by decide +kernel
theorem test_up_taken_witness : upMach2.UpTaken (frameOf (2 ^ 47 + 2 ^ 45)) 6
    ∧ bits (frameOf (2 ^ 47 + 2 ^ 45)) 47 46 = 2 ∧ bits (frameOf (2 ^ 47 + 2 ^ 45)) 45 44 = 2 ∧ bits (frameOf 1) 47 46 = 0
    ∧ bits (frameOf (2 ^ 46)) 47 46 = 1 := by unfold Mach.UpTaken; decide +kernel
theorem test_up_frame : (after (.upFrame (frameOf (5 * 2 ^ 16 + 9))) upMach2).reg rFldRb = 5 ∧ (after (.upFrame (frameOf (5 * 2 ^ 16 + 9))) upMach2).reg rFldIn = 9
    ∧ (after (.upFrame (frameOf (2 ^ 47 + 2 ^ 45 + 4 * 2 ^ 16))) upMach2).bit rFldErr 10 = true
    ∧ (after (.upFrame (frameOf (5 * 2 ^ 16))) upMach2).fld.rbSince = [(0, 4000), (2, 4000)]
    ∧ (after (.upFrame (frameOf 9)) { upMach2 with cyc := 1819 }).reg rFldIn = 0 := by decide +kernel
theorem test_up_lock : (after .upLock (upAt 2 0)).fld.cfgq.length = 20 ∧ (after .upLock (upAt 1 0)).fld.cfgq = []
    ∧ (after .upLost upMach2).bit rFldErr 2 = true ∧ (after .upLost { upMach2 with cyc := 2239 }).bit rFldErr 2 = false
    ∧ (after .upLost { upMach2 with cyc := 2240 }).bit rFldErr 2 = true := by decide +kernel
/-- Output 0 has read back wrong since 0: RBT is 500 us. -/
def rbMach (cyc : Nat) : Mach := { upMach2 with cyc := cyc, fld := { upMach2.fld with rbSince := [(0, 0)] } }
theorem test_rb_mis : (rbMach 0).rbits rFldRbt 15 0 = 500 ∧ (after (.rbMis 0) (rbMach 700000)).bit rFldErr 8 = true
    ∧ (after (.rbMis 0) (rbMach 699999)).bit rFldErr 8 = false ∧ (after (.rbMis 1) (rbMach 700000)).bit rFldErr 8 = false := by decide +kernel
/-- 100 ns after it changed, the readback level of output 0 may still be the old one; after 2 us it is the output's. -/
def changedSide (cyc : Nat) : Mach :=
  { upMach with cyc := cyc, fld := { upMach.fld with side := { side0 with outputs := 1, chg := [(0, 5000)], upK := 0 } } }
theorem test_readback : ((after .upFrameSend (changedSide 7140)).fld.up.map fun p => bits p.2 31 16) = [0]
    ∧ ((after .upFrameSend (changedSide 10080)).fld.up.map fun p => bits p.2 31 16) = [1] := by decide +kernel
theorem test_fld_commands : (after .fldCmdResume upMach).fld.cfgq = [(0x20, 0)] ∧ (after .fldCmdForceSafe upMach).fld.cfgq = [(0x21, 0)]
    ∧ (after (.fldOcClear 6) (upMach.setReg rFldOc 7)).reg rFldOc = 1 ∧ (after (.fldOutHostWrite 3) upMach).fld.commanded = 3 := by decide +kernel
theorem test_fld_settings : (after (.configurationWrite (.deb 0) 0) upMach).reg (rFldDeb 0) = 1
    ∧ (after (.configurationWrite .timeout 0) upMach).reg rFldTimeout = 2 ∧ (after (.configurationWrite .timeout 0x3FFF) upMach).reg rFldTimeout = 10000
    ∧ (after (.configurationWrite .safe 7) upMach).reg rFldSafe = 4 ∧ (after (.configurationWrite .wben 5) upMach).fld.cfgq = [(0x13, 5)] := by
  decide +kernel


/-! ### The ring, host accesses, queues and lots -/

/-- Module 3 in a ring with ACTIVE ports 0 and 1, both weirs inserted, sessions for context 2 and for tools. -/
def ringMach : Mach :=
  let m := (((upMach.putBit rLnkWeir 4 true).setReg rLnkRingCfg 0x103).setRpState 0 4).setRpState 1 4
  { m with sec := { m.sec with resident := some 2, sessions := [{ ctx := 2, num := 9, key := 0 }, { ctx := 0xFFFF, num := 8, key := 0 }] } }
def frame (src dst : BitVec 8) (enc : Bool) (session : W32) (spec : Nat) (payload : List Slot) : RFrame :=
  { west := false, enc := enc, wrapped := false, src := src, dst := dst, hops := 5, seq := 0, session := session, spec := BitVec.ofNat 128 spec,
    payload := payload, tag := 0 }
theorem test_ring_witness : ringMach.ringHears 0 = true ∧ ringMach.scrubbing = false ∧ ringMach.dupId = false ∧ ringMach.modId = 3 := by decide +kernel
/-- One authentic frame for this module of every type in clear, and a broadcast. -/
theorem test_ring_takes_witness : ∀ x ∈ [(0x11, frame 1 3 false 0 0 []), (6, frame 1 3 false 0 0 []), (5, frame 1 3 false 0 0 []),
    (4, frame 1 3 false 0 0 []), (2, frame 1 3 false 0 0 []), (5, frame 1 0xFF false 0 0 [])],
    (x.2.dst.toNat = ringMach.modId ∨ (x.2.dst = 0xFF ∧ x.2.src.toNat ≠ ringMach.modId))
      ∧ (ringMach.passedOn 0 x.1 x.2 true).authentic x.1 x.2 = some x.2 ∧ (ringMach.passedOn 0 x.1 x.2 false).authentic x.1 x.2 = some x.2 := by
  decide +kernel
/-- The session of a sealed type, and a frame for this module sealed under it: what is sealed opens as it was. -/
def ringSession (ty : Nat) : Session := if ty = 0x30 then { ctx := 0xFFFF, num := 8, key := 0 } else { ctx := 2, num := 9, key := 0 }
def sealedFor (ty spec : Nat) (payload : List Slot) : RFrame := sealFrame (frame 1 3 true (ringSession ty).num spec payload) (ringSession ty) ty
theorem test_ring_takes_sealed (ty : Nat) (spec : Nat) (payload : List Slot) (h : ty = 0x10 ∨ ty = 0x20 ∨ ty = 0x30) (hp : payload.length ≤ 64) :
    ringMach.RingTakes 0 ty (sealedFor ty spec payload) (frame 1 3 true (ringSession ty).num spec payload) true := by
  have hd : (sealedFor ty spec payload).dst.toNat = ringMach.modId := (by decide +kernel : (3 : BitVec 8).toNat = ringMach.modId)
  have hs : ringMach.sessionFor ty = some (ringSession ty) := by rcases h with rfl | rfl | rfl <;> decide +kernel
  refine ⟨⟨by decide +kernel, ?_, by decide +kernel⟩, .inl hd, ?_⟩
  · simpa [sealedFor, sealFrame, frame] using hp
  · have e : ringMach.passedOn 0 ty (sealedFor ty spec payload) true = ringMach := if_neg fun h => absurd (h.1 : (3 : BitVec 8) = 0xFF) (by decide)
    have hm : ∀ n, ringMach.seenOf n = [] := fun n => rfl
    rw [e, Mach.authentic, if_pos h, hs]
    have hf : seqFresh [] (sealedFor ty spec payload).seq.toNat = true := rfl
    have hn : ((ringSession ty).num == (sealedFor ty spec payload).session) = true := by simp [sealedFor, sealFrame, frame]
    simp only [Option.bind_some, hm, hf, hn, Bool.and_true, show (sealedFor ty spec payload).enc = true from rfl, if_true]
    exact openFrame_sealFrame _ _ _
/-- What such a frame does, once it is open. -/
theorem received_sealed (ty spec : Nat) (payload : List Slot) (k : RFrame → Mach → Mach) (h : ty = 0x10 ∨ ty = 0x20 ∨ ty = 0x30)
    (hp : payload.length ≤ 64) : ringMach.receive 0 ty (sealedFor ty spec payload) true k
      = k (frame 1 3 true (ringSession ty).num spec payload) (ringMach.ringTaken 0 ty (sealedFor ty spec payload) true) := by
  obtain ⟨⟨h1, h2, h3⟩, h4, h5⟩ := test_ring_takes_sealed ty spec payload h hp
  have hd : (sealedFor ty spec payload).dst.toNat = ringMach.modId := (by decide +kernel : (3 : BitVec 8).toNat = ringMach.modId)
  have e : ringMach.passedOn 0 ty (sealedFor ty spec payload) true = ringMach := if_neg fun h => absurd (h.1 : (3 : BitVec 8) = 0xFF) (by decide)
  rw [e] at h5
  simp only [Mach.receive, h1, Nat.not_lt.mpr h2, h3, hd, Mach.consume, h5, Mach.ringTaken, e]
  rfl
theorem test_ring_onward : ((after (.ringWrite 0 (frame 1 4 true 9 0 [7])) ringMach).link 13).out.map (fun f => (f.type, f.fr.hops)) = [(0x10, 4)]
    ∧ (after (.ringWrite 0 (frame 1 3 false 9 0 [7])) ringMach).bit rLnkErr 21 = true
    ∧ (after (.ringWrite 0 (frame 1 3 true 8 0 [7])) ringMach).bit rLnkErr 21 = true := by decide +kernel
theorem after_ringWrite (f : RFrame) (m : Mach) : after (.ringWrite 0 f) m = ringWrite 0 f m := rfl
theorem after_ringVerdict (f : RFrame) (m : Mach) : after (.ringVerdict 0 f) m = ringVerdict 0 f m := rfl
/-- DTILE 5, KIND stack, ADDR 6, GEN 4. -/
theorem test_ring_write : (after (.ringWrite 0 (sealedFor 0x10 (5 + 2 ^ 16 + 6 * 2 ^ 32 + 4 * 2 ^ 64) [7, 8])) ringMach).flights.map
    (fun f => (f.writer, f.target, f.gen)) = [(0x8001, WTarget.gran 5 6, some 4), (0x8001, .gran 5 7, some 4)] := by
  rw [after_ringWrite, ringWrite, received_sealed 0x10 _ _ _ (by decide) (by decide)]
  decide +kernel
theorem test_ring_drop : (after (.ringDrop 0 (frame 1 3 false 0 (3 * 2 ^ 32 + 6 * 2 ^ 64 + 5 * 2 ^ 96) [])) ringMach).reg rLnkDropInfo = 0x00050601
    ∧ (after (.ringDrop 0 (frame 1 3 false 0 (3 * 2 ^ 32 + 6 * 2 ^ 64 + 5 * 2 ^ 96) [])) ringMach).reg rLnkDropAddr = 6 := by decide +kernel
def droppedOnce : Mach := after (.ringDrop 0 (frame 1 3 false 0 0 [])) ringMach
theorem test_ring_drop_first : droppedOnce.bit rLnkDropStat 31 = true ∧ ringMach.bit rLnkDropStat 31 = false
    ∧ (after (.ringDrop 0 (frame 1 3 false 0 (6 * 2 ^ 64) [])) droppedOnce).reg rLnkDropAddr = 0
    ∧ (after (.ringDrop 0 (frame 1 3 false 0 (6 * 2 ^ 64) [])) droppedOnce).rbits rLnkDropStat 15 0 = 2 := by decide +kernel
theorem test_ring_verdict : (after (.ringVerdict 0 (sealedFor 0x20 0 [bytesSlot (zeros 32 ++ leBytes 6 77 ++ leBytes 2 2)])) ringMach).hif.vouts.map
    (fun v => (v.idx, v.flags, v.remote)) = [(77, 2, true)] := by
  rw [after_ringVerdict, ringVerdict, received_sealed 0x20 _ _ _ (by decide) (by decide)]
  decide +kernel
/-- A REMAP queue of 16 entries, empty or with 15 of them held. -/
def remapMach (n : W32) : Mach := ((ringMach.setReg (rQCfg 0) 0x1D).setReg (rQSize 0) 4).setQueue 0 { Queue.empty with pi := n }
theorem test_remap_witness : ∀ n ∈ [(remapMach 0).qTake 0], n.ring.gen = 0 := by decide +kernel
theorem test_wrapn : (after (.ringWrapn 0 (frame 1 3 false 0 (31 + 3 * 256 + 2 ^ 16) [])) ringMach).ring.wraps = [127]
    ∧ (after (.ringWrapn 0 (frame 1 3 false 0 (31 + 3 * 256) [])) { ringMach with ring := { ringMach.ring with wraps := [127, 3] } }).ring.wraps = [3] := by
  decide +kernel
def heldFrame (ty : BitVec 8) : TxFrame := { type := ty, fr := frame 3 1 true 9 0 [] }
def pausedMach : Mach := ringMach.setLink 12 { Link.off with paused := [3, 2], held := [heldFrame 0x10, heldFrame 0x20] }
theorem test_xoff_xon : ((after (.ringXoff 0 1) ringMach).link 12).paused = [] ∧ ((after (.ringXoff 0 2) ringMach).link 12).paused = [2]
    ∧ ((after (.ringXoff 0 2) pausedMach).link 12).paused = [3, 2] ∧ ((after (.ringXon 0 2) pausedMach).link 12).out = [heldFrame 0x10]
    ∧ ((after (.ringXon 0 2) pausedMach).link 12).held = [heldFrame 0x20] := by decide +kernel
theorem test_frame_faults : 3 ≤ ringMach.rpState 0 ∧ (after (.frameCrcFail 0 .crc) ringMach).reg (rRpCrc 0) = 1
    ∧ (after (.frameCrcFail 0 .tag) ringMach).bit rLnkErr 21 = true ∧ (after (.frameCrcFail 0 .seq) ringMach).bit rLnkErr 21 = true := by decide +kernel

/-- Port 0 in state 3, without a VER so far, and after one with n hop measurements. -/
def verMach (seen : Bool) (n : Nat) : Mach := (ringMach.setRpState 0 3).setLink 12 { Link.off with verSeen := seen, hops := n, minH := 10, maxH := 42 }
theorem test_rill_ver_witness : (verMach false 0).rpState 0 = 3 ∧ ((verMach false 0).link 12).verSeen = false ∧ otherPort 0 = 1
    ∧ (verMach false 0).ringConnected 0 = true := by decide +kernel
theorem test_rill_ver : (after (.rillVer 0 (frame 1 3 false 0 (1 + 2 ^ 24 + 5 * 2 ^ 32) [])) (verMach false 0)).rbits (rRpStat 0) 28 24 = 5
    ∧ (after (.rillVer 0 (frame 1 3 false 0 (2 + 2 ^ 24) [])) (verMach false 0)).rpState 0 = 5
    ∧ (after (.rillVer 0 (frame 1 3 false 0 1 [])) (verMach false 0)).rpState 0 = 6
    ∧ ((after (.rillVerSend 0) (verMach false 0)).link 12).out.length = 1 := by decide +kernel
/-- t1 = 0, t2 = 100, t3 = 120, t4 = 104: a hop of (104 − 20) / 2 = 42. -/
def echo : RFrame := frame 1 0xFF false 0 (100 * 2 ^ 64 + 120 * 2 ^ 96) []
theorem test_rill_echo : hopOf 0 100 120 104 = 42 ∧ (after (.rillEcho 0 echo 104) (verMach true 63)).rpState 0 = 4
    ∧ (after (.rillEcho 0 echo 104) (verMach true 63)).reg (rRpHop 0) = 0x0200000A
    ∧ ((after (.rillEcho 0 (frame 1 0xFF false 0 9 []) 104) (verMach true 63)).link 12).out.length = 1 := by decide +kernel
theorem test_hello_send : ringMach.bit rLnkRingCfg 9 = false ∧ ((after .helloSend ringMach).link 12).out.map (fun f => f.type) = [2] := by decide +kernel
def westHello (src : BitVec 8) : RFrame := { frame src 0xFF false 0 0 [] with west := true }
theorem test_hello_foreign : ringMach.foreignHello 0 (westHello 3) = true ∧ (after (.ringHello 0 (westHello 3)) ringMach).dupId = true
    ∧ (after (.ringHello 0 (westHello 1)) ringMach).dupId = false := by decide +kernel
theorem test_hello : (after (.ringHello 0 (frame 1 0xFF false 0 0 [])) ringMach).memberNos = [1, 3]
    ∧ (after (.ringHello 0 (frame 1 0xFF false 0 0 [])) ringMach).reg rLnkMembers = 10 := by decide +kernel
def withRing (f : Ring → Ring) (cyc : Nat) : Mach := { ringMach with ring := f ringMach.ring, cyc := cyc }
theorem test_member_expiry : (after (.memberExpiry 1) (withRing (fun r => { r with members := [(1, 0)] }) 280000)).ring.members = []
    ∧ (after (.memberExpiry 1) (withRing (fun r => { r with members := [(1, 0)] }) 279999)).ring.members = [(1, 0)] := by decide +kernel
def tokenRing (r : Ring) : Ring := { r with held := true, holder := 3, tokenValid := true, tokenAny := true, gen := 5 }
theorem test_token_send : (after .tokenSend (withRing tokenRing 70)).ring.tokenT = 50 ∧ (withRing tokenRing 70).ring.held = true := by decide +kernel
theorem test_token : (after (.ringToken 0 (frame 1 3 false 0 (6 + 1 * 2 ^ 16 + 0xFF * 2 ^ 24) [])) (withRing tokenRing 0)).ring.holder = 1
    ∧ (after (.ringToken 0 (frame 1 3 false 0 (6 + 1 * 2 ^ 16 + 3 * 2 ^ 24) [])) (withRing tokenRing 0)).ring.held = true
    ∧ (after (.ringToken 0 (frame 1 3 false 0 (4 + 1 * 2 ^ 16) [])) (withRing tokenRing 0)).ring.gen = 5 := by decide +kernel
def termMach (auto : Bool) (cyc : Nat) : Mach :=
  ((withRing (fun r => { r with members := [(7, 0)] }) cyc).setFld rLnkToken 15 0 2).putBit rLnkToken 16 auto
theorem test_token_expiry : (termMach true 2800).memberNos.head? = some 3 ∧ (after .tokenExpiry (termMach true 2800)).ring.gen = 1
    ∧ (after .tokenExpiry (termMach false 2800)).ring.gen = 0 ∧ (after .tokenExpiry (termMach false 2800)).bit rLnkErr 16 = true
    ∧ (after .tokenExpiry (termMach true 2799)).bit rLnkErr 16 = false := by decide +kernel
theorem test_token_pass : (after .tokenPass ((withRing tokenRing 0).setFld rLnkToken 22 18 9)).ring.holder = 9
    ∧ (after .tokenPass ((withRing tokenRing 0).setFld rLnkToken 22 18 9)).ring.held = false := by decide +kernel
theorem test_tb2 : ((after .tb2syncSend (withRing (fun r => { r with isTb2Master := true }) 0)).link 13).out.length = 1
    ∧ (after (.tb2sync 0 (frame 1 0xFF false 0 1000 [])) (ringMach.setReg (rRpHop 0) 5)).pos.tb2 = 16005
    ∧ (after (.tb2sync 0 (frame 1 0xFF false 0 1000 [])) (withRing (fun r => { r with isTb2Master := true }) 0)).pos.tb2 = 0
    ∧ ringMach.ring.syncHops = [] ∧ ringMach.bit rPosStat 5 = false := by decide +kernel
theorem test_tb2_lost : (after .tb2Lost ((withRing id 140000).putBit rPosStat 5 true)).bit rLnkErr 19 = true
    ∧ (after .tb2Lost ((withRing id 139999).putBit rPosStat 5 true)).bit rLnkErr 19 = false := by decide +kernel
def wrapMach : Mach := ((ringMach.setLink 12 { Link.off with wrapped := true }).setFld rLnkWrap 31 16 0).putBit rLnkWrap 1 true
theorem test_unwrap : (∀ k < 4, wrapMach.mayUnwrap k = true ↔ k = (0 : Fin 4).val) ∧ ((after .unwrap wrapMach).link 12).wrapped = false
    ∧ ((after (.unwrapHoldoff 0) wrapMach).link 12).wrapped = false := by decide +kernel

/-- A started weave with a ring plan; the engine of plane 0 holds descriptors. -/
def ringWeave : RunWeave := { running0 with hdr := { weaveHdr [] with ringplan := true }, start := 0, started := true }
def ringDesc (last crec : Bool) : RingDesc := { d := { desc0 with last := last, crec := crec, csig := crec, ccnt := 2 }, dmod := 1 }
def ringEngMach (x : RingEng) : Mach :=
  { ringMach with wv := { Weaving.none with running := [ringWeave], serial := 2 }, ring := { ringMach.ring with eng0 := x } }
def planEng (last : Bool) : RingEng := { RingEng.idle with plan := [ringDesc last false, ringDesc false false] }
theorem test_plan_witness : (ringEngMach (planEng true)).nextRing 0 = some (ringDesc true false) ∧ ringMach.nextRing 0 = none
    ∧ (ringDesc true false).d.gate = false ∧ (ringDesc true false).d.op = 0 := by decide +kernel
theorem test_ring_plan_descriptor : (after (.ringPlanDescriptor 0) (ringEngMach (planEng true))).ring.eng0.pass = 1
    ∧ (after (.ringPlanDescriptor 0) (ringEngMach (planEng false))).ring.eng0.next = 1
    ∧ (after (.ringPlanDescriptor 0) (ringEngMach (planEng false))).ring.eng0.inflight.length = 1 := by decide +kernel
def ringRun (crec : Bool) : RingRun := { run := { run0 with desc := (ringDesc false crec).d }, dmod := 1, first := 0, last := 1, got := [], sent := true }
def ringDoneMach (crec : Bool) : Mach := ringEngMach { RingEng.idle with inflight := [ringRun crec], st := .move }
def waitingFrame : TxFrame := { type := 0x10, fr := frame 3 1 true 9 0 [] }
theorem test_ring_complete_witness : (ringDoneMach true).waitsAt 0 (ringRun true) = false
    ∧ ((ringDoneMach true).setLink 12 { Link.off with held := [waitingFrame] }).waitsAt 0 (ringRun true) = true := by decide +kernel
theorem test_ring_plan_complete : (after (.ringPlanComplete 0) (ringDoneMach true)).flights.map (fun f => f.writer) = [0x8003]
    ∧ (after (.ringPlanComplete 0) (ringDoneMach true)).signals.map (fun g => g.amount) = [2]
    ∧ (after (.ringPlanComplete 0) (ringDoneMach false)).ring.eng0.inflight = [] := by decide +kernel
/-- Queue 0 is the ring transmit queue with an entry, queue 1 the RESULT queue. -/
def txMach (f : Ring → Ring) : Mach :=
  (((withRing f 0).setReg (rQCfg 0) 0x1B).setReg (rQCfg 1) 7).setQueue 0 { Queue.empty with pi := 1 }
def message (dst len : Nat) : Slot := BitVec.ofNat 512 (dst + len * 256 ^ 4 + 5 * 256 ^ 16)
theorem test_ring_tx_witness : (txMach tokenRing).qReady 0 0xD = true ∧ fieldAt (slotBytes (message 0xFF 48)) 4 4 = 48
    ∧ fieldAt (slotBytes (message 0xFF 48)) 8 8 = 0 ∧ (txMach id).ring.held = false ∧ (txMach tokenRing).ring.held = true := by decide +kernel

/-! Host accesses. -/

theorem test_bad_width : (after (.badWidthAccess .bar0 2 4 true) upMach).bit rHifErr 0 = true ∧ (after (.badWidthAccess .bar0 4 4 true) upMach).bit rHifErr 0 = false
    ∧ (after (.badWidthAccess .bar2 0 4096 true) upMach).bit rHifErr 0 = false ∧ (after (.badWidthAccess .bar2 0 4097 true) upMach).bit rHifErr 0 = true
    ∧ (after (.badWidthAccess .bar4 0x00100040 64 false) upMach).bit rHifErr 0 = false
    ∧ (after (.badWidthAccess .bar4 0x00100020 64 false) upMach).bit rHifErr 0 = true
    ∧ (after (.badWidthAccess .bar4 0x000FFFFC 4 true) upMach).bit rHifErr 0 = false := by decide +kernel
theorem test_err_info : upMach.bit rHifErrInfo 31 = false
    ∧ (after (.badWidthAccess .bar0 8 8 true) (after (.badWidthAccess .bar0 2 4 true) upMach)).reg rHifErrAddrLo = 2 := by decide +kernel
theorem test_record_area : (after (.recordAreaWrite 0x00100000 4) upMach).bit rHifErr 2 = true
    ∧ (after (.recordAreaWrite 0x000FFFFC 4) upMach).bit rHifErr 2 = false := by decide +kernel
/-- The staging window lies at DDR4 address 0; the host region is 64 bytes from address 8 on. -/
def stgMach : Mach :=
  let m := upMach.putBit rHifStgBaseLo 0 true
  { m with sec := { m.sec with hostBase := 8, hostSize := 64 } }
theorem test_stg_witness : (∀ k < 4, stgMach.stgReach (stgMach.stgBase + 8 + k) = true) ∧ stgMach.stgReach (stgMach.stgBase + 7) = false
    ∧ stgMach.stgReach (stgMach.stgBase + 72) = false ∧ stgMach.stgReach (stgMach.stgBase + 71) = true := by decide +kernel
theorem test_staging : (after (.stagingAccess false 6 4 []) (after (.stagingAccess true 6 4 [1, 2, 3, 4]) stgMach)).hif.rd = [0xFF, 0xFF, 3, 4]
    ∧ (after (.stagingAccess true 6 4 [1, 2, 3, 4]) stgMach).bit rHifErr 1 = true
    ∧ (after (.stagingAccess true 8 4 [1, 2, 3, 4]) stgMach).bit rHifErr 1 = false := by decide +kernel
theorem test_low_half : ((regRow (rEncLoadLo 0)).map fun r => r.pair) = some true
    ∧ (after (.lowHalfRead (BitVec.ofNat 26 (rEncLoadLo 0))) (upMach.setReg64 (rEncLoadLo 0) 0x100000002)).hif.rd = [2, 0, 0, 0]
    ∧ (after (.lowHalfRead (BitVec.ofNat 26 (rEncLoadLo 0))) (upMach.setReg64 (rEncLoadLo 0) 0x100000002)).hif.shadow = 1 := by decide +kernel
theorem test_register_write_witness : regRow 2 = none ∧ (regRow 0x10008).isSome = true ∧ (regRow 0x100020).isSome = true ∧ upMach.windowsClosed = false := by decide +kernel
theorem test_register_write : (after (.registerWrite .bar0 0x10008 0xFFFFFFFF) upMach).reg 0x10008 = 0x3FF
    ∧ (after (.registerWrite .bar0 (BitVec.ofNat 26 rPosErr) 9) (upMach.setReg rPosErr 0xB)).reg rPosErr = 2 := by decide +kernel
def pendMach : Mach := { upMach with hif := { upMach.hif with pba := FMap.put (fun _ => false) [] 1 true } }
theorem test_msix_mask : (after (.registerWrite .bar4 0x1001C 0) pendMach).hif.irqs = [1] ∧ (after (.registerWrite .bar4 0x1001C 1) pendMach).hif.irqs = []
    ∧ FMap.get (fun _ => false) pendMach.hif.pba 1 = true := by decide +kernel

/-- Queue 0 of a type, enabled, with 16 entries. -/
def queueMach (ty : Nat) (x : Queue) : Mach :=
  ((upMach.setReg (rQCfg 0) (BitVec.ofNat 32 (2 * ty + 1))).setReg (rQSize 0) 4).setQueue 0 x
def used (pi ci : W32) : Queue := { Queue.empty with pi := pi, ci := ci }
theorem test_queue_witness : (queueMach 2 (used 0 0)).qEn 0 = true ∧ isH2D ((queueMach 2 (used 0 0)).qType 0) = true ∧ (queueMach 2 (used 0 0)).qSize 0 = 16
    ∧ isH2D ((queueMach 3 (used 0 0)).qType 0) = false ∧ upMach.qEn 0 = false := by decide +kernel
theorem test_doorbell : ((after (.doorbellWrite 0 16) (queueMach 2 (used 0 0))).queue 0).pi = 16
    ∧ ((after (.doorbellWrite 0 17) (queueMach 2 (used 0 0))).queue 0).pi = 0
    ∧ ((after (.doorbellWrite 0 2) (queueMach 3 (used 2 0))).queue 0).ci = 2 ∧ ((after (.doorbellWrite 0 3) (queueMach 3 (used 2 0))).queue 0).ci = 0 := by
  decide +kernel
def peerMach : Mach := (upMach.setReg (rQCfg 1) 25).setFld (rQLink 0) 12 0 1
theorem test_q_enable_witness : (((peerMach.setFld (rQCfg 0) 19 9 0).putBit (rQCfg 0) 8 false).setFld (rQCfg 0) 4 1 0xB).mayEnable 0 0xB = true
    ∧ (((upMach.setFld (rQCfg 0) 19 9 0).putBit (rQCfg 0) 8 false).setFld (rQCfg 0) 4 1 0xB).mayEnable 0 0xB = false := by decide +kernel
theorem test_q_enable : (after (.qCfgWrite 0 0x17) peerMach).qEn 0 = true ∧ (after (.qCfgWrite 0 0x17) upMach).qEn 0 = false
    ∧ (after (.qCfgWrite 0 0x17) upMach).bit rHifErr 3 = true := by decide +kernel
theorem test_q_disable : (after (.qCfgWrite 0 2) (lotOpen (queueMach 1 Queue.empty))).qEn 0 = true ∧ (after (.qCfgWrite 0 2) (queueMach 1 Queue.empty)).qEn 0 = false
    ∧ (after (.qCfgWrite 0 4) (lotOpen (queueMach 2 Queue.empty))).qEn 0 = false := by decide +kernel
def timerMach : Mach := ((queueMach 3 { Queue.empty with unsig := 2 }).putBit (rQCfg 0) 8 true).setFld (rQMod 0) 31 16 1
theorem test_irq_timer : timerMach.rbits (rQMod 0) 31 16 ≠ 0 ∧ timerMach.bit (rQCfg 0) 8 = true ∧ ((after (.irqTimer 0) { timerMach with cyc := 1400 }).queue 0).unsig = 0
    ∧ ((after (.irqTimer 0) { timerMach with cyc := 1399 }).queue 0).unsig = 2 := by
  decide +kernel
theorem test_fetch_fail : (after (.queueFetchFail 0) (queueMach 2 (used 1 0))).qEn 0 = false ∧ (after (.queueFetchFail 0) (queueMach 2 (used 1 0))).bit rHifErr 5
    = true := by decide +kernel
def lotMach (recipe : Option Recipe) : Mach :=
  let m := ((upMach.setReg (rQCfg 0) 5).setReg (rQCfg 1) 7).setQueue 0 { Queue.empty with pi := 1 }
  { m.setFld (rQLink 0) 12 0 1 with prep := { m.prep with recipe := recipe } }
/-- LOT_START of lot 4 with the base 9; LOT_END at position p; FENCE. -/
def lotEntry (op v8 : Nat) : Slot := BitVec.ofNat 512 (op + (if op = 2 then 4 * 256 ^ 4 else 0) + v8 * 256 ^ 8)
theorem test_lot_witness : (∀ op ∈ [2, 3, 4], fieldAt (slotBytes (lotEntry op 0)) 0 1 = op ∧ fieldAt (slotBytes (lotEntry op 0)) 1 1 = 0)
    ∧ (lotMach none).qReady 0 2 = true ∧ (lotMach none).hif.lot.ending = none ∧ fieldAt (slotBytes (lotEntry 2 9)) 8 6 ≠ 2 ^ 48 - 1
    ∧ reservedZero (slotBytes (lotEntry 2 9)) [(4, 2), (8, 6)] = true ∧ reservedZero (slotBytes (lotEntry 3 9)) [(8, 4)] = true
    ∧ reservedZero (slotBytes (lotEntry 4 0)) [] = true ∧ (lotMach (some recipe1)).prep.recipe ≠ none := by decide +kernel
theorem test_lot_start : (after (.lotStart 0 (lotEntry 2 9)) (lotMach (some recipe1))).hif.lot.isOpen = true
    ∧ (after (.lotStart 0 (lotEntry 2 9)) (lotMach (some recipe1))).prep.nextIdx = 9
    ∧ (after (.lotStart 0 (lotEntry 2 9)) (lotMach none)).hif.lot.isOpen = false := by decide +kernel
theorem test_lot_end : (after (.lotEnd 0 (lotEntry 3 (2 ^ 30))) (lotOpen (lotMach none))).hif.lot.ending.isSome = true
    ∧ (after (.lotEnd 0 (lotEntry 3 (2 ^ 30 + 1))) (lotOpen (lotMach none))).hif.lot.ending = none
    ∧ (after (.lotEnd 0 (lotEntry 3 0)) (lotMach none)).hif.lot.ending = none
    ∧ ((after (.fence 0 (lotEntry 4 0)) (lotMach none)).queue 1).pi = 1 := by decide +kernel
def endingMach (p : BitVec 32) (accepted : Nat) : Mach :=
  let m := lotOpen (lotMach none)
  { m with hif := { m.hif with lot := { m.hif.lot with ending := some (p, 0, 0), accepted := accepted } } }
theorem test_lot_end_done : diff32 ((endingMach 0 0).pos32 (endingMach 0 0).lotBase) 0 = 0 ∧ diff32 ((endingMach 1 0).pos32 (endingMach 1 0).lotBase) 1 < 0
    ∧ (after .lotEndDone (endingMach 1 0)).hif.lot.ending.isSome = true := by decide +kernel
/-- The lot is closed; LOT_END_DONE waits for a record and then answers to the type 2 queue (R388). -/
def shutMach (accepted : Nat) : Mach :=
  let m := endingMach 0 accepted
  { m with hif := { m.hif with lot := { m.hif.lot with isOpen := false } } }
theorem test_lot_end_closes : (after (.lotEnd 0 (lotEntry 3 0)) (lotOpen (lotMach none))).hif.lot.isOpen = false
    ∧ (after (.lotEnd 0 (lotEntry 3 1)) (lotOpen (lotMach none))).hif.lot.isOpen = true := by decide +kernel
theorem test_lot_answers : (shutMach 0).queueOfType 2 ≠ none ∧ (after .lotEndDone (shutMach 0)).hif.lot.ending = none
    ∧ (after .lotEndDone (shutMach 1)).hif.lot.ending.isSome = true := by decide +kernel


/-! The forms added at the ring and the host interface. -/

def scrub0 : Switch := { target := 3, outgoing := 2, phase := 2, t0 := 0, tScrub := 0, frames := 0, ue := false }
/-- The reset value of Q_CFG is 0, so that no queue is enabled where no Q_CFG is listed. -/
theorem cfg_reset_rows : regRowsHif.all (fun r => r.reset == 0 || (r.s1 == 0 && r.s2 == 0 && decide (r.base < 0x1e10000))
    || (r.s1 == 0x20 && r.n1 == 8192 && r.s2 == 0 && decide (0x1e10000 < r.base) && decide (r.base < 0x1e10020))) = true := by decide
theorem cfg_reset (q : Nat) (h : q < 8192) : regReset (rQCfg q) = 0 := by
  have hb : regBlock (rQCfg q) = regRowsHif := by
    show regBlock (0x1e10000 + q * 0x20) = _
    rw [regBlock, if_neg (by omega), if_neg (by omega), if_neg (by omega), if_neg (by omega), if_neg (by omega), if_neg (by omega),
      if_neg (by omega), if_neg (by omega), if_neg (by omega), if_pos (by omega)]
  rw [regReset, regRow, hb]
  generalize hf : regRowsHif.find? (·.covers (rQCfg q)) = o
  match o with
  | none => rfl
  | some r =>
    have hc := List.find?_some hf
    have := List.all_eq_true.1 cfg_reset_rows r (List.mem_of_find?_eq_some hf)
    simp only [Bool.or_eq_true, Bool.and_eq_true, beq_iff_eq, decide_eq_true_eq] at this
    rcases this with (h0 | ⟨⟨h1, h2⟩, h3⟩) | ⟨⟨⟨⟨h1, h2⟩, h3⟩, h4⟩, h5⟩
    · rw [Option.map_some, h0]; rfl
    · exfalso
      simp only [RegRow.covers, h1, h2, rQCfg, Bool.and_eq_true, decide_eq_true_eq, beq_iff_eq, if_true] at hc
      have hj : (if r.n2 ≤ 0 then r.n2 - 1 else 0) = 0 := by split <;> omega
      have hi : (if r.n1 ≤ 0 then r.n1 - 1 else 0) = 0 := by split <;> omega
      rw [hi, hj] at hc
      omega
    · exfalso
      simp only [RegRow.covers, h1, h2, h3, rQCfg, Bool.and_eq_true, decide_eq_true_eq, beq_iff_eq, if_true] at hc
      have hj : (if r.n2 ≤ 0 then r.n2 - 1 else 0) = 0 := by split <;> omega
      rw [hj, if_neg (by decide : ¬ (0x20 : Nat) = 0), if_neg (by omega)] at hc
      omega
theorem get_default {α : Type} (d : Nat → α) (k : Nat) : ∀ l : List (Nat × α), l.all (fun p => p.1 != k) = true → FMap.get d l k = d k
  | [], _ => rfl
  | e :: l, h => by
    simp only [List.all_cons, Bool.and_eq_true, bne_iff_ne] at h
    rw [FMap.get, if_neg h.1, get_default d k l h.2]
theorem qEn_default (m : Mach) (q : Nat) (h : m.regs.all (fun p => p.1 != rQCfg q) = true) (hq : q < 8192) : m.qEn q = false := by
  rw [Mach.qEn, Mach.bit, Mach.reg, get_default _ _ _ h, cfg_reset q hq]
  rfl
theorem queueOfType_none (m : Mach) (ty : Nat) (h : m.regs.all (fun p => decide (p.1 < 0x1e10000)) = true) : m.queueOfType ty = none := by
  rw [Mach.queueOfType, List.find?_eq_none]
  intro q hq
  have := qEn_default m q (List.all_eq_true.2 fun p hp => by
    have := List.all_eq_true.1 h p hp
    simp only [decide_eq_true_eq] at this
    simp only [bne_iff_ne, rQCfg]
    omega) (List.mem_range.1 hq)
  simp [this]
/-- XON sends the frames of a class that were forwarded before those of this module, whatever came first. -/
def mixedMach : Mach := ringMach.setLink 12 { Link.off with
  paused := [2], held := [heldFrame 0x10, { type := 0x10, fr := frame 1 4 true 9 0 [] }] }
theorem test_xon_order : ((after (.ringXon 0 2) mixedMach).link 12).out = [{ type := 0x10, fr := frame 1 4 true 9 0 [] }, heldFrame 0x10] := by
  decide +kernel
/-- A message of another generation is not delivered; one of this generation fills its entries as far as there is room. -/
theorem after_ringRemap (f : RFrame) (m : Mach) : after (.ringRemap 0 f) m = ringRemap 0 f m := rfl
theorem test_remap_room : (remapMach 15).qSize 0 - ((remapMach 15).queue 0).held = 1 ∧ (remapMach 15).queueOfType 0xE = some 0
    ∧ FMap.get (fun _ => Ecc.ok) (remapMach 15).hif.ecc 0 = .ok := by decide +kernel
theorem test_remap_noqueue : ringMach.queueOfType 0xE = none := queueOfType_none _ _ (by decide +kernel)
theorem test_forward_witness : ringMach.authentic 0x10 (frame 1 3 false 0 0 [7]) = none ∧ ringMach.authentic 6 (frame 1 3 true 0 0 []) = none
    ∧ (frame 3 0xFF false 0 0 []).src.toNat = ringMach.modId := by decide +kernel
theorem test_scrubbed_frame : ({ ringMach with sec := { ringMach.sec with switching := some scrub0 } } : Mach).scrubbing = true := by decide +kernel
/-- A message of RING_TX of length 0 is malformed; without the token a whole one is answered 6. -/
def resultOf (c : Instr) (m : Mach) : List Byte := ((FMap.get (fun _ => []) ((after c m).queue 1).ents 0).take 2)
def txReady (f : Ring → Ring) : Mach := (((txMach f).setReg (rQCfg 1) 7).setReg (rQSize 1) 4).setReg (rQSize 0) 4
theorem test_ring_tx_malformed : resultOf (.ringTx 0 [message 1 0]) (txReady tokenRing) = [5, 5]
    ∧ resultOf (.ringTx 0 [message 1 48]) (txReady id) = [5, 6] ∧ (message 1 48).toNat % 256 = 1
    ∧ (txReady tokenRing).queueOfType 3 = some 1 := by decide +kernel
/-- The first descriptor of a plan asks for its granules at their channels. -/
def moveDesc : RingDesc := { d := { desc0 with op := 2, len := 2 }, dmod := 1 }
theorem test_plan_move_witness : ringInRange moveDesc.d = true ∧ moveDesc.d.gate = false ∧ moveDesc.d.op ≠ 0 := by decide
theorem test_plan_move : (after (.ringPlanDescriptor 0) (ringEngMach { RingEng.idle with plan := [moveDesc] })).chanQ.length = 2
    ∧ ((after (.ringPlanDescriptor 0) (ringEngMach { RingEng.idle with plan := [moveDesc] })).ring.eng0.inflight.map fun r => r.run.left) = [2] := by
  decide +kernel
/-- A gate on a latch that holds too little keeps the descriptor. -/
def gateDesc : RingDesc := { d := { desc0 with gate := true, gcnt := 1 }, dmod := 1 }
theorem test_plan_gate : ((ringEngMach { RingEng.idle with plan := [gateDesc] }).gate (.ring 0) gateDesc.d.glatch gateDesc.d.gcnt).2 = false
    ∧ (after (.ringPlanDescriptor 0) (ringEngMach { RingEng.idle with plan := [gateDesc] })).ring.eng0.inflight = [] := by decide +kernel

/-- The half that a low read keeps is answered by the next read of the higher register, whatever has changed meanwhile. -/
def shadowed (a : Nat) : Mach := (lowHalfRead a (upMach.setReg64 a 0x100000002)).setReg (a + 4) 9
theorem test_shadow : (hostRead .bar0 (rEncLoadLo 0 + 4) 4 (shadowed (rEncLoadLo 0))).1 = [1, 0, 0, 0]
    ∧ (hostRead .bar0 (rEncLoadLo 0 + 4) 4 (hostRead .bar0 (rEncLoadLo 0 + 4) 4 (shadowed (rEncLoadLo 0))).2).1 = [9, 0, 0, 0]
    ∧ (regRow (rEncLoadLo 0 + 4)).any (·.pair) = false ∧ upMach.hif.shadowAt = none := by decide +kernel
/-- A RESULT queue with one record of 64 bytes in its area at the start of the record areas. -/
def areaMach (closed : Bool) : Mach :=
  let m := ((queueMach 1 { Queue.empty with pi := 1, ents := [(0, List.replicate 64 5)] }).setReg (rQBaseLo 0) 0x00100000)
  if closed then { m with sec := { m.sec with switching := some scrub0 } } else m
theorem test_area_witness : (areaMach false).areaAt 0x00100000 = some 0 ∧ (areaMach false).closedTo .bar4 0x00100000 = false
    ∧ (areaMach true).closedTo .bar4 0x00100000 = true ∧ entrySize ((areaMach false).qType 0) = 64 := by decide +kernel
theorem test_area_read : (hostRead .bar4 0x00100020 4 (areaMach false)).1 = [5, 5, 5, 5] ∧ (hostRead .bar4 0x00100040 4 (areaMach false)).1 = [0, 0, 0, 0]
    ∧ (hostRead .bar4 0x00100020 4 (areaMach true)).1 = [0xFF, 0xFF, 0xFF, 0xFF] := by decide +kernel
theorem test_area_closed : (after (.recordAreaWrite 0x00100000 4) (areaMach true)).reg rHifErr = 0
    ∧ (after (.badWidthAccess .bar4 0x00100004 64 false) (areaMach true)).reg rHifErr = 0
    ∧ (after (.recordAreaWrite 0x00100000 4) (areaMach false)).rbits rHifErr 2 0 = 5 := by decide +kernel
theorem test_doorbell_read : (hostRead .bar4 0 4 (queueMach 2 (used 9 7))).1 = [7, 0, 0, 0] ∧ (hostRead .bar4 0 4 (queueMach 3 (used 9 7))).1 = [9, 0, 0, 0]
    ∧ (hostRead .bar4 4 4 (queueMach 3 (used 9 7))).1 = [0, 0, 0, 0] := by decide +kernel
theorem test_msix_read : (hostRead .bar4 0x1001C 4 pendMach).1 = [1, 0, 0, 0] ∧ (hostRead .bar4 0x18000 4 pendMach).1 = [2, 0, 0, 0] := by decide +kernel
/-- An event in the cycle of the write that clears its bit wins. -/
theorem test_same_cycle : (after (.registerWrite .bar0 (BitVec.ofNat 26 rPosErr) 8) (upMach.raisePos 3)).reg rPosErr = 8
    ∧ (after (.registerWrite .bar0 (BitVec.ofNat 26 rPosErr) 8) (upMach.raisePos 3).tick).reg rPosErr = 0 := by decide +kernel
/-- A variant with one intake die has no ring port E1. -/
theorem test_absent : (upMach.variant.absentReg (rRpStat 2)) = false
    ∧ ({ upMach with variant := { upMach.variant with io1 := false } } : Mach).variant.absentReg (rRpStat 2) = true := by decide +kernel
/-- A released slot reads as empty. -/
theorem test_release : ((after (.doorbellWrite 0 1) (queueMach 3 { used 2 0 with ents := [(0, [1]), (1, [2])] })).queue 0).ents = [(1, [2])] := by
  decide +kernel
/-- SLUICE queues: an engine that was revoked stays so; another takes the queue. -/
def sluQMach (st : SluState) : Mach :=
  (((upMach.setReg (rQCfg 1) 11).setFld (rQLink 0) 12 0 1).setFld (rQLink 0) 20 16 3).setEngine 3 { Engine.free with st := st }
def sluTyped (st : SluState) : Mach := (((sluQMach st).setFld (rQCfg 0) 19 9 0).putBit (rQCfg 0) 8 false).setFld (rQCfg 0) 4 1 4
theorem test_sluice_enable : (((sluTyped .idle).enableQueue 0).engine 3).mode = .queue ∧ (((sluTyped .revoked).enableQueue 0).engine 3).st = .revoked := by
  decide +kernel
theorem test_sluice_may : (sluTyped .idle).mayEnable 0 4 = true := by
  have h : (sluTyped .idle).othersOfType 0 4 (some ((sluTyped .idle).rbits (rQLink 0) 20 16)) = false := by
    rw [Mach.othersOfType, List.any_eq_false]
    intro k hk
    have hk := List.mem_range.1 hk
    rcases Nat.lt_or_ge 1 k with h2 | h2
    · have := qEn_default (sluTyped .idle) k (by
        have e : (sluTyped .idle).regs.all (fun p => decide (p.1 < 0x1e10040)) = true := by decide +kernel
        refine List.all_eq_true.2 fun p hp => ?_
        have := List.all_eq_true.1 e p hp
        simp only [decide_eq_true_eq] at this
        simp only [bne_iff_ne, rQCfg]
        omega) hk
      simp only [this, Bool.and_false, Bool.false_and, Bool.false_eq_true, not_false_eq_true]
    · obtain rfl | rfl : k = 0 ∨ k = 1 := by omega
      · simp only [bne_self_eq_false, Bool.false_and, Bool.false_eq_true, not_false_eq_true]
      · have : ((sluTyped .idle).qType 1 == 4) = false := by decide +kernel
        simp only [this, Bool.and_false, Bool.false_and, Bool.false_eq_true, not_false_eq_true]
  have h2 : ((sluTyped .idle).peerOk 0 4 && (sluTyped .idle).engOk 0 4 && (sluTyped .idle).areaOk 0 4) = true := by decide +kernel
  simp only [Bool.and_eq_true] at h2
  simp only [Mach.mayEnable, Mach.limitPassed, h, h2.1.1, h2.1.2, h2.2]
  decide
theorem test_q_type_kept : (after (.qCfgWrite 0 7) (queueMach 2 Queue.empty)).qType 0 = 2
    ∧ (after (.qCfgWrite 0 7) (queueMach 2 Queue.empty)).bit rHifErr 3 = true := by decide +kernel
/-- A reserved OP is taken and answered RANGE; an entry of another OP waits for its own row. -/
theorem test_reserved_op : resultOf (.fence 0 (lotEntry 9 0)) ((lotMach none).setReg (rQSize 1) 4) = [9, 5]
    ∧ resultOf (.fence 0 (lotEntry 2 0)) ((lotMach none).setReg (rQSize 1) 4) = [] := by decide +kernel

/-! ### The mailbox, contexts, dumps and replay, and the rules of the machine -/

/-- GO with an OP; input bytes as fields (offset, length, value). -/
def mbxMach (f : Sec → Sec) (l : List (Nat × Nat × Nat)) : Mach :=
  let b := fieldsOf 256 l
  let m := (List.range 64).foldl (fun (m : Mach) i => if fieldAt b (4 * i) 4 = 0 then m else m.setReg (rSecMbxIn i) (BitVec.ofNat 32 (fieldAt b (4 * i) 4)))
    { upMach with hif := { upMach.hif with queues := [] } }
  { m with sec := f m.sec }
def withSd (x : Sec) : Sec := { x with sdev := some 5 }
theorem test_mbx_witness : ∀ op ∈ [1, 2, 3, 4, 5, 6, 7, 8, 9, 10, 11, 12, 13], (mbxMach withSd []).rotUp = true ∧ (mbxMach withSd []).hif.d3 = false
    ∧ bitAt (goCtl op) 31 = true ∧ bits (goCtl op) 7 0 = op ∧ (mbxMach withSd []).bit rSecMbxStat 31 = false
    ∧ (mbxMach withSd []).mbxIn.all (· == 0) = true ∧ (mbxMach withSd []).sec.sdev = some 5 := by decide +kernel
def statusOf (c : Instr) (m : Mach) : Nat := (after c m).rbits rSecMbxStat 23 16
/-- GET_ID with a reserved input byte set. -/
theorem test_get_id : statusOf (.mbxGetId (.host (goCtl 1))) (mbxMach id [(255, 1, 1)]) = MbxSt.range.code := by decide +kernel
theorem test_get_certs_witness : (mbxMach withSd [(8, 4, 4096)]).sec.hostSize < fieldAt (mbxMach withSd [(6, 1, 1), (8, 4, 4096)]).mbxIn 0 8 + 4096 := by
  decide +kernel
/-- The chain fits when its length, which depends on the certificates, is at most 4096. -/
theorem test_get_certs_room (h : ((mbxMach withSd [(8, 4, 4096)]).certChain 5).length ≤ 4096) :
    ((mbxMach withSd [(8, 4, 4096)]).certChain 5).length ≤ fieldAt (mbxMach withSd [(8, 4, 4096)]).mbxIn 8 4 := by
  have e : fieldAt (mbxMach withSd [(8, 4, 4096)]).mbxIn 8 4 = 4096 := by decide +kernel
  rw [e]; exact h
theorem test_quote_witness : ∀ k ∈ [1, 4], fieldAt (mbxMach withSd [(0, 1, k), (2, 2, 0xFFFF)]).mbxIn 0 1 = k
    ∧ fieldAt (mbxMach withSd [(0, 1, k), (2, 2, 0xFFFF)]).mbxIn 2 2 = 0xFFFF := by decide +kernel
/-- A host region from 1 GiB on, 1 GiB long. -/
theorem test_host_region : (after (.mbxHostRegion (.host (goCtl 4))) (mbxMach id [(3, 1, 0x40), (11, 1, 0x40)])).sec.hostBase = 2 ^ 30
    ∧ (2 : Nat) ^ 31 ≤ upMach.variant.ddr * 2 ^ 30 - 2 ^ 26 := by decide +kernel
def caArgs (lock : Nat) : List (Nat × Nat × Nat) := [(0, 1, lock), (16, 4, 1)]
def lockedFlash (m : Mach) : Mach := { m with flash := { m.flash with ca := some [1], caLock := true } }
theorem test_mgmt_ca : (after (.mbxMgmtCa (.host (goCtl 12))) (mbxMach id (caArgs 1))).flash.ca = some [0]
    ∧ (after (.mbxMgmtCa (.host (goCtl 12))) (lockedFlash (mbxMach id (caArgs 0)))).flash.ca = some [1] := by decide +kernel
theorem test_fw_update_witness : ∀ b ∈ [(mbxMach id [(16, 4, 1)]).mbxIn], fieldAt b 8 8 = 0 ∧ fieldAt b 16 4 = 1 ∧ b.length = 256 := by decide +kernel
def ephem0 : Ephem := { ctx := 2, kind := 3, nonce := [], priv := 0, quote := 0, t := 0 }
theorem test_ephemeral : (after .ephemeralExpiry { mbxMach (fun x => { x with ephems := [ephem0] }) [] with cyc := 84000000000 }).sec.ephems = []
    ∧ (after .ephemeralExpiry { mbxMach (fun x => { x with ephems := [ephem0] }) [] with cyc := 83999999999 }).sec.ephems = [ephem0] := by decide +kernel
/-- A handshake as R424 has it; TLS 1.2 is not. -/
def hello0 : TlsHello :=
  { tls13 := true, suites := [.aes256GcmSha384], groups := [.secp256r1], schemes := [.ecdsaSecp256r1Sha256], fullHandshake := true }
theorem test_hello_agrees : helloAgrees hello0 = true ∧ helloAgrees { hello0 with tls13 := false } = false := by decide
def stewardMach : Mach := let m := mbxMach (fun x => { x with steward := true, dexUp := true }) []; m.setPtp { m.pos.ptp with mgmtUp := true }
/-- What the chain of a client and the CA's signature say is X.509's (log 9): a client whose chain the CA accepts is connected. -/
def caMach : Mach := { stewardMach with flash := { stewardMach.flash with ca := some [1] } }
theorem test_ca_witness : (caMach.pwr.inReset || !caMach.sec.steward || !caMach.pos.ptp.mgmtUp) = false ∧ caMach.flash.ca = some [1] := by decide +kernel
theorem test_dexzon_accepted (h : (Config.chainKey [1] [2]).isSome = true) : (dexzonConnect ⟨hello0, 1⟩ [2] caMach).sec.dexUp = true := by
  rw [dexzonConnect, test_ca_witness.1, test_ca_witness.2]
  simp only [test_hello_agrees.1, h]
  rfl
/-- Dexzon: unused bytes 0, the identity and without it NOID; KIND 3 of a quote is the host's. -/
def dexMach (sd : Option (BitVec 256)) : Mach := mbxMach (fun x => { x with sdev := sd, dexUp := true, steward := true }) []
theorem test_dexzon_id : (after (.mbxGetId (.dexzon [])) (dexMach none)).sec.dexStatus = 0xC ∧ (after (.mbxGetId (.dexzon [])) (dexMach (some 5))).sec.dexStatus = 0
    ∧ (after (.mbxQuote (.dexzon [3])) (dexMach (some 5))).sec.dexStatus = 2 ∧ (dexMach none).rotUp = true := by decide +kernel
theorem test_dexzon : stewardMach.pwr.inReset = false ∧ stewardMach.pos.ptp.mgmtUp = true ∧ stewardMach.sec.steward = true
    ∧ (after (.dexzonConnect ⟨hello0, 1⟩ []) stewardMach).sec.dexUp = false ∧ (after .dexzonReset stewardMach).sec.dexUp = false := by decide +kernel
theorem test_sec_cfg : (after (.secCfgWrite 3) upMach).rbits rSecCfg 1 0 = 3 ∧ (after (.secCfgWrite 3) upMach).sec.m 3 ≠ 0
    ∧ (after (.secCfgWrite 3) { upMach with sec := { upMach.sec with conf := true } }).rbits rSecCfg 1 0 = 0 := by decide +kernel

/-- Context 2 exists; 15 does not. -/
def twoCtx (resident : Option Nat) (x : Sec) : Sec := { x with sdev := some 5, ctxs := [(2, ctx2), (3, { ctx2 with conf := true })], resident := resident }
theorem test_ctx_witness : (mbxMach (twoCtx none) [(0, 1, 2)]).ctx 2 = some ctx2 ∧ (mbxMach (twoCtx none) []).ctx 15 = none
    ∧ (mbxMach (twoCtx none) []).sec.switching = none ∧ (mbxMach (twoCtx none) []).wv.cmd = none
    ∧ fieldAt (mbxMach (twoCtx none) [(0, 1, 2)]).mbxIn 0 2 = 2 := by decide +kernel
theorem test_ctx_create : statusOf (.mbxCtxCreate (.host (goCtl 5))) (mbxMach (twoCtx none) [(0, 1, 2), (4, 1, 1), (8, 1, 1)]) = MbxSt.exists_.code := by
  decide +kernel
/-- The RoT finds places for the two regions when it chooses addresses that are free. -/
theorem test_ctx_create_places (h : Config.placeRegion (mbxMach withSd []).usedRanges (2 ^ 26) = some (2 ^ 33)) :
    (mbxMach withSd []).placeFor (mbxMach withSd []).usedRanges (2 ^ 26) = some (2 ^ 33) := by
  have e : (mbxMach withSd []).rangeFree (mbxMach withSd []).usedRanges (2 ^ 33) (2 ^ 26) = true := by decide +kernel
  rw [Mach.placeFor, h]
  exact if_pos e
theorem test_ctx_delete : (after (.mbxCtxDelete (.host (goCtl 6))) (mbxMach (twoCtx none) [(0, 1, 2)])).ctx 2 = none
    ∧ (mbxMach (twoCtx (some 2)) []).sec.resident = some 2 := by decide +kernel
theorem test_ctx_switch : (after (.mbxCtxSwitch (.host (goCtl 7))) (mbxMach (twoCtx none) [(0, 1, 2)])).flash.journal = some (2, 0x1F)
    ∧ statusOf (.mbxCtxSwitch (.host (goCtl 7))) (lotOpen (mbxMach (twoCtx none) [(0, 1, 2)])) = MbxSt.lotOpen.code := by decide +kernel
def switching (target : Nat) (phase : Nat) : Option Switch :=
  some { target := target, outgoing := 2, phase := phase, t0 := 0, tScrub := 0, frames := 0, ue := false }
def scrubMach (e : Ecc) : Mach :=
  let m := mbxMach (fun x => { twoCtx (some 2) x with switching := switching 3 2 }) []
  { m with mem := { m.mem with eccSpad := [(0, e)], tags := [(0, true)] } }
theorem test_scrub : (after .scrubDone (scrubMach .ue)).sec.resident = some 3 ∧ (after .scrubDone (scrubMach .ue)).sec.conf = true
    ∧ (after .scrubDone (scrubMach .ue)).bit rSecErr 1 = true ∧ (after .scrubDone (scrubMach .ce)).bit rSecErr 1 = false
    ∧ (after .scrubDone (scrubMach .ce)).mem.tags = [] := by decide +kernel
def importMach (kw : Option (BitVec 256)) : Mach :=
  mbxMach (fun x => { x with ctxs := [(2, { ctx2 with kw := kw, pkg := some (0, 0) })], resident := some 2, importing := some 2 }) []
/-- An empty package does not hold the format (SIG, PACKAGE or RANGE), so an import of it fails with AUTH. -/
theorem test_import_done : (after .importDone (importMach none)).sec.importing = none ∧ (after .importDone (importMach none)).bit rSecErr 3 = false
    ∧ (after .importDone (importMach (some 1))).sec.importing = none ∧ (importMach (some 1)).ctx 2 = some { ctx2 with kw := some 1, pkg := some (0, 0) }
    ∧ (importMach none).sec.switching = none := by decide +kernel
theorem test_import_fails : (after .importDone (importMach (some 1))).bit rSecErr 3 = true := by decide +kernel
theorem test_key_import_witness : ∀ m ∈ [mbxMach (twoCtx (some 2)) [(0, 1, 2)]], m.sec.resident = some 2 ∧ m.ctx 2 = some ctx2
    ∧ fieldAt m.mbxIn 8 8 + 272 ≤ m.sec.hostSize ∧ blobOk (m.hostBytes (fieldAt m.mbxIn 8 8) 272) 1 ctx2.osig = false := by
  intro m hm
  obtain rfl : m = mbxMach (twoCtx (some 2)) [(0, 1, 2)] := by simpa using hm
  exact ⟨by decide +kernel, by decide +kernel, by decide +kernel, by
    have h : slice ((mbxMach (twoCtx (some 2)) [(0, 1, 2)]).hostBytes (fieldAt (mbxMach (twoCtx (some 2)) [(0, 1, 2)]).mbxIn 8 8) 272) 0 5 ≠ ascii "LB9A" ++ [1#8] := by
      decide +kernel
    simp [blobOk, h]⟩
/-- The first 136 bytes of a blob from the ephemeral scalar 13, and a blob of key bytes 4, sealed for the scalar 11 with an IV of zeros and
signed by the scalar given: what AES-GCM and ECDSA make of it stands as the standards have it (FIPS 186-5, SP 800-38D). -/
def blobHead (kind : Nat) (bind : List Byte) : List Byte :=
  ascii "LB9A" ++ [1#8] ++ leBytes 1 kind ++ leBytes 2 272 ++ List.replicate 32 3 ++ bind ++ pkBytes (publicKey 13)
def blobWith (kind ctx session : Nat) (bind : List Byte) (ct tag sig : Nat) : List Byte :=
  blobHead kind bind ++ zeros 12 ++ beBytes 16 tag ++ beBytes 32 ct ++ leBytes 4 session ++ leBytes 2 ctx ++ zeros 6 ++ beBytes 64 sig
def blob1 : List Byte := blobWith 1 2 0 (zeros 32) 0xcbe6831d4659cb8b649edc892f893483ce6eec3ff5bb6ef640e394618ec6257d 0x5f108a04ed4ea928b787b757c8336d1e
  0x51590b7a515140d2d784c85608668fdfef8c82fd1f5be52421554a0dc3d033ed5101933b6a24a331a04a19d89a233edd23d256fbdca22a0e69998a6267e36594
theorem test_blob_ok : blobOk blob1 1 ctx2.osig = true ∧ blobOk (blob1.set 9 7) 1 ctx2.osig = false ∧ fieldAt blob1 200 2 = 2 ∧ fieldAt blob1 196 4 = 0
    ∧ blob1.length = 272 := by decide +kernel
theorem test_blob_opens : openBlob blob1 11 = some (List.replicate 32 4) := by decide +kernel
/-- Another receiver's scalar does not open it when its tag is another. -/
theorem test_blob_binds : slice blob1 40 32 = bytes32 0 ∧ slice (blobHead 1 (List.replicate 32 1)) 40 32 ≠ bytes32 0 := by decide +kernel
/-- A package of one persistent segment of one granule under that key. -/
def pkg1 : List Byte :=
  ascii "LP9A" ++ [1#8, 0#8] ++ leBytes 2 1 ++ zeros 48 ++ leBytes 8 240 ++ zeros 64 ++ ([1#8, 0#8, 0#8, 0#8] ++ leBytes 4 1 ++ leBytes 8 0 ++ zeros 16)
    ++ beBytes 64 0x761a2a718ee04665dcce50e8a59bf7ee5ff695110e688d7a759e5a835fe05db97782c3c302e71ed64a9e1daec0055fa495125a200b5dbd643614daf54716a913
    ++ beBytes 16 0x4c1cc0b83c8d6f46430d2b3e78953bab
/-- The cells of bytes from an address on. -/
def cellsAt : Nat → List Byte → List Host.Cell
  | _, [] => []
  | a, b :: l => if b = 0 then cellsAt (a + 1) l else (a, b) :: cellsAt (a + 1) l
/-- KEY_IMPORT with the blob at 4096 and the package at 8192 of the host region, with and without the pair. -/
def keyMach (pair : Bool) : Mach :=
  let m := mbxMach (fun x => { twoCtx (some 2) x with hostBase := 65536, ephems :=
    if pair then [{ ephem0 with nonce := List.replicate 32 3, priv := 11 }] else [] }) [(0, 1, 2), (9, 1, 16), (17, 1, 32), (24, 1, 240)]
  { m with mem := { m.mem with ddr := cellsAt 69632 blob1 ++ cellsAt 73728 pkg1 } }
theorem test_key_import_good : (keyMach true).sec.resident = some 2 ∧ fieldAt (keyMach true).mbxIn 8 8 = 4096 ∧ fieldAt (keyMach true).mbxIn 16 8 = 8192
    ∧ fieldAt (keyMach true).mbxIn 24 8 = 240 ∧ (keyMach true).activeDigest (some 2) = 0 ∧ (keyMach true).hostBytes 4096 272 = blob1
    ∧ ((keyMach true).pairOf 2 3 (slice blob1 8 32)).map (·.priv) = some 11 ∧ (keyMach false).pairOf 2 3 (slice blob1 8 32) = none := by decide +kernel
/-- Every check of the package passes, and its granule stands in the persistent region; under another key its tag fails, and a bind that is not
the digest of ACTIVE fails before. -/
theorem test_package : ((keyMach true).importPackage ctx2 (BitVec.ofNat 256 (leNat (List.replicate 32 4))) 0 8192 240).2 = .ok
    ∧ readByte ((keyMach true).importPackage ctx2 (BitVec.ofNat 256 (leNat (List.replicate 32 4))) 0 8192 240).1.mem.ddr 63 = 6 := by decide +kernel
theorem test_package_fails : ((keyMach true).importPackage ctx2 0 1 8192 240).2 = .bind ∧ ((keyMach true).importPackage ctx2 0 0 4096 240).2 ≠ .ok := by
  decide +kernel
theorem test_key_import_expired : statusOf (.mbxKeyImport (.host (goCtl 8))) (keyMach false) = MbxSt.expired.code := by decide +kernel
/-- The quote of a peer's alias scalar 17 for the tools' session, with its record at 4096; the blob it seals for the scalar 11 at 8192. -/
def peerBody : List Byte :=
  ascii "LQ9A" ++ [1#8, 4#8] ++ zeros 10 ++ List.replicate 32 3 ++ zeros 32 ++ pkBytes (publicKey 17) ++ zeros 256 ++ [0xFF#8, 0xFF#8] ++ zeros 102
    ++ pkBytes (publicKey 11) ++ zeros 8
def peerQuote : List Byte := peerBody ++ beBytes 64
  0x51590b7a515140d2d784c85608668fdfef8c82fd1f5be52421554a0dc3d033ed6be57d23e110794debfdb8ffb62001fd4853e331df68100ccca6bd1701a3eed2
def blob3 : List Byte := blobWith 3 0xFFFF 12 (beBytes 32 0xd351f822fc77100891fd6e8d10ece6f6355117001d62d80dd03581f5d670fcb4)
  0x13e67a411c41ffc98aaace66cf53bbb4cd0a557d98f42bd667e085a696cdd763 0x3236e46122d26da5e44cff4318f05287
  0x51590b7a515140d2d784c85608668fdfef8c82fd1f5be52421554a0dc3d033ed4f92fe04546ff7335b0348995db13b7b5ae033a58a043d7f7d2c3be2776b0dae
theorem test_peer_checks : ecdsaVerify (publicKey 17) (sha256 (peerQuote.take 576)) (pkOf (slice peerQuote 576 64)) = true
    ∧ pkOf (slice peerQuote 80 64) = publicKey 17 ∧ (pointOf (pkOf (slice peerQuote 504 64))).isSome = true ∧ fieldAt peerQuote 5 1 = 4
    ∧ slice peerQuote 0 5 = ascii "LQ9A" ++ [1#8] ∧ fieldAt peerQuote 400 2 = 0xFFFF
    ∧ slice peerQuote 144 96 = bytes32 ((mbxMach withSd []).sec.m 0) ++ bytes32 ((mbxMach withSd []).sec.m 1) ++ bytes32 ((mbxMach withSd []).sec.m 2) := by
  decide +kernel
/-- A peer whose chain leads to its alias key verifies (what a chain says is X.509's, log 9). -/
theorem test_verify_peer (h : Config.chainKey Config.deviceCa [1] = some (publicKey 17)) :
    (mbxMach withSd []).verifyPeer 0xFFFF [1] peerQuote = true := by
  obtain ⟨h1, h2, h3, h4, h5, h6, h7⟩ := test_peer_checks
  rw [Mach.verifyPeer, h, h3, h4, h5, h6, h7]
  simp only [h1, h2, beq_self_eq_true, Bool.true_or, Bool.and_self]
theorem test_ring_blob : blobOk blob3 3 (pkOf (slice peerQuote 80 64)) = true ∧ fieldAt blob3 200 2 = 0xFFFF ∧ slice blob3 40 32 = sha256 peerQuote := by
  decide +kernel
theorem test_ring_blob_opens : openBlob blob3 11 = some (List.replicate 32 4) := by decide +kernel
def installMach : Mach :=
  mbxMach (fun x => { twoCtx none x with hostBase := 65536, ephems := [{ ephem0 with ctx := 0xFFFF, kind := 4, nonce := List.replicate 32 3, priv := 11 }] })
    [(0, 2, 0xFFFF), (9, 1, 16), (17, 1, 32)]
theorem test_ring_install_pair : (installMach.pairOf 0xFFFF 4 (slice blob3 8 32)).map (·.priv) = some 11 ∧ fieldAt installMach.mbxIn 0 2 = 0xFFFF
    ∧ fieldAt installMach.mbxIn 8 8 + 272 ≤ installMach.sec.hostSize ∧ fieldAt installMach.mbxIn 16 8 + 704 ≤ installMach.sec.hostSize := by decide +kernel
theorem test_pair : (mbxMach (fun x => { x with ephems := [{ ephem0 with nonce := slice blob1 8 32 }] }) []).pairOf 2 3 (slice blob1 8 32)
    = some { ephem0 with nonce := slice blob1 8 32 } := by decide +kernel
theorem test_revoke : (mbxMach id []).scrubbing = false ∧ statusOf (.mbxRevoke (.host (goCtl 9))) (mbxMach (fun x => { x with switching := switching 3 2 }) [(0, 1, 5)]) = MbxSt.state.code := by decide +kernel
theorem test_ring_keys_witness : ∀ m ∈ [mbxMach (fun x => { twoCtx none x with ephems := [{ ephem0 with kind := 4 }] }) [(0, 1, 2), (8, 1, 1), (16, 8, 4096)]],
    (m.sec.ephems.find? fun e => e.ctx == 2 && e.kind == 4 && e.alive m.tb1) = some { ephem0 with kind := 4 } ∧ fieldAt m.mbxIn 8 1 = 1
    ∧ fieldAt m.mbxIn 16 8 + 704 ≤ m.sec.hostSize ∧ fieldAt (m.hostBytes (fieldAt m.mbxIn 16 8) 704) 8 8 = 0 ∧ m.ctx 2 ≠ none := by decide +kernel

/-! Dumps and replay. -/

def dump0 : Dump := { flags := 8, cause := none, t0 := 0, tb0 := 0, bytes := [1, 2, 3], inRun := false }
def heldDump (m : Mach) : Mach := { m.putBit rFltDumpStat 31 true with flt := { m.flt with dump := some dump0 } }
theorem test_dump_req : (after .dumpReq upMach).flt.dumping.isSome = true ∧ (after .dumpReq (heldDump upMach)).rbits rFltDumpStat 15 0 = 1
    ∧ upMach.bit rFltDumpStat 31 = false ∧ upMach.bit rFltDumpStat 30 = false := by decide +kernel
theorem test_dump_copy : readByte (after .dumpCopy ((heldDump upMach).setReg rFltDumpDstLo 64)).mem.ddr 66 = 3
    ∧ (after .dumpCopy upMach).bit rFltDumpStat 25 = true ∧ upMach.flt.dump = none
    ∧ (after .dumpCopy ((heldDump upMach).setReg (rFltDumpDstLo + 4) 1)).bit rFltDumpStat 25 = true
    ∧ (heldDump upMach).bit rFltDumpStat 30 = false := by decide +kernel
theorem test_dump_release : (after .dumpRelease (heldDump upMach)).flt.dump = none ∧ (after .dumpRelease upMach).flt.dump = none := by decide +kernel
def dumpingMach (conf : Bool) : Mach :=
  { upMach.putBit rFltDumpStat 30 true with flt := { upMach.flt with dumping := some { dump0 with bytes := [] } }, sec := { upMach.sec with conf := conf } }
theorem test_dump_complete : (dumpingMach true).kos = none ∧ (after .dumpComplete (dumpingMach true)).bit rFltDumpStat 31 = true
    ∧ ((after .dumpComplete (dumpingMach true)).flt.dump.map fun d => d.bytes.take 4) = some (ascii "LD9A") := by decide +kernel
/-- Replay mode; a state in which nothing else runs. -/
def rplMach : Mach := upMach.putBit rFltRplCtl 0 true
theorem test_rpl_witness : rplMach.hostUp = true ∧ rplMach.sec.conf = false ∧ rplMach.bit rFltRplCtl 0 = true ∧ rplMach.wv.cmd = none
    ∧ rplMach.sec.switching = none ∧ rplMach.bit rFltRplStat 31 = false ∧ upMach.bit rFltRplCtl 0 = false
    ∧ (rplMach.putBit rFltRplStat 31 true).bit rFltRplStat 31 = true := by decide +kernel
theorem test_rpl_mode : ∀ c ∈ [Instr.rplRestart, .rplInject, .rplThaw], (after c upMach).rbits rFltRplStat 2 0 = 1
    ∧ (after c (rplMach.putBit rFltRplStat 31 true)).rbits rFltRplStat 2 0 = 4 := by decide +kernel
def frozenMach : Mach := { rplMach with flt := { rplMach.flt with frozen := true } }
theorem test_thaw : (after .rplThaw frozenMach).flt.frozen = false := by decide +kernel
theorem test_capture_range : (after .rplCapture (rplMach.setReg (rFltRplAddrLo + 4) 1)).rbits rFltRplStat 2 0 = 2
    ∧ (after .rplCapture (rplMach.setReg rFltRplTile 576)).rbits rFltRplStat 2 0 = 2 ∧ 543744 ≤ rplMach.sec.hostSize := by decide +kernel
theorem test_inject_refused : (after .rplInject rplMach).rbits rFltRplStat 2 0 = 3 ∧ (after .rplInject (rplMach.setReg (rFltRplAddrLo + 4) 1)).rbits rFltRplStat 2 0 = 2
    ∧ rplMach.imageBucket 0 = none := by decide +kernel
/-- An image for bucket 0 of a running weave stands at the start of the host region. -/
def injectMach : Mach :=
  let m := (copyMach .none).putBit rFltRplCtl 0 true
  let h := imageHeader 0 sampleWeave.hdr.nb (imageLen sampleWeave.hdr.nb (m.placeGrans recipe1 0 bucket0))
  m.setHostBytes 0 h
theorem test_inject_witness : (injectMach.imageBucket 0).map (fun x => x.2.1) = some 0
    ∧ fieldAt (injectMach.hostBytes 0 64) 8 4 ≤ injectMach.sec.hostSize := by decide +kernel
theorem test_restart : (after .rplRestart rplMach).rbits rFltRplStat 2 0 = 4
    ∧ (after .rplRestart { rplMach with wv := runningMach.wv }).wv.running.length = 1 ∧ running0.recipe = none ∧ rplMach.adapt.sec = none := by
  decide +kernel
/-- The freeze follows the cycle in which the counter reached the stop value, and stands from the next cycle on. -/
def stoppedMach : Mach := { upMach with flt := { upMach.flt with stopHit := true } }
theorem test_freeze : (after .freeze stoppedMach).flt.frozen = true ∧ (after .freeze stoppedMach).cyc = stoppedMach.cyc + 1
    ∧ (after .freeze upMach).flt.frozen = false := by decide +kernel
theorem test_batch_capture : (after (.batchCapture 0x81000002) upMach).flt.bcap = some (1, 2, 0) ∧ (after (.batchCapture 0x81000000) upMach).flt.bcap = none
    ∧ (after (.batchCapture 0x81000002) { upMach with sec := { upMach.sec with conf := true } }).flt.bcap = none := by decide +kernel

/-! The machine. -/

/-- Reset is in canonical form, so that the invariant holds somewhere, and a step is taken there. -/
theorem test_canon_witness : State.reset.m.Canon ∧ step State.reset = .next { State.reset with m := State.reset.m.tick } := by
  constructor
  · unfold Mach.Canon Mem.Wf; decide
  · rfl
theorem test_step_front : (match step { State.reset with pending := [.powerOn, .fence 0 0] } with
    | .next s => s.pending.length == 1 && s.m.pwr.vin
    | _ => false) = true := by decide +kernel
def confMach : Mach := ({ upMach with sec := { upMach.sec with conf := true } } : Mach).setReg rMemLatSel 5
theorem test_conf_witness : confMach.sec.conf = true ∧ confMach.windowsClosed = false ∧ 0x01000000 ≤ rMemLatSel ∧ rMemLatSel < 0x01800000 := by decide +kernel
theorem test_conf : (confMach.setReg rMemWdropAddr 9).readReg rMemWdropAddr = 0 ∧ (upMach.setReg rMemWdropAddr 9).readReg rMemWdropAddr = 9
    ∧ confMach.readReg rMemLatSel = 5 := by decide +kernel
theorem test_trust_witness : upMach.pwr.vin = true ∧ upMach.variant.hasSensor 0 = true ∧ 1920 ≤ (1920 : BitVec 16).toInt ∧ upMach.hostUp = true := by
  decide +kernel
theorem test_trust_reset : (after .mrst (mbxMach (twoCtx (some 2)) [])).sec.ctxs = [] ∧ (after (.glbRst 0x4C390001) (mbxMach (twoCtx (some 2)) [])).sec.ctxs = []
    ∧ (after .perst (mbxMach (twoCtx (some 2)) [])).sec.ctxs.length = 2
    ∧ (after (.thermalTrip 0 1920) (mbxMach (twoCtx (some 2)) [])).sec.ctxs = [] := by decide +kernel


end Sys2Proof.Tests
end

section
/-! PROOFS. Facts about words and maps that the statements about host accesses need: the bits of a field, of a word packed from flags, and
of the hardware's set mask. -/
namespace Sys2Proof.Machine

/-! ### Fields of a word -/

/-- A bit of a field read as a number. -/
theorem testBit_bits {w : Nat} (v : BitVec w) (hi lo k : Nat) :
    (bits v hi lo).testBit k = (decide (k < hi + 1 - lo) && v.getLsbD (lo + k)) := by
  simp [bits, Nat.testBit_mod_two_pow, Nat.testBit_div_two_pow, BitVec.getLsbD, Nat.add_comm]

/-- A number in three parts, with its middle part replaced. -/
theorem replaceMiddle_eq_parts (n lo len y : Nat) :
    n - n / 2 ^ lo % 2 ^ len * 2 ^ lo + y * 2 ^ lo = 2 ^ lo * (2 ^ len * (n / 2 ^ lo / 2 ^ len) + y) + n % 2 ^ lo := by
  have hlow := Nat.div_add_mod n (2 ^ lo)
  have hmid := Nat.div_add_mod (n / 2 ^ lo) (2 ^ len)
  generalize n / 2 ^ lo % 2 ^ len = b at *
  generalize n / 2 ^ lo / 2 ^ len = a at *
  generalize n % 2 ^ lo = c at *
  rw [← hmid] at hlow
  have : n = 2 ^ lo * (2 ^ len * a) + b * 2 ^ lo + c := by rw [← hlow, Nat.mul_add, Nat.mul_comm b]
  rw [this, Nat.mul_add, Nat.mul_comm y]
  omega

/-- A bit of a word after a field has been replaced: of the new field inside, the old bit outside. -/
theorem getLsbD_setBits {w : Nat} (v : BitVec w) (hi lo x k : Nat) (h : lo ≤ hi) (hk : k < w) :
    (setBits v hi lo x).getLsbD k = if lo ≤ k ∧ k ≤ hi then x.testBit (k - lo) else v.getLsbD k := by
  have hy : x % 2 ^ (hi + 1 - lo) < 2 ^ (hi + 1 - lo) := Nat.mod_lt _ (Nat.two_pow_pos _)
  rw [setBits, BitVec.getLsbD_ofNat, bits, replaceMiddle_eq_parts, Nat.testBit_two_pow_mul_add _ (Nat.mod_lt _ (Nat.two_pow_pos _)),
    Nat.testBit_two_pow_mul_add _ hy]
  simp only [hk, decide_true, Bool.true_and, Nat.testBit_mod_two_pow, Nat.testBit_div_two_pow, BitVec.getLsbD]
  by_cases h1 : k < lo
  · simp [h1, show ¬(lo ≤ k ∧ k ≤ hi) by omega]
  · by_cases h2 : k - lo < hi + 1 - lo
    · simp [h1, h2, show lo ≤ k ∧ k ≤ hi by omega]
    · simp [h1, h2, show ¬(lo ≤ k ∧ k ≤ hi) by omega, show k - lo - (hi + 1 - lo) + (hi + 1 - lo) + lo = k by omega]

/-- A set bit reads 1. -/
theorem getLsbD_setBits_same {w : Nat} (v : BitVec w) (i : Nat) (h : i < w) : (setBits v i i 1).getLsbD i = true := by
  simp [getLsbD_setBits v i i 1 i (Nat.le_refl i) h]

/-- Another bit keeps its value when a bit is set. -/
theorem getLsbD_setBits_other {w : Nat} (v : BitVec w) (i j x : Nat) (h : j < w) (hij : j ≠ i) : (setBits v i i x).getLsbD j = v.getLsbD j := by
  rw [getLsbD_setBits v i i x j (Nat.le_refl i) h, if_neg (by omega)]

/-- A field below a replaced one keeps its value. -/
theorem bits_setBits_below {w : Nat} (v : BitVec w) (hi lo x h l : Nat) (hw : h < w) (hb : h < lo) (hl : lo ≤ hi) :
    bits (setBits v hi lo x) h l = bits v h l := by
  refine Nat.eq_of_testBit_eq fun k => ?_
  rw [testBit_bits, testBit_bits]
  by_cases hk : k < h + 1 - l
  · rw [getLsbD_setBits v hi lo x (l + k) hl (by omega), if_neg (by omega)]
  · simp [hk]

/-! ### A word packed from flags -/

/-- The sum of flags at their places. -/
def flagSum (f : Nat → Bool) (n : Nat) : Nat := (((List.range n).map fun i => (i, b2n (f i))).map fun p => p.2 * 2 ^ p.1).foldl (· + ·) 0

theorem flagSum_succ (f : Nat → Bool) (n : Nat) : flagSum f (n + 1) = 2 ^ n * b2n (f n) + flagSum f n := by
  simp only [flagSum, List.range_succ, List.map_append, List.foldl_append, List.map_cons, List.map_nil, List.foldl_cons, List.foldl_nil]
  rw [Nat.add_comm, Nat.mul_comm]

theorem flagSum_lt (f : Nat → Bool) (n : Nat) : flagSum f n < 2 ^ n := by
  induction n with
  | zero => simp [flagSum]
  | succ n ih =>
    rw [flagSum_succ, Nat.pow_succ]
    cases f n <;> simp [b2n] <;> omega

theorem testBit_flagSum (f : Nat → Bool) (n i : Nat) (h : i < n) : (flagSum f n).testBit i = f i := by
  induction n with
  | zero => omega
  | succ n ih =>
    rw [flagSum_succ, Nat.testBit_two_pow_mul_add _ (flagSum_lt f n)]
    by_cases hi : i < n
    · simp [hi, ih hi]
    · obtain rfl : i = n := by omega
      cases hf : f i <;> simp [b2n]

/-- A word packed from 32 flags has each at its bit. -/
theorem getLsbD_packFlags (f : Nat → Bool) (i : Nat) (h : i < 32) :
    (packFields ((List.range 32).map fun i => (i, b2n (f i)))).getLsbD i = f i := by
  show (BitVec.ofNat 32 (flagSum f 32)).getLsbD i = f i
  rw [BitVec.getLsbD_ofNat, testBit_flagSum f 32 i h, decide_eq_true h, Bool.true_and]

/-- A word reads back from its four bytes (R13). -/
theorem ofNat_leNat_leBytes (v : W32) : BitVec.ofNat 32 (leNat (leBytes 4 v.toNat)) = v := by
  rw [leNat_leBytes, Nat.mod_eq_of_lt (show v.toNat < 256 ^ 4 from v.isLt), BitVec.ofNat_toNat, BitVec.setWidth_eq]

/-! ### Commands -/

/-- A command gives the module that its function leaves. -/
theorem gives_of_eq {c : Instr} {s : State} {m m' : Mach} (he : exec c s = .next { s with m := m }) (h : m = m') : Gives c s m' := h ▸ he

/-- Every command answers a next state, with the queue as it stood (R4). -/
theorem exec_next (c : Instr) (s : State) : ∃ m', exec c s = .next { s with m := m' } := by
  cases c <;> exact ⟨_, rfl⟩

theorem canon_reset : Mach.reset.Canon :=
  ⟨⟨FMap.wf_nil, FMap.wf_nil, FMap.wf_nil, FMap.wf_nil, FMap.wf_nil, FMap.wf_nil, FMap.wf_nil, FMap.wf_nil, FMap.wf_nil, FMap.wf_nil,
    FMap.wf_nil⟩, FMap.wf_nil⟩

/-- Settles O56: the tie of step to exec is the definition of step, and every arm of exec ends with the queue that it found. -/
theorem stepTakesTheFrontCommand : Obligations.StepTakesTheFrontCommand :=
  fun c s _ => ⟨rfl, rfl, exec_next c s⟩

/-- Settles O58: nothing is listed in any memory or in the registers after reset. -/
theorem resetIsCanonicalAndQuiet : Obligations.ResetIsCanonicalAndQuiet := ⟨canon_reset, rfl, fun _ => rfl⟩

end Sys2Proof.Machine
end

section
/-! PROOFS. The reads and writes of the host: an access error and its log, the reads of the three BARs, the staging window, and register writes
by access code. -/
namespace Sys2Proof.Machine

variable {m m' n : Mach}

/-! ### Access errors -/

theorem Mach.OnlyReported.mem_eq (h : m.OnlyReported m') : m'.mem = m.mem := by
  unfold Mach.OnlyReported at h
  rw [h]
theorem Mach.OnlyReported.rd_eq (h : m.OnlyReported m') : m'.hif.rd = m.hif.rd := by
  unfold Mach.OnlyReported at h
  rw [h]
theorem Mach.OnlyReported.queues_eq (h : m.OnlyReported m') : m'.hif.queues = m.hif.queues := by
  unfold Mach.OnlyReported at h
  rw [h]

/-- An error bit stays raised over a report that follows. -/
theorem Mach.Raised.quiet {err i : Nat} (h : m.Raised n err i) (he : outsideFlt err) (q : n.Quiet m') : m.Raised m' err i :=
  ⟨OnlyReported.trans h.1 q.1, (q.2 err he).trans h.2.1, fun a ha hn => (q.2 a ha).trans (h.2.2 a ha hn)⟩

theorem Mach.Raised.bit_set {err i : Nat} (h : m.Raised m' err i) (hi : i < 32) : (m'.reg err).getLsbD i = true := by
  rw [h.2.1, reg_putBit, if_pos rfl]
  exact getLsbD_setBits_same _ i hi

/-- Raising an error bit clears no other. -/
theorem Mach.Raised.bit_kept {err i j : Nat} (h : m.Raised m' err i) (hj : j < 32) (hs : (m.reg err).getLsbD j = true) :
    (m'.reg err).getLsbD j = true := by
  by_cases hij : j = i
  · subst hij
    exact h.bit_set hj
  · rw [h.2.1, reg_putBit, if_pos rfl, getLsbD_setBits_other _ i j _ hj hij, hs]

theorem raised_raiseHif (i source : Nat) : m.Raised (m.raiseHif i source) rHifErr i :=
  Mach.Raised.quiet (raised_raise (by decide)) (by decide) quiet_signalErr

/-- What HIF_ERR_INFO holds of an access that was logged, but for VALID. -/
def accessInfo (b : Bar) (size : Nat) (write : Bool) : W32 := BitVec.ofNat 32 (min size 0xFFF * 16 + b2n write * 8 + barCode b)

/-- The log of the first access that breaks a rule: it stays as it was where it is VALID, and else shows the access (R14, R374, R377). -/
def Mach.AccessLogged (m m' : Mach) (b : Bar) (off : W32) (size : Nat) (write : Bool) : Prop :=
  (m.bit rHifErrInfo 31 = true → m'.reg rHifErrInfo = m.reg rHifErrInfo ∧ m'.reg rHifErrAddrLo = m.reg rHifErrAddrLo)
    ∧ (m.bit rHifErrInfo 31 = false → m'.reg rHifErrAddrLo = off ∧ m'.bit rHifErrInfo 31 = true ∧ m'.bit rHifErrInfo 3 = write
      ∧ m'.rbits rHifErrInfo 15 4 = min size 0xFFF ∧ m'.rbits rHifErrInfo 2 0 = barCode b)

theorem barCode_le (b : Bar) : barCode b ≤ 2 := by cases b <;> decide

theorem accessInfo_toNat (b : Bar) (size : Nat) (write : Bool) :
    (accessInfo b size write).toNat = min size 0xFFF * 16 + b2n write * 8 + barCode b := by
  have hb := barCode_le b
  have hw : b2n write ≤ 1 := by cases write <;> decide
  rw [accessInfo, BitVec.toNat_ofNat, Nat.mod_eq_of_lt (by omega)]

theorem accessInfo_fields (b : Bar) (size : Nat) (write : Bool) :
    (accessInfo b size write).getLsbD 3 = write ∧ bits (accessInfo b size write) 15 4 = min size 0xFFF
      ∧ bits (accessInfo b size write) 2 0 = barCode b := by
  have hb := barCode_le b
  have hw : b2n write ≤ 1 := by cases write <;> decide
  have hs : min size 0xFFF ≤ 0xFFF := Nat.min_le_right ..
  have hn := accessInfo_toNat b size write
  generalize min size 0xFFF = x at *
  refine ⟨?_, ?_, ?_⟩
  · rw [BitVec.getLsbD, hn, Nat.testBit_eq_decide_div_mod_eq, show (x * 16 + b2n write * 8 + barCode b) / 2 ^ 3 % 2 = b2n write by omega]
    cases write <;> rfl
  · rw [bits, hn]
    show _ / 16 % 4096 = x
    omega
  · rw [bits, hn]
    show _ / 1 % 8 = barCode b
    omega

theorem onlyReported_setReg (a : Nat) (v : W32) : m.OnlyReported (m.setReg a v) := rfl
theorem onlyReported_putBit (a i : Nat) (v : Bool) : m.OnlyReported (m.putBit a i v) := rfl

theorem onlyReported_logAccess (b off size : Nat) (write : Bool) : m.OnlyReported (m.logAccess b off size write) := by
  unfold Mach.logAccess
  split
  · exact OnlyReported.refl m
  · exact OnlyReported.trans (onlyReported_setReg ..) (OnlyReported.trans (onlyReported_setReg ..)
      (OnlyReported.trans (onlyReported_setReg ..) (onlyReported_putBit ..)))

theorem accessLogged_logAccess (b : Bar) (off : W32) (size : Nat) (write : Bool) :
    m.AccessLogged (m.logAccess (barCode b) off.toNat size write) b off size write := by
  refine ⟨fun h => ?_, fun h => ?_⟩
  · rw [Mach.logAccess, if_pos h]
    exact ⟨rfl, rfl⟩
  · have hnot : ¬ m.bit rHifErrInfo 31 = true := by rw [h]; exact Bool.false_ne_true
    have hinfo : (m.logAccess (barCode b) off.toNat size write).reg rHifErrInfo = setBits (accessInfo b size write) 31 31 1 := by
      rw [Mach.logAccess, if_neg hnot, reg_putBit, if_pos rfl, reg_setReg, if_pos rfl]
      rfl
    have haddr : (m.logAccess (barCode b) off.toNat size write).reg rHifErrAddrLo = off := by
      rw [Mach.logAccess, if_neg hnot, reg_putBit, if_neg (by decide), reg_setReg, if_neg (by decide), reg_setReg, if_neg (by decide),
        reg_setReg, if_pos rfl, BitVec.ofNat_toNat, BitVec.setWidth_eq]
    obtain ⟨hwrite, hsize, hbar⟩ := accessInfo_fields b size write
    unfold Mach.bit Mach.rbits bitAt
    rw [hinfo]
    refine ⟨haddr, getLsbD_setBits_same _ 31 (by decide), ?_, ?_, ?_⟩
    · rw [getLsbD_setBits_other _ 31 3 1 (by decide) (by decide), hwrite]
    · rw [bits_setBits_below _ 31 31 1 15 4 (by decide) (by decide) (by decide), hsize]
    · rw [bits_setBits_below _ 31 31 1 2 0 (by decide) (by decide) (by decide), hbar]

/-- The log stands in two registers. -/
theorem Mach.AccessLogged.of_regs {b : Bar} {off : W32} {size : Nat} {write : Bool} (h : m.AccessLogged n b off size write)
    (hr : ∀ a, outsideFlt a → a ≠ rHifErr → m'.reg a = n.reg a) : m.AccessLogged m' b off size write := by
  unfold Mach.AccessLogged Mach.bit Mach.rbits at *
  rwa [hr rHifErrInfo (by decide) (by decide), hr rHifErrAddrLo (by decide) (by decide)]

/-- An access error sets its bit; beside the log and what a report changes nothing changes. -/
theorem raised_accessError (i b off size : Nat) (write : Bool) :
    (m.logAccess b off size write).Raised (m.accessError i b off size write) rHifErr i := raised_raiseHif i 0xFFFF

theorem onlyReported_accessError (i b off size : Nat) (write : Bool) : m.OnlyReported (m.accessError i b off size write) :=
  OnlyReported.trans (onlyReported_logAccess b off size write) (raised_accessError i b off size write).1

/-- What an access that is not allowed leaves behind where no window is closed: WIDTH set, BAR4W too for a write to the record areas, and the
log. -/
theorem badAccess_open {b : Bar} {off : Nat} (size : Nat) (write : Bool) (h : m.closedTo b off = false) :
    m.OnlyReported (m.badAccess b off size write) ∧ ((m.badAccess b off size write).reg rHifErr).getLsbD 0 = true
      ∧ (b = .bar4 → write = true → 0x00100000 ≤ off → ((m.badAccess b off size write).reg rHifErr).getLsbD 2 = true)
      ∧ ∀ a, outsideFlt a → a ≠ rHifErr → (m.badAccess b off size write).reg a = (m.logAccess (barCode b) off size write).reg a := by
  have hw : (m.logAccess (barCode b) off size write).Raised (m.accessError 0 (barCode b) off size write) rHifErr 0 :=
    raised_accessError ..
  have ho := onlyReported_accessError (m := m) 0 (barCode b) off size write
  simp only [Mach.badAccess, h, Bool.false_eq_true, if_false]
  split
  · have hr := raised_raiseHif (m := m.accessError 0 (barCode b) off size write) 2 0xFFFF
    exact ⟨OnlyReported.trans ho hr.1, hr.bit_kept (by decide) (hw.bit_set (by decide)), fun _ _ _ => hr.bit_set (by decide),
      fun a ha hn => (hr.2.2 a ha hn).trans (hw.2.2 a ha hn)⟩
  · rename_i hcond
    exact ⟨ho, hw.bit_set (by decide), fun h4 hwr hoff => absurd ⟨h4, hwr, hoff⟩ hcond, hw.2.2⟩

/-! ### Reads by BAR -/

theorem barAllows_bar0 (off size : Nat) (write : Bool) : barAllows .bar0 off size write = true ↔ size = 4 ∧ off % 4 = 0 := by
  simp [barAllows]

theorem barAllows_bar2 (off size : Nat) (write : Bool) : barAllows .bar2 off size write = true ↔ 1 ≤ size ∧ size ≤ 4096 := by
  simp [barAllows]

theorem barAllows_bar4 (off size : Nat) (write : Bool) : barAllows .bar4 off size write = true ↔
    if off < 0x00100000 then size = 4 ∧ off % 4 = 0 else write = false ∧ size ∈ [4, 8, 16, 32, 64] ∧ off % size = 0 := by
  by_cases h : off < 0x00100000 <;> simp [barAllows, h, or_assoc, and_assoc]

/-- What a read meets before its BAR: nothing outside the BAR, and no closed window. -/
theorem hostRead_closed {b : Bar} {off size : Nat} (hu : m.hostUp = true) (hs : off + size ≤ barSize b) (hc : m.closedTo b off = true) :
    hostRead b off size m = (List.replicate size 0xFF, m) := by
  simp [hostRead, hu, hc, Nat.not_lt.mpr hs]

theorem hostRead_refused {b : Bar} {off size : Nat} (hu : m.hostUp = true) (hs : off + size ≤ barSize b) (hc : m.closedTo b off = false)
    (ha : barAllows b off size false = false) : hostRead b off size m = (List.replicate size 0xFF, m.badAccess b off size false) := by
  simp [hostRead, hu, hc, ha, Nat.not_lt.mpr hs]

theorem hostRead_bar0 {a : Nat} (hu : m.hostUp = true) (hs : a + 4 ≤ 2 ^ 26) (hc : m.closedTo .bar0 a = false) (ha : a % 4 = 0) :
    hostRead .bar0 a 4 m = (leBytes 4 (m.bar0Read a).1.toNat, (m.bar0Read a).2) := by
  have hs' : ¬ barSize .bar0 < a + 4 := Nat.not_lt.mpr hs
  simp [hostRead, hu, hc, (barAllows_bar0 a 4 false).mpr ⟨rfl, ha⟩, hs']

theorem closedTo_bar2 (o : Nat) : m.closedTo .bar2 o = false := by simp [Mach.closedTo, Mach.inWindow]

theorem hostRead_bar2 {o size : Nat} (hu : m.hostUp = true) (hs : o + size ≤ 2 ^ 30) (h1 : 1 ≤ size) (h2 : size ≤ 4096) :
    hostRead .bar2 o size m = (m.stgRead (m.stgBase + o) size,
      if m.stgWhole (m.stgBase + o) size then m else m.accessError 1 1 o size false) := by
  have hs' : ¬ barSize .bar2 < o + size := Nat.not_lt.mpr hs
  simp [hostRead, hu, closedTo_bar2, (barAllows_bar2 o size false).mpr ⟨h1, h2⟩, hs']

theorem hostRead_bar4 {o size : Nat} (hu : m.hostUp = true) (hs : o + size ≤ 2 ^ 24) (hc : m.closedTo .bar4 o = false)
    (ha : barAllows .bar4 o size false = true) :
    hostRead .bar4 o size m = (if o < 0x00100000 then leBytes 4 (m.bar4Word o).toNat else m.recordRead o size, m) := by
  have hs' : ¬ barSize .bar4 < o + size := Nat.not_lt.mpr hs
  simp [hostRead, hu, hc, ha, hs']

/-- The context windows of BAR4 are record areas. -/
theorem closedTo_bar4_low {o : Nat} (h : o < 0x00100000) : m.closedTo .bar4 o = false := by
  simp [Mach.closedTo, Mach.inWindow, Nat.not_le.mpr h]

theorem closedTo_bar4_noArea {o : Nat} (h : m.areaAt o = none) : m.closedTo .bar4 o = false := by simp [Mach.closedTo, Mach.inWindow, h]

/-- A read below the record areas answers the word. -/
theorem hostRead_bar4_word {o : Nat} (hu : m.hostUp = true) (ho : o < 0x00100000) (ha : o % 4 = 0) :
    hostRead .bar4 o 4 m = (leBytes 4 (m.bar4Word o).toNat, m) := by
  have hok : barAllows .bar4 o 4 false = true := (barAllows_bar4 o 4 false).mpr (by rw [if_pos ho]; exact ⟨rfl, ha⟩)
  rw [hostRead_bar4 hu (by omega) (closedTo_bar4_low ho) hok, if_pos ho]

theorem answerRead_up (b : Bar) (off size : Nat) (hu : m.hostUp = true) :
    m.answerRead b off size = { (hostRead b off size m).2 with hif := { (hostRead b off size m).2.hif with rd := (hostRead b off size m).1 } } :=
  if_pos hu

/-! ### The staging window -/

theorem stgWhole_iff (a size : Nat) : m.stgWhole a size = true ↔ ∀ k < size, m.stgReach (a + k) = true := by
  induction size generalizing a with
  | zero => simp [Mach.stgWhole]
  | succ size ih =>
    rw [Mach.stgWhole, Bool.and_eq_true, ih]
    constructor
    · rintro ⟨h0, hs⟩ (_ | k) hk
      · exact h0
      · rw [show a + (k + 1) = a + 1 + k by omega]
        exact hs k (by omega)
    · intro h
      exact ⟨h 0 (by omega), fun k hk => by rw [show a + 1 + k = a + (k + 1) by omega]; exact h (k + 1) (by omega)⟩

theorem stgRead_length (a size : Nat) : (m.stgRead a size).length = size := by
  induction size generalizing a with
  | zero => rfl
  | succ size ih => simp [Mach.stgRead, ih]

theorem stgRead_getElem? (a size k : Nat) (h : k < size) :
    (m.stgRead a size)[k]? = some (if m.stgReach (a + k) then m.ddrByte (a + k) else 0xFF) := by
  induction size generalizing a k with
  | zero => omega
  | succ size ih =>
    cases k with
    | zero => rfl
    | succ k =>
      rw [Mach.stgRead, List.getElem?_cons_succ, ih (a + 1) k (by omega), show a + 1 + k = a + (k + 1) by omega]

/-- A byte after a staging write: the byte written where it is reachable, the old one elsewhere. -/
theorem readByte_stgWrite (reach : Nat → Bool) (bs : List Byte) (d : List Host.Cell) (a j : Nat) :
    readByte (stgWrite reach d a bs) j = if a ≤ j ∧ j < a + bs.length ∧ reach j = true then bs.getD (j - a) 0 else readByte d j := by
  induction bs generalizing d a with
  | nil => simp [stgWrite, show ¬(a ≤ j ∧ j < a ∧ reach j = true) by omega]
  | cons b bs ih =>
    have hput : readByte (if reach a then FMap.put emptyByte d a b else d) j = if a = j ∧ reach j = true then b else readByte d j := by
      by_cases haj : a = j
      · subst haj
        cases reach a <;> simp [readByte]
      · cases reach a <;> simp [readByte, haj]
    rw [stgWrite, ih, hput, List.length_cons]
    by_cases haj : a = j
    · subst haj
      simp [show ¬ a + 1 ≤ a by omega]
    · by_cases hlater : a + 1 ≤ j
      · simp [haj, hlater, show a ≤ j by omega, show a + 1 + bs.length = a + (bs.length + 1) by omega,
          show j - a = j - (a + 1) + 1 by omega]
      · simp [haj, hlater, show ¬ a ≤ j by omega]

theorem ddrByte_of_mem (h : m'.mem = m.mem) (b : Nat) : m'.ddrByte b = m.ddrByte b := by
  simp [Mach.ddrByte, Mach.stale, Mach.cipherGran, h]

theorem masked_length (a : Nat) (bs : List Byte) : (m.masked a bs).length = bs.length := by simp [Mach.masked]

theorem masked_getD (a k : Nat) (bs : List Byte) (h : k < bs.length) : (m.masked a bs).getD k 0 = bs.getD k 0 ^^^ m.stale (a + k) := by
  have h' : k < (m.masked a bs).length := by rwa [masked_length]
  rw [getD_elem _ _ _ h', getD_elem _ _ _ h]
  simp [Mach.masked]

theorem padTo_getD (size k : Nat) (bs : List Byte) (h : k < size) : (padTo size bs).getD k 0 = bs.getD k 0 := by
  simp only [padTo, zeros, List.getD, List.getElem?_take, h, if_true, List.getElem?_append, List.getElem?_replicate]
  split
  · rfl
  · rename_i hk
    rw [List.getElem?_eq_none (by omega)]
    split <;> rfl

/-- DDR4 after the reachable bytes of a staging write. -/
def Mach.staged (m : Mach) (a size : Nat) (data : List Byte) : Mach :=
  { m with mem := { m.mem with
    ddr := stgWrite m.stgReach m.mem.ddr a (m.masked a (padTo size data)),
    eccDdr := FMap.clear m.mem.eccDdr fun k => wholeBeat a size k && m.stgReach (8 * k) && m.stgReach (8 * k + 7) } }

theorem stagingWrite_eq (off size : Nat) (data : List Byte) : m.stagingWrite off size data =
    if m.stgWhole (m.stgBase + off) size then m.staged (m.stgBase + off) size data
    else (m.staged (m.stgBase + off) size data).accessError 1 1 off size true := rfl

theorem ddrByte_staged (a size b : Nat) (data : List Byte) : (m.staged a size data).ddrByte b =
    if a ≤ b ∧ b < a + size ∧ m.stgReach b = true then data.getD (b - a) 0 else m.ddrByte b := by
  have hstale : (m.staged a size data).stale = m.stale := rfl
  rw [Mach.ddrByte, hstale]
  show readByte (stgWrite m.stgReach m.mem.ddr a (m.masked a (padTo size data))) b ^^^ _ = _
  rw [readByte_stgWrite, masked_length, padTo_length]
  split
  · rename_i h
    rw [masked_getD a (b - a) _ (by rw [padTo_length]; omega), padTo_getD size (b - a) data (by omega), show a + (b - a) = b by omega,
      BitVec.xor_assoc, BitVec.xor_self, BitVec.xor_zero]
  · rfl

/-- A staging write: the reachable bytes of DDR4 change; one that touches an unreachable byte sets STG (R377). -/
theorem stagingWrite_spec (off size : Nat) (data : List Byte) :
    (m.stagingWrite off size data).mem = (m.staged (m.stgBase + off) size data).mem
      ∧ (m.stgWhole (m.stgBase + off) size = true → m.stagingWrite off size data = m.staged (m.stgBase + off) size data)
      ∧ (m.stgWhole (m.stgBase + off) size = false → ((m.stagingWrite off size data).reg rHifErr).getLsbD 1 = true) := by
  rw [stagingWrite_eq]
  split
  · rename_i h
    exact ⟨rfl, fun _ => rfl, fun h' => absurd h (by simp [h'])⟩
  · rename_i h
    exact ⟨(onlyReported_accessError ..).mem_eq, fun h' => absurd h' h, fun _ => (raised_accessError ..).bit_set (by decide)⟩

/-! ### Register writes -/

/-- The bits that the hardware sets in the present cycle (R18). -/
theorem getLsbD_setMask (a i : Nat) (hi : i < 32) : (m.setMask a).getLsbD i = m.justSet.contains (a, i) := by
  have hfold : ∀ (l : List (Nat × Nat)) (w : W32),
      (l.foldl (fun (w : W32) p => if p.1 = a then w ||| BitVec.twoPow 32 p.2 else w) w).getLsbD i = (w.getLsbD i || decide ((a, i) ∈ l)) := by
    intro l
    induction l with
    | nil => simp
    | cons p l ih =>
      intro w
      obtain ⟨b, j⟩ := p
      have hbit : (if b = a then w ||| BitVec.twoPow 32 j else w).getLsbD i = (w.getLsbD i || decide (a = b ∧ i = j)) := by
        by_cases hb : b = a
        · rw [if_pos hb, BitVec.getLsbD_or, BitVec.getLsbD_twoPow]
          by_cases hj : j = i
          · simp [hb, hj, hi]
          · simp [hj, Ne.symm hj]
        · simp [hb, Ne.symm hb]
      rw [List.foldl_cons, ih, hbit, Bool.or_assoc]
      simp only [List.mem_cons, Prod.mk.injEq, Bool.decide_or]
  rw [Mach.setMask, hfold, List.contains_eq_mem]
  simp

/-- What a host write leaves in a bit, where no bit has two access codes (R16-R18). -/
theorem getLsbD_write (r : RegRow) (conf : Bool) (old v set : W32) (i : Nat) (hi : i < 32) (hd : (r.rw ||| r.rwl) &&& r.w1c = 0) :
    (r.write conf old (v &&& ~~~(set &&& BitVec.ofNat 32 r.w1c))).getLsbD i =
      ((if r.rw.testBit i ∨ (r.rwl.testBit i ∧ conf = false) then v.getLsbD i else old.getLsbD i)
        && !(v.getLsbD i && r.w1c.testBit i && !set.getLsbD i)) := by
  have hdisj : ((r.rw.testBit i || r.rwl.testBit i) && r.w1c.testBit i) = false := by
    rw [← Nat.testBit_or, ← Nat.testBit_and, hd, Nat.zero_testBit]
  have hof : ∀ x, (BitVec.ofNat 32 x).getLsbD i = x.testBit i := fun x => by rw [BitVec.getLsbD_ofNat, decide_eq_true hi, Bool.true_and]
  have hl : (if conf then 0 else BitVec.ofNat 32 r.rwl).getLsbD i = (!conf && r.rwl.testBit i) := by
    cases conf
    · exact hof _
    · simp
  simp only [RegRow.write, BitVec.getLsbD_and, BitVec.getLsbD_or, BitVec.getLsbD_not, hof, hl, decide_eq_true hi, Bool.true_and]
  clear hl
  revert hdisj
  generalize r.rw.testBit i = rw', r.rwl.testBit i = rwl', r.w1c.testBit i = w1c', v.getLsbD i = v', old.getLsbD i = old', set.getLsbD i = set'
  revert conf rw' rwl' w1c' v' old' set'
  decide

/-- In the clock, power and tile blocks no bit has two access codes. -/
theorem masks_disjoint {a : Nat} {r : RegRow} (hr : regRow a = some r) (hlo : 0x10000 ≤ a) (hhi : a < 0x1000000) :
    (r.rw ||| r.rwl) &&& r.w1c = 0 := by
  have hmem : r ∈ regBlock a := List.mem_of_find?_eq_some hr
  have hrows : ∀ x ∈ regRowsClk ++ regRowsFab, (x.rw ||| x.rwl) &&& x.w1c = 0 := by decide
  refine hrows r (List.mem_append.mpr ?_)
  unfold regBlock at hmem
  rw [if_neg (by omega)] at hmem
  split at hmem
  · exact .inl hmem
  · exact .inr hmem

/-- Every register of a unit that a part may lack lies above the tile blocks. -/
theorem absentReg_low (v : Variant) {a : Nat} (h : a < 0x1000000) : v.absentReg a = false := by
  have hbase : ∀ b, 0x1000000 ≤ b → decide (b ≤ a) = false := fun b hb => decide_eq_false (by omega)
  simp only [Variant.absentReg, hbase 0x1900000 (by decide), hbase 0x1D00180 (by decide), hbase 0x1D004C0 (by decide),
    hbase 0x1001400 (by decide), hbase 0x1000070 (by decide), hbase (0x1000040 + 4 * v.nstk) (by omega), Bool.false_and, Bool.or_false,
    Bool.and_false]

theorem writeReg_row {a : Nat} {r : RegRow} (v : W32) (ha : m.variant.absentReg a = false) (hr : regRow a = some r) :
    m.writeReg a v = m.setReg a (r.write m.sec.conf (m.reg a) (v &&& ~~~(m.setMask a &&& BitVec.ofNat 32 r.w1c))) := by
  simp [Mach.writeReg, ha, hr]

end Sys2Proof.Machine
end

section
/-! PROOFS. Each of the host's accesses through a BAR, and O51. -/
namespace Sys2Proof.Machine

variable {m : Mach}

/-! ### Accesses of a wrong width -/

theorem badWidth_ignored {b : Bar} {off : W32} {size : Nat} {write : Bool}
    (h : barAllows b off.toNat size write = true ∨ barSize b < off.toNat + size) : badWidth b off size write m = m := by
  unfold badWidth
  rw [if_pos]
  rcases h with h | h <;> simp [h]

/-- A write of a wrong width is a bad access; a read returns all ones besides. -/
theorem badWidth_taken {b : Bar} {off : W32} {size : Nat} {write : Bool} (hu : m.hostUp = true)
    (ha : barAllows b off.toNat size write = false) (hs : off.toNat + size ≤ barSize b) :
    badWidth b off size write m = if write then m.badAccess b off.toNat size true else m.answerRead b off.toNat size := by
  simp [badWidth, hu, ha, Nat.not_lt.mpr hs]

/-- In a closed window a read returns all ones and leaves nothing else behind (R376). -/
theorem answerRead_closed {b : Bar} {off size : Nat} (hu : m.hostUp = true) (hs : off + size ≤ barSize b) (hc : m.closedTo b off = true) :
    m.answerRead b off size = { m with hif := { m.hif with rd := List.replicate size 0xFF } } := by
  rw [answerRead_up _ _ _ hu, hostRead_closed hu hs hc]

theorem badAccess_closed {b : Bar} {off : Nat} (size : Nat) (write : Bool) (hc : m.closedTo b off = true) : m.badAccess b off size write = m :=
  if_pos hc

theorem badWidth_closed {b : Bar} {off : W32} {size : Nat} {write : Bool} (hu : m.hostUp = true)
    (ha : barAllows b off.toNat size write = false) (hs : off.toNat + size ≤ barSize b) (hc : m.closedTo b off.toNat = true) :
    badWidth b off size write m = if write then m else { m with hif := { m.hif with rd := List.replicate size 0xFF } } := by
  rw [badWidth_taken hu ha hs, badAccess_closed size true hc, answerRead_closed hu hs hc]

/-- Where no window is closed, a read of a wrong width returns all ones after the access has been reported. -/
theorem badWidth_open_read {b : Bar} {off : W32} {size : Nat} (hu : m.hostUp = true) (ha : barAllows b off.toNat size false = false)
    (hs : off.toNat + size ≤ barSize b) (hc : m.closedTo b off.toNat = false) :
    badWidth b off size false m = { m.badAccess b off.toNat size false with
      hif := { (m.badAccess b off.toNat size false).hif with rd := List.replicate size 0xFF } } := by
  rw [badWidth_taken hu ha hs, if_neg Bool.false_ne_true, answerRead_up _ _ _ hu, hostRead_refused hu hs hc ha]

theorem badWidth_write {b : Bar} {off : W32} {size : Nat} (hu : m.hostUp = true) (ha : barAllows b off.toNat size true = false)
    (hs : off.toNat + size ≤ barSize b) : badWidth b off size true m = m.badAccess b off.toNat size true := by
  rw [badWidth_taken hu ha hs, if_pos rfl]

theorem badWidth_open_spec {b : Bar} {off : W32} {size : Nat} {write : Bool} (hu : m.hostUp = true)
    (ha : barAllows b off.toNat size write = false) (hs : off.toNat + size ≤ barSize b) (hc : m.closedTo b off.toNat = false) :
    ((badWidth b off size write m).reg rHifErr).getLsbD 0 = true ∧ (badWidth b off size write m).mem = m.mem
      ∧ (b = .bar4 → write = true → 0x00100000 ≤ off.toNat → ((badWidth b off size write m).reg rHifErr).getLsbD 2 = true)
      ∧ (badWidth b off size write m).hif.rd = (if write then m.hif.rd else List.replicate size 0xFF)
      ∧ m.AccessLogged (badWidth b off size write m) b off size write := by
  obtain ⟨honly, hwidth, hbar4w, hlog⟩ := badAccess_open size write hc
  have hlogged := (accessLogged_logAccess (m := m) b off size write).of_regs hlog
  cases write
  · rw [badWidth_open_read hu ha hs hc]
    exact ⟨hwidth, honly.mem_eq, hbar4w, rfl, hlogged⟩
  · rw [badWidth_write hu ha hs]
    exact ⟨hwidth, honly.mem_eq, hbar4w, honly.rd_eq, hlogged⟩

theorem recordAreaWrite_taken {off : BitVec 24} (size : Nat) (hu : m.hostUp = true) (ho : 0x00100000 ≤ off.toNat) :
    recordAreaWrite off size m = m.badAccess .bar4 off.toNat size true := by simp [recordAreaWrite, hu, ho]

/-! ### The staging window -/

section
variable {off : BitVec 30} {size : Nat} (data : List Byte) (hu : m.hostUp = true) (h1 : 1 ≤ size) (h2 : size ≤ 4096)
  (hs : off.toNat + size ≤ 2 ^ 30)
include hu h1 h2 hs

theorem stagingAccess_taken (write : Bool) : stagingAccess write off size data m =
    if write then m.stagingWrite off.toNat size data else m.answerRead .bar2 off.toNat size := by
  have hs' : ¬ barSize .bar2 < off.toNat + size := Nat.not_lt.mpr hs
  simp [stagingAccess, hu, (barAllows_bar2 off.toNat size write).mpr ⟨h1, h2⟩, hs']

/-- A staging read answers the bytes of the window; STG is set where one is not reachable (R377). -/
theorem stagingAccess_read : stagingAccess false off size data m =
    let x := if m.stgWhole (m.stgBase + off.toNat) size then m else m.accessError 1 1 off.toNat size false
    { x with hif := { x.hif with rd := m.stgRead (m.stgBase + off.toNat) size } } := by
  rw [stagingAccess_taken data hu h1 h2 hs, answerRead_up _ _ _ hu, hostRead_bar2 hu hs h1 h2]
  rfl

theorem stagingAccess_read_spec (m' : Mach) (hm : m' = stagingAccess false off size data m) :
    m'.mem = m.mem ∧ m'.hif.rd = m.stgRead (m.stgBase + off.toNat) size
      ∧ (m.stgWhole (m.stgBase + off.toNat) size = true → m' = { m with hif := { m.hif with rd := m'.hif.rd } })
      ∧ (m.stgWhole (m.stgBase + off.toNat) size = false → (m'.reg rHifErr).getLsbD 1 = true) := by
  subst hm
  rw [stagingAccess_read data hu h1 h2 hs]
  split
  · rename_i h
    exact ⟨rfl, rfl, fun _ => rfl, fun h' => absurd h (by simp [h'])⟩
  · rename_i h
    exact ⟨(onlyReported_accessError ..).mem_eq, rfl, fun h' => absurd h' h, fun _ => (raised_accessError ..).bit_set (by decide)⟩

end

/-! ### Reads of BAR0 -/

theorem bar0Read_low {a : Nat} (h : (regRow a).any (·.pair) = true) : m.bar0Read a =
    (m.readReg a, { m with hif := { m.hif with shadow := m.readReg (a + 4), shadowAt := some (a + 4) } }) := by simp [Mach.bar0Read, h]

/-- The higher register of a pair returns the shadow once (R15). -/
theorem bar0Read_shadow {a : Nat} (h : (regRow a).any (·.pair) = false) (hs : m.hif.shadowAt = some a) : m.bar0Read a =
    (m.hif.shadow, { m with hif := { m.hif with shadowAt := none } }) := by simp [Mach.bar0Read, h, hs]

theorem bar0Read_plain {a : Nat} (h : (regRow a).any (·.pair) = false) (hs : m.hif.shadowAt ≠ some a) : m.bar0Read a = (m.readReg a, m) := by
  simp [Mach.bar0Read, h, hs]

theorem lowHalfRead_pair {a : Nat} (h : (regRow a).any (·.pair) = true) : lowHalfRead a m = m.answerRead .bar0 a 4 := by simp [lowHalfRead, h]

/-- An aligned address of 26 bits leaves room for a word. -/
theorem aligned_room {a : BitVec 26} (ha : a.toNat % 4 = 0) : a.toNat + 4 ≤ 2 ^ 26 := by have := a.isLt; omega

theorem lowHalfRead_open {a : BitVec 26} (hu : m.hostUp = true) (ha : a.toNat % 4 = 0) (hp : (regRow a.toNat).any (·.pair) = true)
    (hc : m.closedTo .bar0 a.toNat = false) : lowHalfRead a.toNat m = { m with hif := { m.hif with
      rd := leBytes 4 (m.readReg a.toNat).toNat, shadow := m.readReg (a.toNat + 4), shadowAt := some (a.toNat + 4) } } := by
  rw [lowHalfRead_pair hp, answerRead_up _ _ _ hu, hostRead_bar0 hu (aligned_room ha) hc ha, bar0Read_low hp]

theorem lowHalfRead_closed {a : BitVec 26} (hu : m.hostUp = true) (ha : a.toNat % 4 = 0) (hp : (regRow a.toNat).any (·.pair) = true)
    (hc : m.closedTo .bar0 a.toNat = true) : lowHalfRead a.toNat m = { m with hif := { m.hif with rd := List.replicate 4 0xFF } } := by
  rw [lowHalfRead_pair hp, answerRead_closed hu (aligned_room ha) hc]

theorem hostRead_bar0_plain {a : Nat} (hu : m.hostUp = true) (ha : a % 4 = 0) (hs : a + 4 ≤ 2 ^ 26) (hp : (regRow a).any (·.pair) = false)
    (hsh : m.hif.shadowAt ≠ some a) :
    hostRead .bar0 a 4 m = (if m.closedTo .bar0 a then List.replicate 4 0xFF else leBytes 4 (m.readReg a).toNat, m) := by
  cases hc : m.closedTo .bar0 a
  · rw [hostRead_bar0 hu hs hc ha, bar0Read_plain hp hsh]
    rfl
  · exact hostRead_closed hu hs hc

theorem hostRead_bar0_shadow {a : Nat} (hu : m.hostUp = true) (ha : a % 4 = 0) (hs : a + 4 ≤ 2 ^ 26) (hp : (regRow a).any (·.pair) = false)
    (hc : m.closedTo .bar0 a = false) (hsh : m.hif.shadowAt = some a) :
    hostRead .bar0 a 4 m = (leBytes 4 m.hif.shadow.toNat, { m with hif := { m.hif with shadowAt := none } }) := by
  rw [hostRead_bar0 hu hs hc ha, bar0Read_shadow hp hsh]

/-! ### Reads of BAR4 -/

theorem bar4Word_doorbell {q : Nat} (h : q < 8192) : m.bar4Word (8 * q) = m.doorbell q ∧ m.bar4Word (8 * q + 4) = 0 := by
  constructor
  · rw [Mach.bar4Word, if_pos (by omega), if_pos (by omega), Nat.mul_div_cancel_left q (by decide)]
  · rw [Mach.bar4Word, if_pos (by omega), if_neg (by omega)]

theorem bar4Word_msix {k : Nat} (h : k < 8192) : m.bar4Word (0x10000 + 4 * k) = FMap.get msixReset m.hif.msix k := by
  rw [Mach.bar4Word, if_neg (by omega), if_pos (by omega), show (0x10000 + 4 * k - 0x10000) / 4 = k by omega]

theorem bar4Word_pba {k : Nat} (h : k < 64) : m.bar4Word (0x18000 + 4 * k) = m.pbaWord k := by
  rw [Mach.bar4Word, if_neg (by omega), if_neg (by omega), if_pos (by omega), show (0x18000 + 4 * k - 0x18000) / 4 = k by omega]

/-- Each bit of the pending-bit array is a vector's. -/
theorem hostRead_pba (k : Fin 64) (hu : m.hostUp = true) : (hostRead .bar4 (0x18000 + 4 * k) 4 m).2 = m
    ∧ ∀ i < 32, (BitVec.ofNat 32 (leNat (hostRead .bar4 (0x18000 + 4 * k) 4 m).1)).getLsbD i
      = FMap.get (fun _ => false) m.hif.pba (32 * k + i) := by
  rw [hostRead_bar4_word hu (by omega) (by omega), bar4Word_pba k.isLt]
  refine ⟨rfl, fun i hi => ?_⟩
  rw [ofNat_leNat_leBytes]
  exact getLsbD_packFlags (fun i => FMap.get (fun _ => false) m.hif.pba (32 * k + i)) i hi

theorem recordRead_none {o : Nat} (size : Nat) (h : m.areaAt o = none) : m.recordRead o size = zeros size := by
  unfold Mach.recordRead
  rw [h]

theorem recordRead_some {o q : Nat} (size : Nat) (h : m.areaAt o = some q) :
    m.recordRead o size = (List.range size).map fun i => m.areaByte q (o + i) := by
  unfold Mach.recordRead
  rw [h]

section
variable {o size : Nat} (hu : m.hostUp = true) (ho : 0x00100000 ≤ o) (hs : o + size ≤ 2 ^ 24) (hz : size ∈ [4, 8, 16, 32, 64])
  (ha : o % size = 0)
include hu ho hs hz ha

theorem hostRead_records (hc : m.closedTo .bar4 o = false) : hostRead .bar4 o size m = (m.recordRead o size, m) := by
  have hlow : ¬ o < 0x00100000 := Nat.not_lt.mpr ho
  have hok : barAllows .bar4 o size false = true := (barAllows_bar4 o size false).mpr (by rw [if_neg hlow]; exact ⟨rfl, hz, ha⟩)
  rw [hostRead_bar4 hu hs hc hok, if_neg hlow]

theorem hostRead_noArea (hn : m.areaAt o = none) : hostRead .bar4 o size m = (zeros size, m) := by
  rw [hostRead_records hu ho hs hz ha (closedTo_bar4_noArea hn), recordRead_none size hn]

/-- A read within an entry's place of a record area returns the entry's bytes, zeros where the place is empty (R383, R395). -/
theorem hostRead_entry {q k j : Nat} (hc : m.closedTo .bar4 o = false) (hq : m.areaAt o = some q) (hj : j + size ≤ entrySize (m.qType q))
    (hoff : o = (m.areaOf q (m.qType q)).1 + entrySize (m.qType q) * k + j) :
    hostRead .bar4 o size m = ((List.range size).map fun i => (FMap.get (fun _ => []) (m.queue q).ents k).getD (j + i) 0, m) := by
  rw [hostRead_records hu ho hs hz ha hc, recordRead_some size hq]
  refine congrArg (·, m) (List.map_congr_left fun i hi => ?_)
  have hi' : j + i < entrySize (m.qType q) := by have := List.mem_range.mp hi; omega
  have hpos : 0 < entrySize (m.qType q) := by omega
  have hplace : o + i - (m.areaOf q (m.qType q)).1 = entrySize (m.qType q) * k + (j + i) := by omega
  simp only [Mach.areaByte, hplace, Nat.mul_add_div hpos, Nat.mul_add_mod, Nat.div_eq_of_lt hi', Nat.mod_eq_of_lt hi', Nat.add_zero]

end

/-! ### Register writes -/

theorem registerWrite_ignored {a : Nat} (v : W32)
    (h : a % 4 ≠ 0 ∨ regRow a = none ∨ m.variant.absentReg a = true ∨ (m.windowsClosed = true ∧ inContextWindow a = true)) :
    registerWrite .bar0 a v m = m := by
  unfold registerWrite
  split
  · rfl
  · rename_i hal
    rcases h with h | h | h | ⟨hw, hc⟩
    · exact absurd h hal
    · simp [h]
    · simp [Mach.writeBar0, h]
    · simp [Mach.hostWrites, hw, hc]

/-- A write of a register of the clock, power and tile blocks follows its access codes. -/
theorem registerWrite_low {a : Nat} {r : RegRow} (v : W32) (hu : m.hostUp = true) (ha : a % 4 = 0) (hr : regRow a = some r)
    (hlo : 0x10000 ≤ a) (hhi : a < 0x1000000) (hw : m.windowsClosed = false ∨ inContextWindow a = false) :
    registerWrite .bar0 a v m = m.setReg a (r.write m.sec.conf (m.reg a) (v &&& ~~~(m.setMask a &&& BitVec.ofNat 32 r.w1c))) := by
  have hwrites : m.hostWrites a = true := by rcases hw with h | h <;> simp [Mach.hostWrites, hu, h]
  have habs := absentReg_low m.variant hhi
  have hbar0 : m.writeBar0 a v = m.writeReg a v := by
    simp [Mach.writeBar0, habs, hhi, Nat.not_lt.mpr hlo]
  simp [registerWrite, ha, hwrites, hr, hbar0, writeReg_row v habs hr]

/-- Vector k's control word of the MSI-X table takes a mask bit (R384). -/
def Mach.vectorControl (m : Mach) (k : Nat) (v : W32) : Mach :=
  { m with hif := { m.hif with msix := FMap.put msixReset m.hif.msix (4 * k + 3) (v &&& 1) } }

/-- A write of a vector's control word: a vector unmasked with its pending bit set is signalled (log 2). -/
theorem writeMsix_control (k : Nat) (v : W32) : m.writeMsix (4 * k + 3) v =
    if v.getLsbD 0 = false ∧ FMap.get (fun _ => false) m.hif.pba k = true then
      { m.vectorControl k v with hif := { (m.vectorControl k v).hif with pba := FMap.put (fun _ => false) m.hif.pba k false } }.signal k
    else m.vectorControl k v := by
  have hrem : (4 * k + 3) % 4 = 3 := by omega
  have hdiv : (4 * k + 3) / 4 = k := by omega
  simp [Mach.writeMsix, Mach.vectorControl, bitAt, hrem, hdiv]

/-- A write within the MSI-X table. -/
theorem registerWrite_msix {a : Nat} (v : W32) (hu : m.hostUp = true) (ha : a % 4 = 0) (hlo : 0x10000 ≤ a) (hhi : a < 0x18000) :
    registerWrite .bar4 a v m = m.writeMsix ((a - 0x10000) / 4) v := by simp [registerWrite, hu, ha, hlo, hhi]

theorem registerWrite_control (k : Fin 2048) (v : W32) (hu : m.hostUp = true) :
    registerWrite .bar4 (BitVec.ofNat 26 (0x10000 + 16 * k.val + 12)).toNat v m = m.writeMsix (4 * k + 3) v := by
  have hk := k.isLt
  have haddr : (BitVec.ofNat 26 (0x10000 + 16 * k.val + 12)).toNat = 0x10000 + 16 * k.val + 12 := by
    rw [BitVec.toNat_ofNat, Nat.mod_eq_of_lt (by omega)]
  rw [haddr, registerWrite_msix v hu (by omega) (by omega) (by omega),
    show (0x10000 + 16 * k.val + 12 - 0x10000) / 4 = 4 * k.val + 3 by omega]

/-- A vector that is not masked is signalled with a message. -/
theorem signal_unmasked {k : Nat} (h : (FMap.get msixReset m.hif.msix (4 * k + 3)).getLsbD 0 = false) :
    m.signal k = { m with hif := { m.hif with irqs := k :: m.hif.irqs } } := by
  unfold Mach.signal bitAt
  rw [h, if_neg Bool.false_ne_true]

/-- A pending vector that is unmasked is signalled, and is pending no more. -/
theorem registerWrite_unmask (k : Fin 2048) (v : W32) (hu : m.hostUp = true) (hv : v.getLsbD 0 = false)
    (hp : FMap.get (fun _ => false) m.hif.pba k.val = true) (m' : Mach)
    (hm : m' = registerWrite .bar4 (BitVec.ofNat 26 (0x10000 + 16 * k.val + 12)).toNat v m) :
    FMap.get (fun _ => false) m'.hif.pba k.val = false ∧ m'.hif.irqs = k.val :: m.hif.irqs ∧ m'.regs = m.regs := by
  subst hm
  have hbit : (v &&& 1).getLsbD 0 = false := by rw [BitVec.getLsbD_and, hv, Bool.false_and]
  rw [registerWrite_control k v hu, writeMsix_control, if_pos ⟨hv, hp⟩, signal_unmasked (by simpa [Mach.vectorControl] using hbit)]
  exact ⟨by simp, rfl, rfl⟩

/-- Settles O51: each access goes through the reads and writes of its BAR; beside the answer and the log only what a report may change
changes. -/
theorem hostAccessesAreCheckedStagedAndWritten : Obligations.HostAccessesAreCheckedStagedAndWritten := by
  intro s hu
  refine ⟨fun bar off size write => ?_, fun off size ho => ?_, fun off size data h1 h2 hs => ?_, fun a r ha hr hp hc => ?_,
    fun a r ha hr hp hc => ?_, fun a ha hs hp hsh => hostRead_bar0_plain hu ha hs (by simpa using hp) hsh, fun q => ?_, fun k => ?_,
    fun k => hostRead_pba k hu, fun o size ho hs hz ha => ?_, fun a v h => ?_, fun a v r ha hr hlo hhi hw => ?_, fun k v => ?_⟩
  · intro allowed
    have hallow : allowed ↔ barAllows bar off.toNat size write = true := by
      cases bar
      · exact (barAllows_bar0 ..).symm
      · exact (barAllows_bar2 ..).symm
      · exact (barAllows_bar4 ..).symm
    rw [hallow, Bool.not_eq_true]
    refine ⟨fun h => gives_of_eq (exec_badWidthAccess ..) (badWidth_ignored h), fun ha hs hc => ?_, fun ha hs hc => ?_⟩
    · exact gives_of_eq (exec_badWidthAccess ..) (badWidth_closed hu ha hs hc)
    · exact ⟨_, exec_badWidthAccess .., badWidth_open_spec hu ha hs hc⟩
  · refine ⟨fun hc => ?_, fun hc => ?_⟩
    · exact gives_of_eq (exec_recordAreaWrite ..) ((recordAreaWrite_taken size hu ho).trans (badAccess_closed size true hc))
    · obtain ⟨honly, hwidth, hbar4w, -⟩ := badAccess_open size true hc
      refine ⟨_, exec_recordAreaWrite .., ?_⟩
      rw [recordAreaWrite_taken size hu ho]
      exact ⟨hwidth, hbar4w rfl rfl ho, honly.mem_eq, honly.queues_eq⟩
  · intro a whole
    have hwhole : whole ↔ s.m.stgWhole a size = true := (stgWhole_iff a size).symm
    rw [hwhole, Bool.not_eq_true]
    constructor
    · obtain ⟨hmem, hrd, hok, herr⟩ := stagingAccess_read_spec data hu h1 h2 hs _ rfl
      refine ⟨_, exec_stagingAccess .., hmem, ?_, fun k hk => ?_, hok, herr⟩
      · rw [hrd, stgRead_length]
      · rw [hrd, stgRead_getElem? _ _ _ hk]
    · obtain ⟨hmem, hok, herr⟩ := stagingWrite_spec (m := s.m) off.toNat size data
      refine ⟨_, exec_stagingAccess .., ?_⟩
      rw [stagingAccess_taken data hu h1 h2 hs true, if_pos rfl]
      refine ⟨fun b => ?_, (congrArg Mem.spad hmem).trans rfl, (congrArg Mem.stack hmem).trans rfl, fun h => ?_, herr⟩
      · rw [ddrByte_of_mem hmem, ddrByte_staged]
      · rw [hok h]
        rfl
  · have hpair : (regRow a.toNat).any (·.pair) = true := by simp [hr, hp]
    refine ⟨gives_of_eq (exec_lowHalfRead ..) (lowHalfRead_open hu ha hpair hc), fun hhigh n hn hnu hnc hns => ?_⟩
    rw [hostRead_bar0_shadow hnu (by omega) hns hhigh hnc (by rw [hn]), hn]
  · have hpair : (regRow a.toNat).any (·.pair) = true := by simp [hr, hp]
    exact gives_of_eq (exec_lowHalfRead ..) (lowHalfRead_closed hu ha hpair hc)
  · obtain ⟨hlow, hhigh⟩ := bar4Word_doorbell (m := s.m) q.isLt
    refine ⟨?_, ?_⟩
    · rw [hostRead_bar4_word hu (by omega) (by omega), hlow]
      rfl
    · rw [hostRead_bar4_word hu (by omega) (by omega), hhigh]
      rfl
  · rw [hostRead_bar4_word hu (by omega) (by omega), bar4Word_msix k.isLt]
  · exact ⟨hostRead_closed hu hs, hostRead_noArea hu ho hs hz ha, fun q k j hc hq hj hoff => hostRead_entry hu ho hs hz ha hc hq hj hoff⟩
  · exact gives_of_eq (exec_registerWrite ..) (registerWrite_ignored v h)
  · refine ⟨_, gives_of_eq (exec_registerWrite ..) (registerWrite_low v hu ha hr hlo hhi hw), fun i hi => ?_⟩
    rw [getLsbD_write r _ _ v _ i hi (masks_disjoint hr hlo hhi), getLsbD_setMask _ i hi]
  · refine ⟨fun h => gives_of_eq (exec_registerWrite ..) ?_, fun hv hp => ⟨_, exec_registerWrite .., registerWrite_unmask k v hu hv hp _ rfl⟩⟩
    rw [registerWrite_control k v hu, writeMsix_control, if_neg]
    · rfl
    · rintro ⟨hv, hp⟩
      rcases h with h | h
      · exact Bool.false_ne_true (hv.symm.trans h)
      · exact Bool.false_ne_true (h.symm.trans hp)

end Sys2Proof.Machine
end

section
/-! PROOFS. O57, the canonical form. One lemma per function of the model, `Mach.Canon.<function>`: from a module in the form the function leaves
a module in the form. A proof goes as its function does: a chain of calls is a chain of lemmas in the same order, an `if` is `Canon.ite`, a
`match` is a `split`, a fold is `Canon.foldl`, and an update of fields that are neither memories nor registers is `Canon.upd`. The sections
below take the model's files in order; here: what all of them use, the registers, reports, queues and records. -/
namespace Sys2Proof.Machine

-- One theorem after the other: checked all at once, so many short proofs ask for more threads than the memory limit lets start.
set_option Elab.async false

variable {m n : Mach}

/-! ### Shapes of an update -/

/-- An update that leaves the memories and the registers as they are. -/
theorem Mach.Canon.upd (h : m.Canon) (hm : n.mem = m.mem := by rfl) (hr : n.regs = m.regs := by rfl) : n.Canon :=
  Sys2Proof.Machine.Canon.of_eq h hm hr

theorem Mach.Canon.ite {p : Prop} [Decidable p] {a b : Mach} (ha : a.Canon) (hb : b.Canon) : (if p then a else b).Canon :=
  Sys2Proof.Machine.Canon.ite ha hb

theorem Mach.Canon.foldl {α : Type} {l : List α} {f : Mach → α → Mach} (h : m.Canon) (hf : ∀ n : Mach, n.Canon → ∀ x, (f n x).Canon) :
    (l.foldl f m).Canon :=
  Sys2Proof.Machine.Canon.foldl l f (fun n x h => hf n h x) h

/-- The module that a function answers beside a value. -/
theorem Mach.Canon.of_fst {α : Type} {p : Mach × α} {a : α} (h : p.1.Canon) (e : p = (n, a)) : n.Canon := by
  subst e
  exact h

theorem Mach.Canon.of_snd {α : Type} {p : α × Mach} {a : α} (h : p.2.Canon) (e : p = (a, n)) : n.Canon := by
  subst e
  exact h

/-- Puts over a list of keys keep the form. -/
theorem wf_puts {α β : Type} [DecidableEq α] {d : Nat → α} {key : β → Nat} {val : β → α} {l : List β} {c : List (Nat × α)}
    (h : FMap.Wf d c) : FMap.Wf d (l.foldl (fun c e => FMap.put d c (key e) (val e)) c) := by
  induction l generalizing c with
  | nil => exact h
  | cons e l ih => exact ih (FMap.wf_put h)

/-- Bundles put into program memory keep the form. -/
theorem Mach.Canon.putBundles {l : List (Nat × BitVec 128)} {k : Nat} (h : m.Canon) :
    ({ m with mem := { m.mem with pmem := l.foldl (fun p e => FMap.put (fun _ => 0) p (k + e.1) e.2) m.mem.pmem } } : Mach).Canon := by
  obtain ⟨⟨h1, h2, h3, h4, h5, h6, h7, h8, h9, h10, h11⟩, hr⟩ := h
  dsimp only [Mach.Canon, Mem.Wf]
  exact ⟨⟨h1, h2, h3, h4, h5, wf_puts h6, h7, h8, h9, h10, h11⟩, hr⟩

/-- What the patrol scrub corrects leaves the ECC states in the form (R136). -/
theorem Mach.Canon.scrubStack {p} (h : m.Canon) : ({ m with mem := { m.mem with eccStack := Machine.scrubbed m.mem.eccStack p } } : Mach).Canon := by
  obtain ⟨⟨h1, h2, h3, h4, h5, h6, h7, h8, h9, h10, h11⟩, hr⟩ := h
  dsimp only [Mach.Canon, Mem.Wf]
  exact ⟨⟨h1, h2, h3, h4, h5, h6, h7, FMap.wf_filter _ h8, h9, h10, h11⟩, hr⟩

theorem Mach.Canon.scrubDdr {p} (h : m.Canon) : ({ m with mem := { m.mem with eccDdr := Machine.scrubbed m.mem.eccDdr p } } : Mach).Canon := by
  obtain ⟨⟨h1, h2, h3, h4, h5, h6, h7, h8, h9, h10, h11⟩, hr⟩ := h
  dsimp only [Mach.Canon, Mem.Wf]
  exact ⟨⟨h1, h2, h3, h4, h5, h6, h7, h8, FMap.wf_filter _ h9, h10, h11⟩, hr⟩

/-- The stacks taken from another module in the form (R266). -/
theorem Mach.Canon.withStack (h : m.Canon) (hn : n.Canon) :
    ({ m with mem := { m.mem with stack := n.mem.stack, eccStack := n.mem.eccStack } } : Mach).Canon := by
  obtain ⟨⟨h1, -, h3, h4, h5, h6, h7, -, h9, h10, h11⟩, hr⟩ := h
  obtain ⟨⟨-, h2, -, -, -, -, -, h8, -, -, -⟩, -⟩ := hn
  dsimp only [Mach.Canon, Mem.Wf]
  exact ⟨⟨h1, h2, h3, h4, h5, h6, h7, h8, h9, h10, h11⟩, hr⟩

/-! ### Regs -/

theorem Mach.Canon.setReg {a v} (h : m.Canon) : (m.setReg a v).Canon := canon_setReg a v h
theorem Mach.Canon.setFld {a hi lo x} (h : m.Canon) : (m.setFld a hi lo x).Canon := h.setReg
theorem Mach.Canon.putBit {a i b} (h : m.Canon) : (m.putBit a i b).Canon := h.setFld.upd
theorem Mach.Canon.inc {a} (h : m.Canon) : (m.inc a).Canon := h.setReg
theorem Mach.Canon.incFld {a hi lo} (h : m.Canon) : (m.incFld a hi lo).Canon := h.setFld
theorem Mach.Canon.addReg {a n} (h : m.Canon) : (m.addReg a n).Canon := h.setReg
theorem Mach.Canon.setReg64 {lo v} (h : m.Canon) : (m.setReg64 lo v).Canon := h.setReg.setReg

theorem Mach.Canon.writeReg {a v} (h : m.Canon) : (m.writeReg a v).Canon := by
  unfold Mach.writeReg
  refine .ite h ?_
  split
  · exact h
  exact h.setReg

theorem Mach.Canon.fresh {w} (h : m.Canon) : (m.fresh w).2.Canon := h.upd
theorem Mach.Canon.draw (h : m.Canon) : m.draw.2.Canon := h.upd

/-! ### Flt -/

theorem Mach.Canon.signal {v} (h : m.Canon) : (m.signal v).Canon := .ite h.upd h.upd
theorem Mach.Canon.signalErr (h : m.Canon) : m.signalErr.Canon := .ite h.signal h
theorem Mach.Canon.triggerDump {cause requested} (h : m.Canon) : (m.triggerDump cause requested).Canon := .ite h.incFld h.upd.putBit
theorem Mach.Canon.countSev {sev} (h : m.Canon) : (m.countSev sev).Canon := .ite h.inc (.ite h.inc (.ite h.inc h))
theorem Mach.Canon.callResponses {e} (h : m.Canon) : (m.callResponses e).Canon := .ite h h.upd
theorem Mach.Canon.logEvent {e} (h : m.Canon) : (m.logEvent e).Canon := .ite h.upd.setReg.signalErr h.upd.setReg
theorem Mach.Canon.tryLog {e} (h : m.Canon) : (m.tryLog e).Canon := .ite h.inc (.ite h (.ite h.logEvent h.inc.putBit))
theorem Mach.Canon.fatal {e} (h : m.Canon) : (m.fatal e).Canon := .ite h.putBit.triggerDump.signalErr h
theorem Mach.Canon.report {e} (h : m.Canon) : (m.report e).Canon := h.countSev.callResponses.tryLog.fatal

theorem Mach.Canon.noteRun {block bit source} (h : m.Canon) : (m.noteRun block bit source).Canon := by
  unfold Mach.noteRun
  split
  · exact .ite h.upd h
  exact h

theorem Mach.Canon.raise {err en block bit source x} (h : m.Canon) : (m.raise err en block bit source x).Canon := by
  unfold Mach.raise
  extract_lets m1
  have h1 : m1.Canon := h.putBit.noteRun
  exact .ite h1.report h1

theorem Mach.Canon.dev {bit source x} (h : m.Canon) : (m.dev bit source x).Canon := h.noteRun.report
theorem Mach.Canon.raiseFab {t bit x} (h : m.Canon) : (m.raiseFab t bit x).Canon := .ite h.raise h
theorem Mach.Canon.raiseSlu {e bit x} (h : m.Canon) : (m.raiseSlu e bit x).Canon := h.raise
theorem Mach.Canon.raiseStem {d bit x} (h : m.Canon) : (m.raiseStem d bit x).Canon := h.raise
theorem Mach.Canon.raiseRoi {d bit x} (h : m.Canon) : (m.raiseRoi d bit x).Canon := h.raise
theorem Mach.Canon.raiseInt {d bit} (h : m.Canon) : (m.raiseInt d bit).Canon := h.raise
theorem Mach.Canon.raisePort {p bit} (h : m.Canon) : (m.raisePort p bit).Canon := h.raise
theorem Mach.Canon.raisePrep {bit x} (h : m.Canon) : (m.raisePrep bit x).Canon := h.raise
theorem Mach.Canon.raisePos {bit} (h : m.Canon) : (m.raisePos bit).Canon := h.raise
theorem Mach.Canon.raiseEnc {e bit} (h : m.Canon) : (m.raiseEnc e bit).Canon := h.raise.raisePos
theorem Mach.Canon.raiseFld {bit} (h : m.Canon) : (m.raiseFld bit).Canon := h.raise
theorem Mach.Canon.raiseLnk {bit source} (h : m.Canon) : (m.raiseLnk bit source).Canon := h.raise
theorem Mach.Canon.raiseHif {bit source} (h : m.Canon) : (m.raiseHif bit source).Canon := h.raise.signalErr
theorem Mach.Canon.raiseSec {bit} (h : m.Canon) : (m.raiseSec bit).Canon := h.raise
theorem Mach.Canon.raiseClk {bit source} (h : m.Canon) : (m.raiseClk bit source).Canon := h.raise

/-! ### Ops -/

theorem Mach.Canon.setTile {t x} (h : m.Canon) : (m.setTile t x).Canon := h.upd
theorem Mach.Canon.setWin {t w x} (h : m.Canon) : (m.setWin t w x).Canon := h.upd
theorem Mach.Canon.setLatch {l x} (h : m.Canon) : (m.setLatch l x).Canon := h.upd
theorem Mach.Canon.setEngine {e x} (h : m.Canon) : (m.setEngine e x).Canon := h.upd
theorem Mach.Canon.setStem {p x} (h : m.Canon) : (m.setStem p x).Canon := h.upd
theorem Mach.Canon.setRoi {d x} (h : m.Canon) : (m.setRoi d x).Canon := h.upd
theorem Mach.Canon.setPort {p x} (h : m.Canon) : (m.setPort p x).Canon := h.upd
theorem Mach.Canon.setCoder {d x} (h : m.Canon) : (m.setCoder d x).Canon := h.upd
theorem Mach.Canon.setLane {k x} (h : m.Canon) : (m.setLane k x).Canon := h.upd
theorem Mach.Canon.setLink {k x} (h : m.Canon) : (m.setLink k x).Canon := h.upd
theorem Mach.Canon.setQueue {q x} (h : m.Canon) : (m.setQueue q x).Canon := h.upd
theorem Mach.Canon.setBucket {b x} (h : m.Canon) : (m.setBucket b x).Canon := h.upd
theorem Mach.Canon.setGran {st g v} (h : m.Canon) : (m.setGran st g v).Canon := canon_setGran st g v h
theorem Mach.Canon.setDdrBytes {a bs} (h : m.Canon) : (m.setDdrBytes a bs).Canon := canon_setDdrBytes a bs h
theorem Mach.Canon.setTag {t k b} (h : m.Canon) : (m.setTag t k b).Canon := canon_setTag t k b h
theorem Mach.Canon.setSkew {t k x} (h : m.Canon) : (m.setSkew t k x).Canon := canon_setSkew t k x h
theorem Mach.Canon.qNotify {q} (h : m.Canon) : (m.qNotify q).Canon := .ite h.setQueue.signal h.setQueue

theorem Mach.Canon.qLose {q full} (h : m.Canon) : (m.qLose q full).Canon := by
  unfold Mach.qLose
  extract_lets _ m1 m2
  have h1 : m1.Canon := h.inc.setQueue
  have h2 : m2.Canon := .ite h1.inc.putBit h1
  exact h2.raiseHif

theorem Mach.Canon.qStore {q entry} (h : m.Canon) : (m.qStore q entry).Canon := .ite h.qLose (.ite h.qLose.qNotify h.setQueue.qNotify)

theorem Mach.Canon.qPush {q entry} (h : m.Canon) : (m.qPush q entry).Canon := by
  unfold Mach.qPush
  split
  · exact h.qStore
  · exact h.upd.raiseHif.qStore
  exact h.upd.raiseHif.inc.qLose

theorem Mach.Canon.qReply {q entry} (h : m.Canon) : (m.qReply q entry).Canon := h.qPush
theorem Mach.Canon.qTake {q} (h : m.Canon) : (m.qTake q).Canon := h.upd

theorem Mach.Canon.ddrRead {a requester} (h : m.Canon) : (m.ddrRead a requester).Canon := by
  unfold Mach.ddrRead
  extract_lets _ _ m1
  have h1 : m1.Canon := .ite h h.addReg.dev
  exact .ite h1.putBit.dev h1

theorem Mach.Canon.readHost {off n} (h : m.Canon) : (m.readHost off n).Canon := .ite h (h.foldl (fun _ h _ => h.ddrRead))
theorem Mach.Canon.setHostBytes {off bs} (h : m.Canon) : (m.setHostBytes off bs).Canon := h.setDdrBytes
theorem Mach.Canon.setEnc {b e} (h : m.Canon) : (m.setEnc b e).Canon := .ite h.upd h.upd

/-! ### Records -/

theorem Mach.Canon.ringPut {lo ent} (h : m.Canon) : (m.ringPut lo ent).1.Canon := by
  unfold Mach.ringPut
  extract_lets +onlyGivenNames _ _ _ _
  split
  · exact h
  extract_lets +onlyGivenNames _ _ _ _
  split
  · exact h.inc
  extract_lets +onlyGivenNames m1
  have h1 : m1.Canon := .ite h h.setDdrBytes
  exact h1.setDdrBytes.setReg

theorem Mach.Canon.writeTallyRing {idx flags} (h : m.Canon) : (m.writeTallyRing idx flags).Canon := h.foldl (fun _ h _ => h.ringPut)

theorem Mach.Canon.commitRecord {p b r} (h : m.Canon) : (m.commitRecord p b r).Canon := by
  unfold Mach.commitRecord
  extract_lets +onlyGivenNames _ _ _ _ _ _ m1 m2
  have h1 : m1.Canon := h.setQueue.qPush.inc
  have h2 : m2.Canon := .ite h1.writeTallyRing h1
  exact h2.upd

theorem Mach.Canon.flushAll {r} (h : m.Canon) : (m.flushAll r).Canon := h.foldl (fun _ h _ => h.commitRecord)

theorem Mach.Canon.lotClose (h : m.Canon) : m.lotClose.Canon := by
  unfold Mach.lotClose
  split
  · exact h
  exact .ite h.upd h

end Sys2Proof.Machine
end

section
/-! PROOFS. O57: effects that land in a tile, tags, and the operations of a bundle. -/
namespace Sys2Proof.Machine

-- One theorem after the other: checked all at once, so many short proofs ask for more threads than the memory limit lets start.
set_option Elab.async false

variable {m n : Mach}

/-! ### Land -/

theorem Mach.Canon.stopAt {t step} (h : m.Canon) : (m.stopAt t step).Canon := .ite h.upd h
theorem Mach.Canon.push {t prio lat e} (h : m.Canon) : (m.push t prio lat e).Canon := h.upd
theorem Mach.Canon.pushPtr {t prio e} (h : m.Canon) : (m.pushPtr t prio e).Canon := .ite h.upd.push h.push
theorem Mach.Canon.tallyUnit {t st v smp j on late} (h : m.Canon) : (m.tallyUnit t st v smp j on late).Canon := .ite h (.ite h.inc h.upd)
theorem Mach.Canon.addSkew {t s delta} (h : m.Canon) : (m.addSkew t s delta).Canon := .ite h.setSkew.dev (.ite h.setSkew.dev h.setSkew)

theorem Mach.Canon.moved {t c v x} (h : m.Canon) : (m.moved t c v x).Canon := by
  unfold Mach.moved
  split
  · exact .ite h (.ite h.upd h.upd)
  · split
    · exact h
    exact .ite h.upd h.upd
  · exact h.upd
  · exact h.upd
  exact h.upd

theorem Mach.Canon.mixInto {t k mask v} (h : m.Canon) : (m.mixInto t k mask v).Canon := by
  unfold Mach.mixInto
  obtain ⟨⟨h1, h2, h3, h4, h5, h6, h7, h8, h9, h10, h11⟩, hr⟩ := h
  dsimp only [Mach.Canon, Mem.Wf]
  exact ⟨⟨wf_writeBytes _ _ h1, h2, h3, h4, h5, h6, FMap.wf_clear h7, h8, h9, h10, FMap.wf_put h11⟩, hr⟩

theorem Mach.Canon.spadEcc {t s ue smp} (h : m.Canon) : (m.spadEcc t s ue smp).Canon := .ite h.setTile.raiseFab h.raiseFab

/-- A completion record marked as uncorrectable keeps the form (R126). -/
theorem Mach.Canon.markRecord {k} (h : m.Canon) :
    ({ m with mem := { m.mem with crecUe := FMap.put (fun _ => false) m.mem.crecUe k true } } : Mach).Canon := by
  obtain ⟨⟨h1, h2, h3, h4, h5, h6, h7, h8, h9, h10, h11⟩, hr⟩ := h
  dsimp only [Mach.Canon, Mem.Wf]
  exact ⟨⟨h1, h2, h3, h4, h5, h6, h7, h8, h9, h10, FMap.wf_put h11⟩, hr⟩

theorem Mach.Canon.applyFx {f} (h : m.Canon) : (m.applyFx f).Canon := by
  unfold Mach.applyFx
  split
  any_goals exact h.setTile
  · exact .ite h h.mixInto
  · exact h.setTag
  · exact h.addSkew
  · exact h.setSkew
  · exact h.setTile.stopAt
  · exact h.moved
  · exact h.upd
  · exact h.upd
  · exact h.upd
  · exact h.spadEcc
  · exact h.markRecord
  exact h.tallyUnit

theorem Mach.Canon.landAll (h : m.Canon) : m.landAll.Canon := h.upd.foldl (fun _ h _ => h.applyFx)

/-! ### Tags -/

theorem Mach.Canon.readSlot {t s tm prio} (h : m.Canon) : (m.readSlot t s tm prio).Canon := by
  unfold Mach.readSlot
  extract_lets _ _ _ m1 m2 _ m3 m4
  have h2 : m2.Canon := by
    unfold m2
    refine .ite h ?_
    have h1 : m1.Canon := .ite h.push h
    exact .ite h1 (.ite h1.pushPtr h1.push)
  have h3 : m3.Canon := .ite h2.push h2
  have h4 : m4.Canon := .ite h3.push h3
  exact .ite h4.push h4

theorem Mach.Canon.incA {t prio n inc} (h : m.Canon) : (m.incA t prio n inc).Canon := .ite h.pushPtr h

theorem Mach.Canon.storeSlot {t s tm prio on mask v} (h : m.Canon) : (m.storeSlot t s tm prio on mask v).Canon :=
  .ite h.push (.ite h.push.push h.push)

/-! ### Mov -/

theorem Mach.Canon.movRead {t s k} (h : m.Canon) : (m.movRead t s k).Canon := .ite h.push.push h.moved
theorem Mach.Canon.issueLdv {t p f} (h : m.Canon) : (m.issueLdv t p f).Canon := h.movRead.readSlot.incA

theorem Mach.Canon.issueCpy {t p f} (h : m.Canon) : (m.issueCpy t p f).Canon := by
  unfold Mach.issueCpy
  extract_lets _ _ _ _ _ m1
  have h1 : m1.Canon := .ite h.movRead.push h.movRead
  exact h1.readSlot.incA

theorem Mach.Canon.putSlot {t f} (h : m.Canon) : (m.putSlot t f).2.Canon := by
  unfold Mach.putSlot
  extract_lets _
  split
  · exact h
  exact h.fresh

theorem Mach.Canon.strided {w cur stride} (h : m.Canon) : (m.strided w cur stride).2.Canon := by
  unfold Mach.strided
  extract_lets _
  split
  · exact h
  exact h.fresh

theorem Mach.Canon.issuePut {t p f} (h : m.Canon) : (m.issuePut t p f).Canon := by
  unfold Mach.issuePut
  extract_lets _ _ _
  split
  rename_i e
  have h1 := h.putSlot.of_snd e
  extract_lets _ m1
  have h1 : m1.Canon := .ite h1.movRead.strided.pushPtr h1.movRead
  exact h1.readSlot.incA

theorem Mach.Canon.incG {t k inc} (h : m.Canon) : (m.incG t k inc).Canon := .ite h.strided.pushPtr h

theorem Mach.Canon.issueGld {t p f} (h : m.Canon) : (m.issueGld t p f).Canon := by
  unfold Mach.issueGld
  extract_lets _ _ _ m1
  have h1 : m1.Canon := .ite h.push h.push
  exact h1.incG.incA

theorem Mach.Canon.issueGst {t p f} (h : m.Canon) : (m.issueGst t p f).Canon := h.movRead.incG.readSlot.incA
theorem Mach.Canon.issueSeta {t p n imm} (h : m.Canon) : (m.issueSeta t p n imm).Canon := .ite h h.pushPtr

theorem Mach.Canon.issueTags {t p n inc tag off} (h : m.Canon) : (m.issueTags t p n inc tag off).Canon := by
  unfold Mach.issueTags
  extract_lets _ _ m1
  have h1 : m1.Canon := .ite h h.pushPtr.push
  exact h1.incA

theorem Mach.Canon.issueVout {t n tm inc} (h : m.Canon) : (m.issueVout t n tm inc).Canon := h.movRead.readSlot.incA

/-! ### Ctl -/

theorem Mach.Canon.nextPc {t} (h : m.Canon) : (m.nextPc t).Canon := h.push
theorem Mach.Canon.issueEndl {t level} (h : m.Canon) : (m.issueEndl t level).Canon := .ite h.push.push h.push.nextPc

theorem Mach.Canon.issueArst {t kind index} (h : m.Canon) : (m.issueArst t kind index).Canon := by
  unfold Mach.issueArst
  refine .nextPc ?_
  split
  iterate 4 exact h.pushPtr
  · exact h.pushPtr.pushPtr
  · extract_lets m1 m2
    have h1 : m1.Canon := h.foldl fun _ h _ => h.pushPtr
    have h2 : m2.Canon := h1.foldl fun _ h _ => h.pushPtr.pushPtr
    exact h2.pushPtr.pushPtr.pushPtr
  exact h

theorem Mach.Canon.issueTaly {t st} (h : m.Canon) : (m.issueTaly t st).Canon := by
  unfold Mach.issueTaly
  extract_lets _ _ _ _ unit m1
  have h1 : m1.Canon := by
    unfold m1
    split
    next e =>
      obtain ⟨i, -, hi⟩ := List.exists_of_findSome?_eq_some e
      split at hi
      all_goals cases hi
      all_goals exact h.push.push
    · exact h
  exact h1.nextPc

/-! ### Mac -/

theorem Mach.Canon.macRead {t n tm inc} (h : m.Canon) : (m.macRead t n tm inc).Canon := h.readSlot.incA

theorem Mach.Canon.issueMm {t p f} (h : m.Canon) : (m.issueMm t p f).Canon := by
  unfold Mach.issueMm
  extract_lets _ _ _ _ _ _ _ m1 _ m2
  have h1 : m1.Canon := .ite h.macRead.push h.macRead
  have h2 : m2.Canon := .ite h1.push.pushPtr h1.push
  exact .ite h2 h2.push

theorem Mach.Canon.issueWld {t p f} (h : m.Canon) : (m.issueWld t p f).Canon := by
  unfold Mach.issueWld
  extract_lets +onlyGivenNames _ _ _ _ _ _ m1
  have h1 : m1.Canon := .ite h.macRead (.ite h.macRead.push.push h.macRead.push)
  exact .ite h1.pushPtr h1

theorem Mach.Canon.issueXld {t p f} (h : m.Canon) : (m.issueXld t p f).Canon := .ite h.macRead h.macRead.push
theorem Mach.Canon.issueAclr {t p row cnt} (h : m.Canon) : (m.issueAclr t p row cnt).Canon := .ite h (h.foldl (fun _ h _ => h.push))

/-! ### Sync -/

theorem Mach.Canon.registerWait {t n imm} (h : m.Canon) : (m.registerWait t n imm).Canon := .ite h h.upd
theorem Mach.Canon.clearDraws {t} (h : m.Canon) : (m.clearDraws t).Canon := .ite h.upd.push h.push
theorem Mach.Canon.issueNext {t n} (h : m.Canon) : (m.issueNext t n).Canon := h.readSlot.incA.push.push.clearDraws
theorem Mach.Canon.changeWindow {t w opens} (h : m.Canon) : (m.changeWindow t w opens).Canon := .ite h.upd h.setWin

/-! ### Vec -/

theorem Mach.Canon.vecResult {t p f lat row} (h : m.Canon) : (m.vecResult t p f lat row).Canon := .ite h h.push
theorem Mach.Canon.issueRdac {t p f} (h : m.Canon) : (m.issueRdac t p f).Canon := .ite h.vecResult.push h.vecResult
theorem Mach.Canon.issueWrac {t p f} (h : m.Canon) : (m.issueWrac t p f).Canon := .ite h h.push

/-! ### Issue -/

theorem Mach.Canon.issueOp {t x} (h : m.Canon) : (m.issueOp t x).Canon := by
  unfold Mach.issueOp
  split
  · exact .ite h.nextPc h
  · exact h.issueMm
  · exact h.issueWld
  · exact h.issueXld
  · exact h.issueAclr
  iterate 30 exact h.vecResult
  · exact h.issueRdac
  · exact h.issueWrac
  · exact h.vecResult
  · exact h.issueLdv
  · exact h.storeSlot.incA
  · exact h.issueCpy
  · exact h.issuePut
  · exact h.issueGld
  · exact h.issueGst
  · exact h.issueSeta
  · exact h.issueTags
  · exact h.issueVout
  · exact h.upd
  · exact h.upd
  · exact h.issueNext
  · exact h.storeSlot.incA
  · exact h.changeWindow
  · exact h.changeWindow
  · exact h.upd
  · exact h.issueEndl
  · exact h.upd
  · exact h.issueArst
  · exact h.issueTaly
  · exact h.upd
  exact h

theorem Mach.Canon.issueAll {t} (h : m.Canon) : (m.issueAll t).Canon := .setTile (h.foldl (fun _ h _ => h.issueOp))
theorem Mach.Canon.represent {t} (h : m.Canon) : (m.represent t).Canon := .ite h.issueAll h.setTile

theorem Mach.Canon.offer {t i} (h : m.Canon) : (m.offer t i).Canon := by
  unfold Mach.offer
  extract_lets +onlyGivenNames m1
  have h1 : m1.Canon := by
    unfold m1
    split
    · exact h.registerWait
    exact h
  exact .ite h1.setTile (.ite h1.upd.setTile h1.issueOp.setTile)

theorem Mach.Canon.endBundle {t} (h : m.Canon) : (m.endBundle t).Canon := .ite h.setTile h.setTile

theorem Mach.Canon.fetch {t} (h : m.Canon) : (m.fetch t).Canon := by
  unfold Mach.fetch
  refine .ite h.setTile.raiseFab ?_
  extract_lets +onlyGivenNames m1
  have h1 : m1.Canon := .ite h.raiseFab h
  exact .endBundle (h1.foldl (fun _ h _ => h.offer))

theorem Mach.Canon.sequence {t} (h : m.Canon) : (m.sequence t).Canon := .ite h (.ite h.fetch h.offer.endBundle)
theorem Mach.Canon.slip {t} (h : m.Canon) : (m.slip t).Canon := .ite h.setTile.raiseFab.represent h
theorem Mach.Canon.tb0Edge {n} (h : m.Canon) : (m.tb0Edge n).Canon := .ite h.upd h

theorem Mach.Canon.sequenceAll (h : m.Canon) : m.sequenceAll.Canon := by
  unfold Mach.sequenceAll
  extract_lets m1
  have h1 : m1.Canon := h.foldl (fun _ h _ => h.slip)
  exact h1.foldl (fun _ h _ => h.sequence)

theorem Mach.Canon.again {t} (h : m.Canon) : (m.again t).Canon := .ite h.represent h

theorem Mach.Canon.tick (h : m.Canon) : m.tick.Canon := by
  unfold Mach.tick
  refine .ite h ?_
  extract_lets +onlyGivenNames _ _ m1
  have h1 : m1.Canon := h.sequenceAll.upd.foldl (fun _ h _ => h.setTile)
  exact h1.upd.tb0Edge.landAll.foldl (fun _ h _ => h.again)

theorem Mach.Canon.ticks {n} (h : m.Canon) : (m.ticks n).Canon := by
  induction n generalizing m with
  | zero => exact h
  | succ n ih => exact ih h.tick

theorem Mach.Canon.advanceTo {c} (h : m.Canon) : (m.advanceTo c).Canon := h.ticks

end Sys2Proof.Machine
end

section
/-! PROOFS. O57: writes into windows, the channels of the stacks, latches and waits. -/
namespace Sys2Proof.Machine

-- One theorem after the other: checked all at once, so many short proofs ask for more threads than the memory limit lets start.
set_option Elab.async false

variable {m n : Mach}

/-! ### Windows -/

theorem Mach.Canon.logDrop {writer target reason} (h : m.Canon) : (m.logDrop writer target reason).Canon :=
  .ite h.incFld h.incFld.setReg.setReg.setReg.putBit

theorem Mach.Canon.reportWriter {writer} (h : m.Canon) : (m.reportWriter writer).Canon := by
  unfold Mach.reportWriter
  extract_lets _
  split
  · exact h.raiseFab
  · exact h.raiseSlu
  · exact .ite h.raiseStem (.ite h.raisePrep (.ite h.raiseRoi h))
  exact h

theorem Mach.Canon.pairDrop {ovr x} (h : m.Canon) : (m.pairDrop ovr x).Canon := by
  unfold Mach.pairDrop
  split
  · exact .ite h.push h
  exact h

theorem Mach.Canon.modRun {e index pass f} (h : m.Canon) : (m.modRun e index pass f).Canon := h.setEngine

theorem Mach.Canon.settleOwner {o dropped} (h : m.Canon) : (m.settleOwner o dropped).Canon := by
  unfold Mach.settleOwner
  split
  · exact h.modRun
  · exact h.setStem
  · exact h.setRoi
  · exact h.upd
  · exact h.setBucket
  exact h

theorem Mach.Canon.dropWrite {f d} (h : m.Canon) : (m.dropWrite f d).Canon := by
  unfold Mach.dropWrite
  extract_lets m1 m2 m3
  have h1 : m1.Canon := h.reportWriter.logDrop
  have h2 : m2.Canon := by
    unfold m2
    split
    · exact h1.raiseFab
    exact h1
  have h3 : m3.Canon := by
    unfold m3
    split
    · exact h2.upd
    exact h2
  exact h3.pairDrop.settleOwner

theorem Mach.Canon.arrive {f} (h : m.Canon) : (m.arrive f).1.Canon := by
  unfold Mach.arrive
  extract_lets +onlyGivenNames _ _
  split
  · exact h.dropWrite
  split
  · exact h
  extract_lets _
  split <;> exact h.settleOwner.upd

theorem Mach.Canon.arriveFlight {i} (h : m.Canon) : (m.arriveFlight i).Canon := by
  unfold Mach.arriveFlight
  split
  · exact h
  refine .ite h ?_
  extract_lets _
  split
  rename_i e
  have h1 := h.advanceTo.arrive.of_fst e
  extract_lets _
  split <;> exact h1.upd

theorem Mach.Canon.awaitPort {t bank n} (h : m.Canon) : (m.awaitPort t bank n).Canon := by
  induction n generalizing m with
  | zero => exact h
  | succ n ih => exact .ite (ih h.tick) h

theorem Mach.Canon.drainEntry {e} (h : m.Canon) : (m.drainEntry e).Canon := by
  unfold Mach.drainEntry
  refine .ite h.push.push ?_
  extract_lets +onlyGivenNames _ m1 m2
  have h1 : m1.Canon := .ite h.push.push h.push
  have h2 : m2.Canon := .ite h1 h1.pushPtr
  exact .ite h2.setTile h2

theorem Mach.Canon.inboundDrain {t bank} (h : m.Canon) : (inboundDrain t bank m).Canon := by
  unfold Machine.inboundDrain
  refine .ite h.awaitPort ?_
  extract_lets i
  clear_value i
  split
  · exact h.awaitPort
  split
  · exact h.awaitPort
  exact h.awaitPort.upd.drainEntry

theorem Mach.Canon.gldReply {i} (h : m.Canon) : (gldReply i m).Canon := by
  unfold Machine.gldReply
  split
  · exact h
  exact .ite h.advanceTo h.advanceTo.upd

theorem Mach.Canon.stackRead {st g requester sample} (h : m.Canon) : (m.stackRead st g requester sample).Canon := by
  unfold Mach.stackRead
  extract_lets _ m1
  have h1 : m1.Canon := .ite h h.addReg.dev
  exact .ite h1.dev h1

theorem Mach.Canon.sluiceGot {e index pass k st g} (h : m.Canon) : (m.sluiceGot e index pass k st g).Canon := by
  unfold Mach.sluiceGot
  extract_lets +onlyGivenNames _ _
  split
  · exact h
  extract_lets _ _ m1
  have h1 : m1.Canon := .ite h.modRun.raiseSlu (.ite h.modRun.raiseSlu h.modRun)
  exact .ite h1.upd h1.setDdrBytes.modRun

theorem Mach.Canon.awaitChannel {st ch n} (h : m.Canon) : (m.awaitChannel st ch n).Canon := by
  induction n generalizing m with
  | zero => exact h
  | succ n ih => exact .ite (ih h.tick) h

theorem Mach.Canon.stackWindowUpdate {i} (h : m.Canon) : (stackWindowUpdate i m).Canon := by
  unfold Machine.stackWindowUpdate
  split
  · exact h
  exact h.advanceTo.upd.setWin

/-! ### Latch -/

theorem Mach.Canon.lowCheck (h : m.Canon) : m.lowCheck.Canon := by
  unfold Mach.lowCheck
  split
  · exact h
  exact h.foldl (fun _ h _ => .ite (.ite h.setBucket.putBit.raisePrep h) (.putBit (.ite h h.setBucket)))

theorem Mach.Canon.latchSignal {sg} (h : m.Canon) : (m.latchSignal sg).Canon := by
  unfold Mach.latchSignal
  extract_lets +onlyGivenNames _
  split
  · exact .ite h.setLatch.raiseFab h.setLatch
  · exact h.dev
  exact h.dev

theorem Mach.Canon.latchSignalArrival {i} (h : m.Canon) : (latchSignalArrival i m).Canon := by
  unfold Machine.latchSignalArrival
  split
  · exact h
  exact h.advanceTo.upd.latchSignal.lowCheck

theorem Mach.Canon.grant {l ws} (h : m.Canon) : (m.grant l ws).Canon := by
  induction ws generalizing m with
  | nil => exact h
  | cons w ws ih => exact .ite (ih h.upd) h

theorem Mach.Canon.signalsDue {l} (h : m.Canon) : (m.signalsDue l).Canon := .ite h (.lowCheck (h.upd.foldl (fun _ h _ => h.latchSignal)))

theorem Mach.Canon.latchWaitGrant {l} (h : m.Canon) : (latchWaitGrant l m).Canon := by
  unfold Machine.latchWaitGrant
  split
  · exact h
  exact h.advanceTo.signalsDue.grant

theorem Mach.Canon.gateRevoked {x} (h : m.Canon) : (m.gateRevoked x).Canon := by
  unfold Mach.gateRevoked
  split
  · exact h.raiseSlu
  · exact h.raiseRoi
  exact h

theorem Mach.Canon.gate {who l amount} (h : m.Canon) : (m.gate who l amount).1.Canon := by
  unfold Mach.gate
  split
  · exact h.upd
  split
  · exact h.upd
  exact h

/-- A gate that is asked for only where a descriptor has one. -/
theorem Mach.Canon.gated {p : Prop} [Decidable p] {who l amount} (h : m.Canon) :
    (if p then m.gate who l amount else (m, true)).1.Canon := by
  split
  · exact h.gate
  exact h

theorem Mach.Canon.sendSignal {l amount src} (h : m.Canon) : (m.sendSignal l amount src).Canon := h.upd

end Sys2Proof.Machine
end

section
/-! PROOFS. O57: the host interface and the mailbox of the root of trust. -/
namespace Sys2Proof.Machine

-- One theorem after the other: checked all at once, so many short proofs ask for more threads than the memory limit lets start.
set_option Elab.async false

variable {m n : Mach}

/-! ### Hif -/

theorem Mach.Canon.logAccess {bar off size write} (h : m.Canon) : (m.logAccess bar off size write).Canon := .ite h h.setReg.setReg.setReg.putBit
theorem Mach.Canon.accessError {bit bar off size write} (h : m.Canon) : (m.accessError bit bar off size write).Canon := h.logAccess.raiseHif

theorem Mach.Canon.badAccess {b off size write} (h : m.Canon) : (m.badAccess b off size write).Canon := by
  unfold Mach.badAccess
  refine .ite h ?_
  extract_lets m1
  have h1 : m1.Canon := h.accessError
  exact .ite h1.raiseHif h1

theorem Mach.Canon.recordAreaWrite {off size} (h : m.Canon) : (recordAreaWrite off size m).Canon := .ite h.badAccess h

/-- A staging write stores in the form (R377). -/
theorem Mach.Canon.staged {reach a bs p} (h : m.Canon) :
    ({ m with mem := { m.mem with ddr := stgWrite reach m.mem.ddr a bs, eccDdr := FMap.clear m.mem.eccDdr p } } : Mach).Canon := by
  obtain ⟨⟨h1, h2, h3, h4, h5, h6, h7, h8, h9, h10, h11⟩, hr⟩ := h
  dsimp only [Mach.Canon, Mem.Wf]
  exact ⟨⟨h1, h2, wf_stgWrite _ _ _ _ h3, h4, h5, h6, h7, h8, FMap.wf_clear h9, h10, h11⟩, hr⟩

theorem Mach.Canon.stagingWrite {off size data} (h : m.Canon) : (m.stagingWrite off size data).Canon := .ite h.staged h.staged.accessError

theorem Mach.Canon.doorbellWrite {q v} (h : m.Canon) : (doorbellWrite q v m).Canon :=
  .ite h (.ite h.putBit.raiseHif (.ite (.ite h.setQueue h.putBit.raiseHif) (.ite h.setQueue h.putBit.raiseHif)))

theorem Mach.Canon.enableQueue {q} (h : m.Canon) : (m.enableQueue q).Canon := by
  unfold Mach.enableQueue
  extract_lets +onlyGivenNames m1
  have h1 : m1.Canon := h.putBit.setQueue.setReg
  exact .ite (.ite h1.upd h1.upd.setEngine) h1

theorem Mach.Canon.disableQueue {q} (h : m.Canon) : (m.disableQueue q).Canon := by
  unfold Mach.disableQueue
  extract_lets +onlyGivenNames _ _ m1
  have h1 : m1.Canon := h.putBit.setQueue
  exact .ite h1.setEngine h1

theorem Mach.Canon.qCfgWrite {q v} (h : m.Canon) : (qCfgWrite q v m).Canon := by
  unfold Machine.qCfgWrite
  refine .ite h ?_
  extract_lets +onlyGivenNames _ _ m1
  have h1 : m1.Canon := h.setFld.putBit
  refine .ite ?_ (.ite h1.setFld (.ite h1.setFld.enableQueue h1.setFld.raiseHif))
  extract_lets m2
  have h2 : m2.Canon := .ite h1 h1.raiseHif
  exact .ite h2 (.ite h2.raiseHif h2.disableQueue)

theorem Mach.Canon.irqTimer {q} (h : m.Canon) : (irqTimer q m).Canon := .ite h.setQueue.signal h
theorem Mach.Canon.queueFetchFail {q} (h : m.Canon) : (queueFetchFail q m).Canon := .ite h.disableQueue.putBit.raiseHif h
theorem Mach.Canon.cmdDone {q op status tag idx res} (h : m.Canon) : (m.cmdDone q op status tag idx res).Canon := h.qReply

theorem Mach.Canon.cmdTake {q ent op k} (h : m.Canon) (hk : ∀ x1 x2 (n : Mach), n.Canon → (k x1 x2 n).Canon) : (m.cmdTake q ent op k).Canon :=
  .ite h (.ite (hk _ _ _ h.qTake) (.ite h h.qTake.cmdDone))

theorem Mach.Canon.lotStart {q ent} (h : m.Canon) : (lotStart q ent m).Canon :=
  h.cmdTake (fun _ _ _ h => .ite h.cmdDone (.ite h.cmdDone (.ite h.cmdDone h.upd.cmdDone)))

theorem Mach.Canon.lotEnd {q ent} (h : m.Canon) : (lotEnd q ent m).Canon :=
  h.cmdTake (fun _ _ _ h => .ite h.cmdDone (.ite h.cmdDone (.ite h.cmdDone h.upd.lotClose)))

theorem Mach.Canon.lotEndDone (h : m.Canon) : (lotEndDone m).Canon := by
  unfold Machine.lotEndDone
  split
  · exact h
  refine .ite ?_ h
  extract_lets _ _ _
  split
  · exact h.upd.cmdDone
  exact h.upd

theorem Mach.Canon.fenceCmd {q ent} (h : m.Canon) : (fenceCmd q ent m).Canon := h.cmdTake (fun _ _ _ h => h.cmdDone)

/-! ### Sec -/

theorem Mach.Canon.extendM {i d} (h : m.Canon) : (m.extendM i d).Canon := h.upd
theorem Mach.Canon.zeroM {i} (h : m.Canon) : (m.zeroM i).Canon := h.upd
theorem Mach.Canon.extendM3 (h : m.Canon) : m.extendM3.Canon := h.extendM
theorem Mach.Canon.setCtx {c x} (h : m.Canon) : (m.setCtx c x).Canon := h.upd

theorem Mach.Canon.bootControllers {cs} (h : m.Canon) : (m.bootControllers cs).Canon := by
  unfold Mach.bootControllers
  extract_lets +onlyGivenNames m1
  have h1 : m1.Canon := h.foldl (fun _ h _ => .ite h.extendM h.raiseSec)
  exact h1.upd

theorem Mach.Canon.bootWith {f} (h : m.Canon) : (m.bootWith f).Canon := by
  unfold Mach.bootWith
  extract_lets +onlyGivenNames _ _ _ _ _ m1 _ _
  have h1 : m1.Canon := .ite h.upd h.upd.extendM.raiseSec
  split
  rename_i e
  have h1 := h1.bootControllers.extendM3.draw.of_snd e
  split
  rename_i e
  have h2 := h1.draw.of_snd e
  extract_lets +onlyGivenNames _ _ _ _
  split
  · exact h2.upd
  exact h2.upd.putBit.raiseSec.report

theorem Mach.Canon.rotBoot {puf} (h : m.Canon) : (rotBoot puf m).Canon := by
  unfold Machine.rotBoot
  refine .ite h ?_
  extract_lets +onlyGivenNames _ m1
  have h1 : m1.Canon := .ite h.upd h.raiseSec
  exact .ite h1.bootWith (.ite h1.raiseSec.bootWith h1.raiseSec.upd)

theorem Mach.Canon.mbxOut {out} (h : m.Canon) : (m.mbxOut out).Canon := h.foldl (fun _ h _ => h.setReg)

theorem Mach.Canon.mbxResult {host st out} (h : m.Canon) : (m.mbxResult host st out).Canon := by
  unfold Mach.mbxResult
  refine .ite ?_ h.upd
  extract_lets _ m1
  have h1 : m1.Canon := h.mbxOut.setReg.putBit
  exact .ite h1.signal h1

theorem Mach.Canon.mbx {via op dexzon used alive k} (h : m.Canon)
    (hk : ∀ x1 x2 (n : Mach), n.Canon → (k x1 x2 n).Canon) : (m.mbx via op dexzon used alive k).Canon := by
  unfold Mach.mbx
  split
  · exact .ite h (.ite h.setReg (.ite (hk _ _ _ h.setReg) h.setReg.mbxResult))
  exact .ite h (.ite (hk _ _ _ h) h.mbxResult)

theorem Mach.Canon.mbxGetId {via} (h : m.Canon) : (mbxGetId via m).Canon := by
  unfold Machine.mbxGetId
  refine h.mbx fun _ _ _ h => ?_
  split <;> exact h.mbxResult

theorem Mach.Canon.mbxGetCerts {via} (h : m.Canon) : (mbxGetCerts via m).Canon := by
  unfold Machine.mbxGetCerts
  refine h.mbx fun _ _ _ h => ?_
  split
  · exact h.mbxResult
  exact .ite h.mbxResult h.setHostBytes.mbxResult

theorem Mach.Canon.sign {d bs} (h : m.Canon) : (m.sign d bs).2.Canon := h.upd

theorem Mach.Canon.mbxQuote {via} (h : m.Canon) : (mbxQuote via m).Canon := by
  unfold Machine.mbxQuote
  refine h.mbx fun _ _ _ h => ?_
  extract_lets _ _ _
  split
  · exact h.mbxResult
  refine .ite h.mbxResult <| .ite h.mbxResult ?_
  split
  rename_i e
  have h1 := h.draw.of_snd e
  extract_lets _ _
  split
  rename_i e
  have h2 := h1.sign.of_snd e
  extract_lets _ _ _ m1
  have h1 : m1.Canon := .ite h2.upd h2
  exact h1.mbxResult

theorem Mach.Canon.dropPair {ctx kind} (h : m.Canon) : (m.dropPair ctx kind).Canon := h.upd

theorem Mach.Canon.mbxHostRegion {via} (h : m.Canon) : (mbxHostRegion via m).Canon :=
  h.mbx (fun _ _ _ h => .ite h.mbxResult (.ite h.mbxResult h.upd.mbxResult))

theorem Mach.Canon.dropDdr {a n} (h : m.Canon) : (m.dropDdr a n).Canon := canon_dropDdr a n h
theorem Mach.Canon.zeroDdr {a n} (h : m.Canon) : (m.zeroDdr a n).Canon := canon_zeroDdr a n h
theorem Mach.Canon.rekey {a n k} (h : m.Canon) : (m.rekey a n k).Canon := canon_rekey a n k h

theorem Mach.Canon.mbxCtxCreate {via} (h : m.Canon) : (mbxCtxCreate via m).Canon := by
  unfold Machine.mbxCtxCreate
  refine h.mbx fun _ _ _ h => ?_
  refine .ite h.mbxResult <| .ite h.mbxResult <| .ite h.mbxResult <| .ite h.mbxResult ?_
  split
  · exact h.mbxResult
  split
  · exact h.mbxResult
  exact h.upd.setCtx.rekey.mbxResult

theorem Mach.Canon.mbxCtxDelete {via} (h : m.Canon) : (mbxCtxDelete via m).Canon := by
  unfold Machine.mbxCtxDelete
  refine h.mbx fun _ _ _ h => ?_
  refine .ite h.mbxResult ?_
  split
  · exact h.mbxResult
  exact .ite h.mbxResult h.zeroDdr.zeroDdr.upd.mbxResult

theorem Mach.Canon.makeBlob {kind nonce bind peer key session ctx signer} (h : m.Canon) :
    (m.makeBlob kind nonce bind peer key session ctx signer).2.Canon :=
  h.upd

theorem Mach.Canon.ringBlobs {signer key bind session ctx rs} (h : m.Canon) : (m.ringBlobs signer key bind session ctx rs).2.Canon := by
  induction rs generalizing m with
  | nil => exact h
  | cons r rs ih =>
    dsimp only [Mach.ringBlobs]
    exact ih h.makeBlob

theorem Mach.Canon.mbxRingKeygen {via} (h : m.Canon) : (mbxRingKeygen via m).Canon := by
  unfold Machine.mbxRingKeygen
  refine h.mbx fun _ _ _ h => ?_
  refine .ite h.mbxResult ?_
  split
  · exact h.mbxResult
  refine .ite h.mbxResult <| .ite h.mbxResult ?_
  split
  · exact h.raiseSec.mbxResult
  extract_lets m1
  have h1 : m1.Canon := h.readHost.foldl fun _ h _ => h.readHost
  clear_value m1
  refine .ite h1.mbxResult ?_
  split
  rename_i e
  extract_lets
  split
  rename_i e'
  have h2 := (h1.draw.of_snd e).ringBlobs.of_snd e'
  exact h2.setHostBytes.upd.mbxResult

theorem Mach.Canon.mbxRingInstall {via} (h : m.Canon) : (mbxRingInstall via m).Canon := by
  unfold Machine.mbxRingInstall
  refine h.mbx fun _ _ _ h => ?_
  refine .ite h.mbxResult <| .ite h.mbxResult <| .ite h.mbxResult <| .ite h.mbxResult ?_
  extract_lets m1
  have h1 : m1.Canon := h.readHost.readHost.readHost
  clear_value m1
  refine .ite h1.mbxResult <| .ite h1.raiseSec.mbxResult ?_
  split
  · exact h1.raiseSec.mbxResult
  refine .ite h1.raiseSec.mbxResult ?_
  split
  · exact h1.raiseSec.mbxResult
  exact h1.upd.mbxResult

theorem Mach.Canon.mbxMgmtCa {via} (h : m.Canon) : (mbxMgmtCa via m).Canon := by
  unfold Machine.mbxMgmtCa
  refine h.mbx fun _ _ _ h => ?_
  refine .ite h.mbxResult ?_
  extract_lets +onlyGivenNames m1
  have h1 : m1.Canon := h.readHost.readHost
  exact .ite h1.mbxResult h1.upd.mbxResult

theorem Mach.Canon.mbxFwUpdate {via} (h : m.Canon) : (mbxFwUpdate via m).Canon :=
  h.mbx (fun _ _ _ h => .ite h.mbxResult (.ite h.readHost.mbxResult (.ite h.readHost.mbxResult h.readHost.upd.mbxResult)))

theorem Mach.Canon.dexzonConnect {hello chain} (h : m.Canon) : (dexzonConnect hello chain m).Canon := .ite h h.upd
theorem Mach.Canon.secCfgWrite {v} (h : m.Canon) : (secCfgWrite v m).Canon := .ite h (.ite h.writeReg h.writeReg.extendM3)

end Sys2Proof.Machine
end

section
/-! PROOFS. O57: the sluice engines, responses to events, leases and revocation, the stem and the samplers. -/
namespace Sys2Proof.Machine

-- One theorem after the other: checked all at once, so many short proofs ask for more threads than the memory limit lets start.
set_option Elab.async false

variable {m n : Mach}

/-! ### Sluice -/

theorem Mach.Canon.refuseGranule {e r k} (h : m.Canon) : (m.refuseGranule e r k).Canon := h.logDrop.modRun.pairDrop

theorem Mach.Canon.startGranule {e r k} (h : m.Canon) : (m.startGranule e r k).Canon := by
  unfold Mach.startGranule
  refine .ite h.upd <| .ite h.refuseGranule <| .ite h.upd ?_
  extract_lets _ _ m1 _ m2 m3
  have h2 : m2.Canon := .ite h.ddrRead.raiseSlu (.ite h.ddrRead.raiseSlu h.ddrRead)
  have h3 : m3.Canon := h2.upd
  exact h3.upd

theorem Mach.Canon.launch {e d index pass} (h : m.Canon) : (m.launch e d index pass).Canon := by
  unfold Mach.launch
  refine .ite h.setEngine.raiseSlu <| .ite h.setEngine ?_
  extract_lets m1
  have h1 : m1.Canon := h.setEngine.foldl (fun _ h _ => h.startGranule)
  exact .ite h1.raiseSlu h1

theorem Mach.Canon.sluiceStart {e} (h : m.Canon) : (sluiceStart e m).Canon := by
  unfold Machine.sluiceStart
  extract_lets m1
  have h1 : m1.Canon := .ite h.advanceTo h
  split
  · exact h1
  split
  rename_i e
  have h2 := h1.gated.of_fst e
  exact .ite (.ite h2.setEngine.raiseSlu h2.setEngine) h2.setEngine.launch

theorem Mach.Canon.sluiceComplete {e} (h : m.Canon) : (sluiceComplete e m).Canon := by
  unfold Machine.sluiceComplete
  extract_lets +onlyGivenNames _
  split
  · exact h
  refine .ite h ?_
  extract_lets _ _ _ _ _ m1 m2 m3
  have h1 : m1.Canon := h.setEngine.setEngine
  have h2 : m2.Canon := .ite h1.upd h1
  have h3 : m3.Canon := .ite h2.sendSignal h2
  split
  · exact .ite h3.qReply h3
  exact h3

theorem Mach.Canon.sluiceQueueDescriptor {e entry} (h : m.Canon) : (sluiceQueueDescriptor e entry m).Canon := by
  unfold Machine.sluiceQueueDescriptor
  split
  · exact h
  exact .ite h (.ite h.qTake.raiseSlu h.qTake.setEngine.sluiceStart)

theorem Mach.Canon.dropInflight {e} (h : m.Canon) : (m.dropInflight e).Canon := h.upd.setEngine
theorem Mach.Canon.sluiceAbort {e} (h : m.Canon) : (sluiceAbort e m).Canon := .ite h (.ite h h.dropInflight.setEngine)
theorem Mach.Canon.sluiceFault {e} (h : m.Canon) : (sluiceFault e m).Canon := .ite h h.setEngine.raiseSlu

/-! ### Resp -/

theorem Mach.Canon.response (h : m.Canon) : (response m).Canon := by
  unfold Machine.response
  split
  · exact h
  exact .ite h.upd (.ite h.upd h.upd.putBit)

theorem Mach.Canon.endAction {r action status} (h : m.Canon) : (m.endAction r action status).Canon := h.incFld.setFld.dev

theorem Mach.Canon.act {r action k} (h : m.Canon) (hk : ∀ p (n : Mach), n.Canon → (k p n).1.Canon) : (m.act r action k).Canon := by
  unfold Mach.act
  split
  · exact h
  exact (hk _ _ h.upd).endAction

theorem Mach.Canon.actNone {r} (h : m.Canon) : (actNone r m).Canon := h.act (fun _ _ h => h)
theorem Mach.Canon.actDump {r} (h : m.Canon) : (actDump r m).Canon := h.act (fun _ _ h => h.triggerDump)
theorem Mach.Canon.dumpReq (h : m.Canon) : (dumpReq m).Canon := .ite h.triggerDump h

theorem Mach.Canon.dumpCopy (h : m.Canon) : (dumpCopy m).Canon := by
  unfold Machine.dumpCopy
  refine .ite h ?_
  split
  · exact h.putBit
  exact .ite h.setHostBytes h.putBit

theorem Mach.Canon.dumpRelease (h : m.Canon) : (dumpRelease m).Canon := .ite h.upd.putBit.setFld h

/-! ### Lease -/

theorem Mach.Canon.revokeWindow {t w} (h : m.Canon) : (m.revokeWindow t w).Canon := canon_revokeWindow t w h

theorem Mach.Canon.revokeLatches {owner} (h : m.Canon) : (m.revokeLatches owner).1.Canon := by
  unfold Mach.revokeLatches
  extract_lets _ m1
  have h1 : m1.Canon := h.foldl (fun _ h _ => h.setLatch)
  exact h1.foldl (fun _ h _ => h.gateRevoked)

theorem Mach.Canon.revokeLeases {x} (h : m.Canon) : (m.revokeLeases x).1.Canon := by
  unfold Mach.revokeLeases
  split
  · exact h
  extract_lets _
  split
  · split
    rename_i e
    have h1 := h.upd.revokeLatches.of_fst e
    extract_lets _ m1 _
    have h1 : m1.Canon := h1.foldl (fun _ h _ => h.revokeWindow)
    split
    · exact h1.upd
    exact h1.upd.raiseFab
  · split
    rename_i e
    have h2 := h.upd.revokeLatches.of_fst e
    split
    · exact h2.dropInflight.setEngine
    exact h2
  split
  · exact h.upd.dropInflight.setEngine
  exact h.upd

theorem Mach.Canon.revoke {x byHost} (h : m.Canon) : (m.revoke x byHost).1.Canon := h.revokeLeases.upd

theorem Mach.Canon.revocationComplete (h : m.Canon) : (revocationComplete m).Canon :=
  .ite h (h.upd.putBit.foldl (fun _ h _ => .ite h.dev.raiseSec h.dev))

theorem Mach.Canon.leaseExpiry {x} (h : m.Canon) : (leaseExpiry x m).Canon := by
  unfold Machine.leaseExpiry
  refine .ite h ?_
  extract_lets _ m1
  have h1 : m1.Canon := h.upd.putBit.dev
  exact .ite h1.revoke h1

theorem Mach.Canon.mbxRevoke {via} (h : m.Canon) : (mbxRevoke via m).Canon := by
  unfold Machine.mbxRevoke
  refine h.mbx fun _ _ _ h => ?_
  refine .ite h.mbxResult ?_
  split
  · exact h.mbxResult
  exact h.revoke.mbxResult

theorem Mach.Canon.actRevoke {r} (h : m.Canon) : (actRevoke r m).Canon := by
  unfold Machine.actRevoke
  refine h.act fun _ _ h => ?_
  split
  · exact h
  split
  · exact h
  exact h.revoke

theorem Mach.Canon.patrolScrub {u} (h : m.Canon) : (patrolScrub u m).Canon := by
  unfold Machine.patrolScrub
  split
  · exact h.stackRead.scrubStack
  exact h.ddrRead.scrubDdr

theorem Mach.Canon.pmemUe {t} (h : m.Canon) : (pmemUe t m).Canon := .ite h h.setTile.raiseFab

theorem Mach.Canon.memCeClr (h : m.Canon) : (memCeClr m).Canon := by
  unfold Machine.memCeClr
  refine .ite h ?_
  extract_lets m1
  have h1 : m1.Canon := h.foldl (fun _ h _ => h.setReg)
  exact h1.foldl (fun _ h _ => h.setReg)

theorem Mach.Canon.tileCntClr {t} (h : m.Canon) : (tileCntClr t m).Canon := .ite h h.setTile

/-! ### Stem -/

theorem Mach.Canon.stemLineTake {p} (h : m.Canon) : (stemLineTake p m).Canon := by
  unfold Machine.stemLineTake
  extract_lets _ _
  split
  · exact h
  exact .ite h h.setPort.setStem

theorem Mach.Canon.stemOverrun {p} (h : m.Canon) : (m.stemOverrun p).Canon := by
  unfold Mach.stemOverrun
  extract_lets _ _ _ _ _ _ _ _ m1
  have h1 : m1.Canon := by
    unfold m1
    split
    · exact h.upd.setPort
    exact h.upd.raisePort
  exact h1.raiseStem

theorem Mach.Canon.writeRow {p} (h : m.Canon) : (m.writeRow p).Canon := by
  unfold Mach.writeRow
  extract_lets _ _ _ _ _ _ _ m1 _
  have h1 : m1.Canon := h.upd.setStem
  split
  · exact h1
  · exact h1.raiseStem
  exact h1.raiseStem

theorem Mach.Canon.stemRowDone {p} (h : m.Canon) : (stemRowDone p m).Canon := by
  unfold Machine.stemRowDone
  extract_lets +onlyGivenNames _
  split
  · extract_lets +onlyGivenNames _ _ m1
    have h1 : m1.Canon := .ite h.setStem h.setStem.setReg
    exact h1.upd
  exact h

theorem Mach.Canon.seenGrans {got} (h : m.Canon) : (m.seenGrans got).Canon := by
  refine .foldl ?_ fun _ h _ => h.setGran
  obtain ⟨⟨h1, -, h3, h4, h5, h6, h7, h8, h9, h10, h11⟩, hr⟩ := h
  exact ⟨⟨h1, FMap.wf_nil, h3, h4, h5, h6, h7, h8, h9, h10, h11⟩, hr⟩

theorem Mach.Canon.roiListed {d j} (h : m.Canon) : (m.roiListed d j).Canon := by
  unfold Mach.roiListed
  extract_lets +onlyGivenNames _ _
  split
  extract_lets _ _ _ _ m1
  have h1 : m1.Canon := .ite h.setRoi.raiseRoi h.setRoi
  exact .ite h1.upd.setRoi h1.upd

theorem Mach.Canon.roiGot {d st g} (h : m.Canon) : (m.roiGot d st g).Canon := by
  unfold Mach.roiGot
  extract_lets +onlyGivenNames _ _
  split
  · exact h
  extract_lets _ _ _ _ m1 m2
  have h1 : m1.Canon := .ite h.setRoi.raiseRoi h.setRoi
  have h2 : m2.Canon := .ite h1.raiseRoi h1
  exact .ite h2 (.ite h2.upd.setRoi h2.roiListed)

theorem Mach.Canon.roiJobStart {d} (h : m.Canon) : (roiJobStart d m).Canon := by
  unfold Machine.roiJobStart
  extract_lets _ m1
  have h1 : m1.Canon := h.advanceTo
  split
  · exact h
  refine .ite h ?_
  split
  rename_i e
  have h2 := h1.gated.of_fst e
  exact .ite h2.upd (.ite h2.setRoi.raiseRoi h2.setRoi)

theorem Mach.Canon.roiJobComplete {d} (h : m.Canon) : (roiJobComplete d m).Canon := by
  unfold Machine.roiJobComplete
  extract_lets +onlyGivenNames _
  split
  · exact h
  refine .ite h ?_
  extract_lets _ _ m1
  have h1 : m1.Canon := .ite h.upd.sendSignal h.upd
  exact h1.setRoi

theorem Mach.Canon.dropRoi {d} (h : m.Canon) : (m.dropRoi d).Canon := h.upd
theorem Mach.Canon.roiAbort {d} (h : m.Canon) : (roiAbort d m).Canon := .ite h (.ite h h.dropRoi.setRoi)
theorem Mach.Canon.roiFault {d} (h : m.Canon) : (roiFault d m).Canon := .ite h h.dropRoi.setRoi.raiseRoi

end Sys2Proof.Machine
end

section
/-! PROOFS. O57: the intake of packets, and the preparation of samples and batches. -/
namespace Sys2Proof.Machine

-- One theorem after the other: checked all at once, so many short proofs ask for more threads than the memory limit lets start.
set_option Elab.async false

variable {m n : Mach}

/-! ### Intake -/

theorem Mach.Canon.setLstate {p s} (h : m.Canon) : (m.setLstate p s).Canon := h.setFld
theorem Mach.Canon.enterVersion {p} (h : m.Canon) : (m.enterVersion p).Canon := h.setFld.setFld.setLstate
theorem Mach.Canon.discard {p bit} (h : m.Canon) : (m.discard p bit).Canon := h.raisePort.inc
theorem Mach.Canon.sendDown {p k} (h : m.Canon) : (m.sendDown p k).Canon := h.setPort
theorem Mach.Canon.tapRing {d r ent} (h : m.Canon) : (m.tapRing d r ent).Canon := .ite h.ringPut h.ringPut.raiseInt
theorem Mach.Canon.ffcTableWrite {p bank x v} (h : m.Canon) : (ffcTableWrite p bank x v m).Canon := .ite h (.ite h.raiseInt h.upd)
theorem Mach.Canon.displayLine {p l} (h : m.Canon) : (m.displayLine p l).Canon := .ite h.setPort (.ite h.setPort h.setPort.tapRing)
theorem Mach.Canon.archiveLine {p l} (h : m.Canon) : (m.archiveLine p l).Canon := .ite h (.ite h.setPort.setDdrBytes h.setPort)
theorem Mach.Canon.visionLine {p l} (h : m.Canon) : (m.visionLine p l).Canon := .ite h.setPort h

theorem Mach.Canon.emitLine {p pix pos posv st} (h : m.Canon) : (m.emitLine p pix pos posv st).Canon := by
  unfold Mach.emitLine
  extract_lets +onlyGivenNames _
  split
  · exact h
  extract_lets _ _ _ _ _ _ _ m1 m2 m3 _ m4
  have h1 : m1.Canon := .ite h.setPort.raiseInt h.setPort
  have h2 : m2.Canon := .ite h1.raiseInt h1
  have h3 : m3.Canon := .ite h2.inc h2
  have h4 : m4.Canon := .ite h3.upd h3
  exact h4.displayLine.archiveLine.visionLine.setCoder

theorem Mach.Canon.padFrame {p n} (h : m.Canon) : (m.padFrame p n).Canon := by
  induction n generalizing m with
  | zero => exact h
  | succ n ih => exact ih h.emitLine

theorem Mach.Canon.addOverview {p f} (h : m.Canon) : (m.addOverview p f).Canon := .ite h h.setCoder

theorem Mach.Canon.closeFrame {p why} (h : m.Canon) : (m.closeFrame p why).Canon := by
  unfold Mach.closeFrame
  split
  · exact h
  extract_lets +onlyGivenNames m1 m2 _ m3
  have h1 : m1.Canon := .ite h.raisePort h
  have h2 : m2.Canon := .ite h1.raisePort h1
  have h3 : m3.Canon := .ite h2.raisePort h2
  exact h3.padFrame.setPort.putBit.inc.tapRing.addOverview

theorem Mach.Canon.endAcquisition {p} (h : m.Canon) : (m.endAcquisition p).Canon := by
  unfold Mach.endAcquisition
  extract_lets +onlyGivenNames m1 m2
  have h1 : m1.Canon := by
    unfold m1
    split
    · exact h.setPort.putBit.inc
    exact h
  have h2 : m2.Canon := .ite h1.setLstate h1
  exact h2.setStem

theorem Mach.Canon.onPacket {p blks mine f} (h : m.Canon)
    (hk : ∀ x1 (n : Mach), n.Canon → (f x1 n).Canon) : (m.onPacket p blks mine f).Canon := by
  unfold Mach.onPacket
  -- Reader and framer stay variables up to the kernel: unfolded, they are too deep for it.
  generalize deframe none blks = framed
  generalize packetOf = read
  as_aux_lemma =>
    split
    · split
      · exact .ite (hk _ _ (.ite h.raisePort h)) h
      exact h
    exact h

theorem Mach.Canon.packet {p blks mine f} (h : m.Canon) (hk : ∀ x1 (n : Mach), n.Canon → (f x1 n).Canon) : (m.packet p blks mine f).Canon :=
  h.onPacket (fun _ _ h => .ite h (.ite h.discard (.ite h.discard (hk _ _ h))))

theorem Mach.Canon.enterAcquire {p} (h : m.Canon) : (m.enterAcquire p).Canon := by
  unfold Mach.enterAcquire
  extract_lets +onlyGivenNames _ m1
  have h1 : m1.Canon := h.setPort.setLstate
  exact .ite h1.upd.setStem h1

theorem Mach.Canon.frameStart {p blks} (h : m.Canon) : (frameStart p blks m).Canon := by
  unfold Machine.frameStart
  refine h.packet fun _ _ h => ?_
  extract_lets +onlyGivenNames _ _ m1 _ _ _ _ m2
  have h1 : m1.Canon := .ite h.closeFrame.enterAcquire h.closeFrame
  have h2 : m2.Canon := .ite h1.raisePort h1
  exact h2.putBit.setFld.setFld.setPort.putBit

theorem Mach.Canon.frameEnd {p blks} (h : m.Canon) : (frameEnd p blks m).Canon := by
  unfold Machine.frameEnd
  refine h.packet fun _ _ h => ?_
  split
  · exact h.discard
  exact .closeFrame (.ite h h.raisePort)

theorem Mach.Canon.lineStart {p blks} (h : m.Canon) : (lineStart p blks m).Canon := h.packet (fun _ _ h => .ite h.discard h.setPort)
theorem Mach.Canon.lineEnd {p blks} (h : m.Canon) : (lineEnd p blks m).Canon := h.packet (fun _ _ h => .ite h.discard h)

theorem Mach.Canon.acceptLine {p payload bad} (h : m.Canon) : (m.acceptLine p payload bad).Canon := by
  unfold Mach.acceptLine
  refine .ite ?_ h.setPort.emitLine
  split
  extract_lets +onlyGivenNames m1
  have h1 : m1.Canon := .ite h.raisePort h
  exact h1.setPort.emitLine

theorem Mach.Canon.pixels {p k} (h : m.Canon) : (m.pixels p k).Canon := by
  unfold Mach.pixels
  extract_lets +onlyGivenNames _
  split
  · exact h.discard
  refine .ite (.setPort (.ite h h.raisePort)) <| .ite h.setPort ?_
  extract_lets _ _ m1 m2
  have h1 : m1.Canon := .ite h.raisePort h
  have h2 : m2.Canon := .ite h1.raisePort h1
  exact h2.acceptLine

theorem Mach.Canon.pixelPacket {p blks} (h : m.Canon) : (pixelPacket p blks m).Canon :=
  h.packet (fun _ _ h => .ite h.discard (.pixels (.ite h.raisePort h)))

theorem Mach.Canon.valzardo {p k wc fieldsOk f} (h : m.Canon) (hk : ∀ (n : Mach), n.Canon → (f n).Canon) : (m.valzardo p k wc fieldsOk f).Canon :=
  .ite h.discard (.ite h.discard (.ite h.discard (hk _ h)))

theorem Mach.Canon.verSend {p} (h : m.Canon) : (verSend p m).Canon := .ite h.sendDown h
theorem Mach.Canon.agree {p pl} (h : m.Canon) : (m.agree p pl).Canon := .ite h.setFld.setFld.setLstate.sendDown h.enterVersion.setLstate.raisePort

theorem Mach.Canon.camVer {p blks} (h : m.Canon) : (camVer p blks m).Canon :=
  h.onPacket (fun _ _ h => .ite h.discard (h.valzardo (fun _ h => .ite h.discard (.ite h (.ite h.agree h.raisePort.closeFrame.enterVersion.agree)))))

theorem Mach.Canon.camEcho {p blks} (h : m.Canon) : (camEcho p blks m).Canon := h.packet (fun _ _ h => h.valzardo (fun _ h => h.setFld.setFld))
theorem Mach.Canon.marker {p pmark trail tag pos} (h : m.Canon) : (m.marker p pmark trail tag pos).Canon := .ite h.upd h
theorem Mach.Canon.pmark {p blks} (h : m.Canon) : (pmark p blks m).Canon := h.packet (fun _ _ h => .ite h.discard (h.valzardo (fun _ h => h.marker)))

theorem Mach.Canon.hdrUe {p blks} (h : m.Canon) : (hdrUe p blks m).Canon := by
  unfold Machine.hdrUe
  split
  · exact .ite h.setPort.discard h
  exact h

theorem Mach.Canon.framingError {p blks} (h : m.Canon) : (framingError p blks m).Canon := by
  unfold Machine.framingError
  split
  · refine .ite h ?_
    extract_lets _
    split
    · exact h.raisePort
    · exact h.raisePort.setPort.discard
    extract_lets m1
    have h1 : m1.Canon := .ite h.raisePort.raisePort h.raisePort
    exact .ite h1 (.ite h1.pixels h1.inc)
  exact h

theorem Mach.Canon.ltrig {p} (h : m.Canon) : (ltrig p m).Canon := .ite h.setPort.sendDown h

theorem Mach.Canon.portExpCommit {p} (h : m.Canon) : (portExpCommit p m).Canon := by
  unfold Machine.portExpCommit
  refine .ite h ?_
  extract_lets _ _ _ _ _ m1
  have h1 : m1.Canon := h.setPort.setFld.setFld
  exact .ite h1.sendDown h1

theorem Mach.Canon.cropRequest {d req} (h : m.Canon) : (cropRequest d req m).Canon := by
  unfold Machine.cropRequest
  refine .ite h ?_
  split
  · exact h
  exact h.qTake.setCoder.setCoder

theorem Mach.Canon.coderStart {d} (h : m.Canon) : (coderStart d m).Canon := by
  unfold Machine.coderStart
  extract_lets _
  split
  · exact h.setCoder
  exact h

theorem Mach.Canon.archiveRecord {d} (h : m.Canon) : (archiveRecord d m).Canon := by
  unfold Machine.archiveRecord
  extract_lets +onlyGivenNames _
  split
  · exact h
  exact .ite h.setCoder h.setCoder.tapRing

/-! ### Prep -/

theorem Mach.Canon.modAccepted {idx f} (h : m.Canon) : (m.modAccepted idx f).Canon := h.upd

theorem Mach.Canon.voidPart {x r} (h : m.Canon) : (m.voidPart x r).Canon := by
  unfold Mach.voidPart
  split
  · exact h
  extract_lets _ _ _ _ m1
  have h1 : m1.Canon := h.upd.inc.raisePrep
  exact .ite h1 h1.commitRecord

theorem Mach.Canon.judge {idx} (h : m.Canon) : (m.judge idx).Canon := by
  unfold Mach.judge
  split
  · exact h
  extract_lets m1
  have h1 : m1.Canon := .ite h.modAccepted h
  exact .ite h1.voidPart h1

theorem Mach.Canon.closeStripe {i p l t corrupt} (h : m.Canon) : (m.closeStripe i p l t corrupt).Canon := by
  unfold Mach.closeStripe
  split
  · exact h
  exact .ite h.upd (.ite h.upd.voidPart h.upd.judge)

theorem Mach.Canon.sweep (h : m.Canon) : m.sweep.Canon := by
  unfold Mach.sweep
  refine h.foldl fun _ h _ => ?_
  split
  · exact h
  split
  · exact h
  exact h.foldl (fun _ h _ => .ite h.raisePrep.closeStripe h)

theorem Mach.Canon.openBatch {key c image} (h : m.Canon) : (m.openBatch key c image).Canon := .ite h.setBucket.gate h.setBucket.gate.raisePrep

theorem Mach.Canon.intoBatch {x ens b c} (h : m.Canon) : (m.intoBatch x ens b c).Canon := by
  unfold Mach.intoBatch
  extract_lets _ m1 _ _
  have h1 : m1.Canon := .ite h h.openBatch
  split
  · exact h1
  exact h1.setBucket.modAccepted

theorem Mach.Canon.assign {x} (h : m.Canon) : (m.assign x).Canon := by
  unfold Mach.assign
  split
  · extract_lets +onlyGivenNames _ _ _
    split
    · exact h.intoBatch
    split
    · exact h.raisePrep.voidPart.intoBatch
    exact h
  exact h

theorem Mach.Canon.assignAll (h : m.Canon) : m.assignAll.Canon := by
  unfold Mach.assignAll
  refine List.foldlRecOn (motive := fun k : Mach × List (Nat × Nat) => k.1.Canon) _ _ h fun k hk p _ => ?_
  obtain ⟨m, blocked⟩ := k
  dsimp only
  split
  · exact hk
  split
  · exact hk
  split
  · exact hk.assign
  exact hk

theorem Mach.Canon.claims (h : m.Canon) : m.claims.Canon := by
  unfold Mach.claims
  refine h.foldl fun _ h _ => ?_
  refine h.foldl fun _ h _ => ?_
  refine .ite h ?_
  split
  · exact h
  exact h.upd.setBucket

theorem Mach.Canon.release {p} (h : m.Canon) : (m.release p).Canon := .ite h h.upd
theorem Mach.Canon.ringReady {p} (h : m.Canon) : (m.ringReady p).Canon := .ite h.sweep.release h
theorem Mach.Canon.stemRowWrite {p} (h : m.Canon) : (stemRowWrite p m).Canon := .ite h (.ite h.ringReady.stemOverrun h.ringReady.writeRow)

theorem Mach.Canon.copyOut {x got} (h : m.Canon) : (m.copyOut x got).Canon := by
  unfold Mach.copyOut
  split
  · exact h
  exact h.upd

theorem Mach.Canon.prepGot {idx st g} (h : m.Canon) : (m.prepGot idx st g).Canon := by
  unfold Mach.prepGot
  split
  · exact h
  extract_lets _ _ m1 m2
  have h1 : m1.Canon := .ite h h.raisePrep
  have h2 : m2.Canon := .ite h1.raisePrep.modAccepted h1
  split
  · exact .ite h2.copyOut h2.modAccepted
  exact h2

theorem Mach.Canon.startCopies (h : m.Canon) : m.startCopies.Canon := by
  unfold Mach.startCopies
  refine h.foldl fun _ h _ => ?_
  split
  · exact h
  exact h.upd.modAccepted

theorem Mach.Canon.expire (h : m.Canon) : m.expire.Canon := by
  unfold Mach.expire
  refine h.foldl fun _ h _ => ?_
  split
  · exact h
  exact .ite h.voidPart (.ite h.voidPart h)

theorem Mach.Canon.startImages (h : m.Canon) : m.startImages.Canon := by
  unfold Mach.startImages
  refine h.foldl fun _ h _ => ?_
  refine h.foldl fun _ h _ => ?_
  split
  · split
    · exact h
    exact h.readHost.upd
  exact h

theorem Mach.Canon.closeOld (h : m.Canon) : m.closeOld.Canon := h.foldl (fun _ h _ => h.foldl (fun _ h _ => .ite h.setBucket h))

theorem Mach.Canon.pump (h : m.Canon) : m.pump.Canon := by
  unfold Mach.pump
  extract_lets _ m1
  have h1 : m1.Canon := h.sweep.expire.closeOld.assignAll.claims.startCopies.startImages.foldl fun _ h _ => h.release
  clear_value m1
  exact h1.upd.lowCheck

theorem Mach.Canon.prepDrops (h : m.Canon) : m.prepDrops.Canon := .ite h.pump h

theorem Mach.Canon.openPart {k group serial} (h : m.Canon) : (m.openPart k group serial).Canon :=
  .ite h.upd.inc <| .ite h.upd.inc.raisePrep <| .ite h.upd.commitRecord h.upd

theorem Mach.Canon.principalMarker {k group serial} (h : m.Canon) : (m.principalMarker k group serial).Canon := by
  unfold Mach.principalMarker
  extract_lets cur _
  clear_value cur
  split
  · cases cur with
    | some i => exact h.closeStripe
    | none => exact h.raisePrep
  refine .openPart ?_
  cases cur with
  | some i => exact h.raisePrep.closeStripe
  | none => exact h

theorem Mach.Canon.otherMarker {k} (h : m.Canon) : (m.otherMarker k).Canon := by
  unfold Mach.otherMarker
  split
  · split
    · exact h.closeStripe
    exact h.raisePrep
  split
  · exact h.raisePrep
  split
  · exact h
  exact h.upd

theorem Mach.Canon.lateSwitch {k} (h : m.Canon) : (m.lateSwitch k).Canon := by
  unfold Mach.lateSwitch
  split
  · exact .ite h.upd h
  exact h

theorem Mach.Canon.drainPassed {k} (h : m.Canon) : (m.drainPassed k).Canon := by
  unfold Mach.drainPassed
  split
  · exact .ite h.upd h
  exact h

theorem Mach.Canon.markerRecord (h : m.Canon) : (markerRecord m).Canon := by
  unfold Machine.markerRecord
  split
  · exact h
  extract_lets _ _ m1 _ m2
  have h1 : m1.Canon := h.sweep.upd.lateSwitch.drainPassed
  have h2 : m2.Canon := by
    unfold m2
    split
    · exact h1
    split
    · exact h1
    exact .ite h1.principalMarker h1.otherMarker
  exact h2.pump

theorem Mach.Canon.sampleReady {idx} (h : m.Canon) : (sampleReady idx m).Canon := by
  unfold Machine.sampleReady
  extract_lets _
  split
  · exact h.pump.judge.pump
  exact .ite h.pump.judge.modAccepted.pump h.pump.judge

theorem Mach.Canon.prepDeadline {idx} (h : m.Canon) : (prepDeadline idx m).Canon := by
  unfold Machine.prepDeadline
  extract_lets _
  split
  · exact h.pump.judge.pump
  exact .ite h.pump.judge.voidPart.pump h.pump.judge

theorem Mach.Canon.refDecodeStart {d} (h : m.Canon) : (refDecodeStart d m).Canon := by
  unfold Machine.refDecodeStart
  extract_lets m1
  have h1 : m1.Canon := h.pump
  clear_value m1
  refine .ite h1 ?_
  split
  · exact h1
  exact h1.upd

theorem Mach.Canon.refErrors {x f} (h : m.Canon) : (m.refErrors x f).Canon := by
  unfold Mach.refErrors
  refine h.foldl fun _ h _ => ?_
  extract_lets _ _ _ _ m1
  have h1 : m1.Canon := .ite h.ddrRead h.ddrRead.raisePrep
  exact .ite h1.raisePrep.modAccepted h1

theorem Mach.Canon.refDecodeDone {d} (h : m.Canon) : (refDecodeDone d m).Canon := by
  unfold Machine.refDecodeDone
  split
  · exact h
  extract_lets _ m1
  have h1 : m1.Canon := h.upd
  clear_value m1
  split
  · exact h1.pump
  split
  · split
    · extract_lets px m2
      have h2 : m2.Canon := .ite h1.refErrors h1
      clear_value px
      refine .pump ?_
      split
      · exact h2.modAccepted
      exact h2.raisePrep.voidPart
    exact h1.raisePrep.voidPart.pump
  exact h1

theorem Mach.Canon.batchCloseTimeout {b} (h : m.Canon) : (batchCloseTimeout b m).Canon := by
  unfold Machine.batchCloseTimeout
  extract_lets m1
  have h1 : m1.Canon := h.pump
  clear_value m1
  split
  · exact h1
  exact h1.setBucket

theorem Mach.Canon.captureBatch {b nb sg q c ds} (h : m.Canon) : (m.captureBatch b nb sg q c ds).Canon := by
  unfold Mach.captureBatch
  split
  · exact h
  exact .ite h (.ite h.upd h.setHostBytes.upd.setReg)

theorem Mach.Canon.expectImage {serial b nb off r} (h : m.Canon) : (m.expectImage serial b nb off r).1.Canon := h.readHost.upd.putBit.setFld

theorem Mach.Canon.batchHandover {b} (h : m.Canon) : (batchHandover b m).Canon := by
  unfold Machine.batchHandover
  extract_lets m1
  have h1 : m1.Canon := h.pump
  clear_value m1
  split
  · exact h1
  split
  · exact h1
  split
  · exact h1
  extract_lets
  split
  next m2 _ _ e =>
  have h2 : m2.Canon := by
    split at e
    · split at e
      rename_i e'
      cases e
      exact h1.expectImage.of_fst e'
    · cases e
      exact h1
  extract_lets _ m3 m4 m5
  have h3 : m3.Canon := h2.upd
  have h4 : m4.Canon := .ite h3 h3.sendSignal
  exact h4.setReg.addReg.captureBatch.pump

end Sys2Proof.Machine
end

section
/-! PROOFS. O57: weaves, banks and versions. -/
namespace Sys2Proof.Machine

-- One theorem after the other: checked all at once, so many short proofs ask for more threads than the memory limit lets start.
set_option Elab.async false

variable {m n : Mach}

/-! ### Load -/

theorem Mach.Canon.sealImage {img} (h : m.Canon) : (m.sealImage img).2.Canon := by
  unfold Mach.sealImage
  extract_lets _
  split
  · exact h
  exact h.upd

theorem Mach.Canon.commitBanks {f} (h : m.Canon) : (m.commitBanks f).Canon := h.upd
theorem Mach.Canon.clearTile {t} (h : m.Canon) : (m.clearTile t).Canon := canon_clearTile t h
theorem Mach.Canon.loadTile {start go b} (h : m.Canon) : (m.loadTile start go b).Canon := h.clearTile.setTile.putBundles.foldl fun _ h _ => h.setWin

theorem Mach.Canon.tagImage {e} (h : m.Canon) : (m.tagImage e).Canon := by
  unfold Mach.tagImage
  obtain ⟨⟨h1, h2, h3, h4, h5, h6, h7, h8, h9, h10, h11⟩, hr⟩ := h
  dsimp only [Mach.Canon, Mem.Wf]
  exact ⟨⟨h1, h2, h3, wf_puts h4, h5, h6, h7, h8, h9, h10, h11⟩, hr⟩

theorem Mach.Canon.loadStack {st g bs} (h : m.Canon) : (m.loadStack st g bs).Canon := canon_loadStack st g bs h
theorem Mach.Canon.setRingEng {plane e} (h : m.Canon) : (m.setRingEng plane e).Canon := .ite h.upd h.upd

theorem Mach.Canon.zeroVision (h : m.Canon) : m.zeroVision.Canon := by
  unfold Mach.zeroVision
  extract_lets m1
  have h1 : m1.Canon := h.foldl (fun _ h _ => h.setRoi)
  exact h1.foldl (fun _ h _ => h.setReg)

theorem Mach.Canon.loadLatches {x b} (h : m.Canon) : (m.loadLatches x b).Canon := h.foldl (fun _ h _ => h.setLatch)

theorem Mach.Canon.loadFabric {w start go} (h : m.Canon) : (m.loadFabric w start go).Canon := by
  unfold Mach.loadFabric
  extract_lets _ _ _ m1 m2 m3 m4
  have h1 : m1.Canon := h.upd.foldl (fun _ h _ => h.loadTile)
  have h2 : m2.Canon := h1.foldl (fun _ h _ => h.foldl (fun _ h _ => h.tagImage))
  have h3 : m3.Canon := h2.foldl (fun _ h _ => h.loadStack)
  have h4 : m4.Canon := h3.foldl (fun _ h _ => h.loadLatches)
  exact h4.foldl (fun _ h _ => h.setEngine)

theorem Mach.Canon.loadStems {w} (h : m.Canon) : (m.loadStems w).Canon := .ite h (h.foldl (fun _ h _ => h.setPort.setStem))

theorem Mach.Canon.sealHead {digest v} (h : m.Canon) : (m.sealHead digest v).2.Canon := by
  unfold Mach.sealHead
  split
  · exact h
  exact h.upd

theorem Mach.Canon.writeHead {v} (h : m.Canon) : (m.writeHead v).Canon := h.foldl (fun _ h _ => h.setGran)

theorem Mach.Canon.measureHead (h : m.Canon) : m.measureHead.Canon := by
  unfold Mach.measureHead
  extract_lets _
  split
  · exact h.zeroM
  exact h.zeroM.extendM

theorem Mach.Canon.measureRecipe (h : m.Canon) : m.measureRecipe.Canon := by
  unfold Mach.measureRecipe
  extract_lets _
  split
  · exact h.zeroM
  exact h.zeroM.extendM

theorem Mach.Canon.measureWeave {digest} (h : m.Canon) : (m.measureWeave digest).Canon := h.zeroM.extendM.measureRecipe.measureHead

theorem Mach.Canon.writeParams {w r} (h : m.Canon) : (m.writeParams w r).Canon := by
  unfold Mach.writeParams
  split
  · exact h
  exact h.loadStack

theorem Mach.Canon.loadRecipe {w serial r} (h : m.Canon) : (m.loadRecipe w serial r).Canon :=
  h.upd.setReg.setReg.setReg.writeParams.foldl (fun _ h _ => h.setReg.setFld.putBit)

theorem Mach.Canon.freshTiles (h : m.Canon) : m.freshTiles.Canon := by
  unfold Mach.freshTiles
  obtain ⟨⟨h1, h2, h3, h4, h5, h6, h7, h8, h9, h10, h11⟩, hr⟩ := h
  dsimp only [Mach.Canon, Mem.Wf]
  exact ⟨⟨h1, h2, h3, FMap.wf_filter _ h4, FMap.wf_filter _ h5, h6, h7, h8, h9, h10, h11⟩, hr⟩

theorem Mach.Canon.loadWeave {b recipe since go} (h : m.Canon) : (m.loadWeave b recipe since go).Canon := by
  unfold Mach.loadWeave
  extract_lets +onlyGivenNames _ _ _ _ m1 m2 m3 m4
  have h1 : m1.Canon := h.freshTiles.loadFabric.loadStems.foldl (fun _ h _ => h.setRingEng)
  have h2 : m2.Canon := h1.foldl (fun _ h _ => h.setRoi)
  have h3 : m3.Canon := .ite h2.zeroVision h2
  have h4 : m4.Canon := by
    unfold m4
    split
    · exact h3.writeHead
    exact h3
  exact h4.upd

theorem Mach.Canon.startLoaded (h : m.Canon) : m.startLoaded.Canon := by
  unfold Mach.startLoaded
  refine h.foldl fun _ h _ => ?_
  refine .ite h ?_
  extract_lets +onlyGivenNames _ _ m1 m2 m3 m4
  have h1 : m1.Canon := h.foldl (fun _ h _ => h.setTile)
  have h2 : m2.Canon := h1.foldl (fun _ h _ => h.setEngine)
  have h3 : m3.Canon := h2.zeroVision.foldl (fun _ h _ => h.setRoi)
  have h4 : m4.Canon := h3.foldl (fun _ h _ => h.setRingEng)
  exact h4.upd

theorem Mach.Canon.idleTile {t} (h : m.Canon) : (m.idleTile t).Canon := h.upd.setTile.foldl (fun _ h _ => h.setWin)
theorem Mach.Canon.freeRevoked (h : m.Canon) : m.freeRevoked.Canon := h.foldl (fun _ h _ => h.setEngine)

theorem Mach.Canon.freeFabric {w} (h : m.Canon) : (m.freeFabric w).Canon := by
  unfold Mach.freeFabric
  extract_lets +onlyGivenNames _ m1 m2
  have h1 : m1.Canon := h.foldl (fun _ h _ => h.idleTile)
  have h2 : m2.Canon := h1.foldl (fun _ h _ => h.setLatch)
  exact h2.upd.freeRevoked.foldl (fun _ h _ => h.dropInflight.setEngine)

theorem Mach.Canon.freeStems (h : m.Canon) : m.freeStems.Canon := h.upd.foldl (fun _ h _ => h.setStem.setPort)

theorem Mach.Canon.unloadWeave {r} (h : m.Canon) : (m.unloadWeave r).Canon := by
  unfold Mach.unloadWeave
  extract_lets +onlyGivenNames _ _ _ m1 m2 _ _ m3
  have h1 : m1.Canon := h.freeFabric.foldl (fun _ h _ => h.upd.setRoi)
  have h2 : m2.Canon := h1.foldl (fun _ h _ => h.upd.setRingEng)
  have h3 : m3.Canon := .ite h2.putBit h2
  exact .ite h3.upd.freeStems h3.upd

theorem Mach.Canon.unloadAll (h : m.Canon) : m.unloadAll.Canon := h.foldl (fun _ h _ => h.unloadWeave)

theorem Mach.Canon.loadActive {b recipe go} (h : m.Canon) : (m.loadActive b recipe go).Canon := by
  unfold Mach.loadActive
  extract_lets _ m1 m2
  have h1 : m1.Canon := h.upd.loadWeave
  have h2 : m2.Canon := by
    unfold m2
    split
    · exact h1.loadRecipe
    exact h1
  exact h2.measureWeave

/-! ### Weave -/

theorem Mach.Canon.putResult {res e n} (h : m.Canon) : (m.putResult res e n).Canon := .ite h.setHostBytes h

theorem Mach.Canon.wvEnd {op res e n} (h : m.Canon) : (m.wvEnd op res e n).Canon := by
  unfold Mach.wvEnd
  extract_lets _ _ _ m1 m2 m3
  have h1 : m1.Canon := h.putResult.putBit.setFld.setFld
  have h2 : m2.Canon := .ite h1.putBit h1
  have h3 : m3.Canon := .ite h2.putBit.putBit h2
  exact .ite h3.signal h3

theorem Mach.Canon.wvBegin {c pending} (h : m.Canon) : (m.wvBegin c pending).Canon := h.upd.putBit.putBit.setFld
theorem Mach.Canon.wvDrop (h : m.Canon) : m.wvDrop.Canon := h.upd

theorem Mach.Canon.wvCmd {op ctl k} (h : m.Canon) (hk : ∀ x1 (n : Mach), n.Canon → (k x1 n).Canon) : (m.wvCmd op ctl k).Canon :=
  .ite h (.ite h.setReg (.ite h.setReg.wvEnd (.ite h.setReg.wvEnd (hk _ _ h.setReg))))

theorem Mach.Canon.wvReserved {ctl} (h : m.Canon) : (wvReserved ctl m).Canon := .ite (h.wvCmd (fun _ _ h => h)) h

theorem Mach.Canon.weaveStage {ctl} (h : m.Canon) : (weaveStage ctl m).Canon := by
  unfold Machine.weaveStage
  refine h.wvCmd fun _ _ h => ?_
  refine .ite h.readHost.wvEnd ?_
  split
  · exact h.readHost.wvEnd
  exact .ite h.readHost.wvEnd h.readHost.sealImage.commitBanks.wvEnd

theorem Mach.Canon.weaveDiscard {ctl} (h : m.Canon) : (weaveDiscard ctl m).Canon := h.wvCmd (fun _ _ h => .ite h.wvEnd h.commitBanks.wvEnd)

theorem Mach.Canon.weaveLoad {ctl} (h : m.Canon) : (weaveLoad ctl m).Canon := by
  unfold Machine.weaveLoad
  refine h.wvCmd fun _ _ h => ?_
  refine .ite h.wvEnd ?_
  split
  · exact h.wvEnd
  exact .ite h.wvEnd h.wvBegin

theorem Mach.Canon.beginSwap {op b a} (h : m.Canon) : (m.beginSwap op b a).Canon := by
  unfold Mach.beginSwap
  extract_lets +onlyGivenNames _ m1 _ _
  have h1 : m1.Canon := .ite h.readHost h
  split
  · exact h1.wvEnd
  split
  · exact h1.wvBegin
  refine .ite h1.upd.wvBegin ?_
  split
  · exact h1.wvEnd
  exact h1.wvBegin

theorem Mach.Canon.weaveActivate {ctl} (h : m.Canon) : (weaveActivate ctl m).Canon := by
  unfold Machine.weaveActivate
  refine h.wvCmd fun _ _ h => ?_
  refine .ite h.wvEnd ?_
  split
  · exact h.wvEnd
  exact h.beginSwap

theorem Mach.Canon.weaveRollback {ctl} (h : m.Canon) : (weaveRollback ctl m).Canon := by
  unfold Machine.weaveRollback
  refine h.wvCmd fun _ _ h => ?_
  refine .ite h.wvEnd ?_
  split
  · exact h.wvEnd
  exact h.beginSwap

theorem Mach.Canon.weaveStop {ctl} (h : m.Canon) : (weaveStop ctl m).Canon :=
  h.wvCmd (fun _ _ h => .ite h.wvEnd (.ite h.flushAll.unloadAll.upd.wvEnd h.upd.wvBegin))

theorem Mach.Canon.abortCmd {c} (h : m.Canon) : (m.abortCmd c).Canon := by
  unfold Mach.abortCmd
  extract_lets +onlyGivenNames m1
  have h1 : m1.Canon := by
    unfold m1
    refine .ite ?_ h
    split
    · exact h.unloadWeave
    exact h
  exact h1.upd.wvEnd

theorem Mach.Canon.weaveAbort {ctl} (h : m.Canon) : (weaveAbort ctl m).Canon := by
  unfold Machine.weaveAbort
  refine h.wvCmd fun _ _ h => ?_
  split
  · exact h.wvEnd
  exact .ite h.abortCmd.wvEnd h.wvEnd

theorem Mach.Canon.rotate {op} (h : m.Canon) : (m.rotate op).Canon := h.commitBanks

theorem Mach.Canon.pSw (h : m.Canon) : (pSw m).Canon := by
  unfold Machine.pSw
  split
  · refine .ite h ?_
    split
    · exact h
    refine .ite h ?_
    extract_lets _ m1 m2
    have h1 : m1.Canon := h.upd.rotate.setReg
    have h2 : m2.Canon := by
      unfold m2
      split
      · exact h1.loadRecipe
      exact h1
    exact h2.upd.measureWeave.putBit
  exact h

theorem Mach.Canon.oldWeaveDone (h : m.Canon) : (oldWeaveDone m).Canon := by
  unfold Machine.oldWeaveDone
  split
  · exact .ite h.unloadWeave.wvDrop.wvEnd h
  exact h

theorem Mach.Canon.recipeCmd {q ent} (h : m.Canon) : (recipeCmd q ent m).Canon := by
  unfold Machine.recipeCmd
  refine h.cmdTake fun _ _ _ h => ?_
  refine .ite h.putResult.cmdDone <| .ite h.putResult.cmdDone ?_
  split
  · exact h.putResult.cmdDone
  refine .ite h.putResult.cmdDone <| .ite h.putResult.cmdDone ?_
  extract_lets +onlyGivenNames _ _ _ _ _
  split
  · exact h.readHost.putResult.cmdDone
  exact h.readHost.upd.loadRecipe.measureRecipe.putResult.cmdDone

theorem Mach.Canon.stopNow (h : m.Canon) : m.stopNow.Canon := by
  unfold Mach.stopNow
  extract_lets _ _ m1
  have h1 : m1.Canon := by
    unfold m1
    split
    · exact h.upd.wvEnd
    exact h
  exact h1.flushAll.unloadAll

theorem Mach.Canon.actWeaveStop {r} (h : m.Canon) : (actWeaveStop r m).Canon := h.act (fun _ _ h => h.stopNow)

/-! ### Adapt -/

theorem Mach.Canon.adaptReply {r} (h : m.Canon) : (m.adaptReply r).Canon := by
  unfold Mach.adaptReply
  split
  · exact h.qReply
  exact h

theorem Mach.Canon.adaptRefuse {op status tag v} (h : m.Canon) : (m.adaptRefuse op status tag v).Canon := h.adaptReply
theorem Mach.Canon.adaptAbout {op tag x} (h : m.Canon) : (m.adaptAbout op tag x).Canon := h.adaptReply
theorem Mach.Canon.setStore {at_ bs} (h : m.Canon) : (m.setStore at_ bs).Canon := .ite h.setDdrBytes h

theorem Mach.Canon.handleLabel {b} (h : m.Canon) : (m.handleLabel b).2.2.Canon := by
  unfold Mach.handleLabel
  extract_lets _ _ _ _ found _ _ _ _ m1
  have h1 : m1.Canon := h.upd
  clear_value found m1
  split
  · exact h
  split
  · exact h
  extract_lets _
  split
  · split
    · exact h.upd
    exact h
  split
  · exact h.upd.setStore
  split
  · exact h
  split
  · exact h
  split
  · exact h
  exact h1.setStore

theorem Mach.Canon.adaptLabel {ent} (h : m.Canon) : (adaptLabel ent m).Canon := by
  unfold Machine.adaptLabel
  split
  · exact h
  exact .ite h h.qTake.handleLabel.qReply

theorem Mach.Canon.adaptTake {ent op used flags k} (h : m.Canon)
    (hk : ∀ x1 x2 x3 (n : Mach), n.Canon → (k x1 x2 x3 n).Canon) : (m.adaptTake ent op used flags k).Canon := by
  unfold Mach.adaptTake
  split
  · exact h
  refine .ite h <| .ite h ?_
  extract_lets _
  split
  · exact h.qTake.adaptRefuse
  exact .ite h.qTake.adaptRefuse (hk _ _ _ _ h.qTake)

theorem Mach.Canon.adaptRun {ent} (h : m.Canon) : (adaptRun ent m).Canon :=
  h.adaptTake (fun _ _ _ _ h => .ite h.adaptRefuse (.ite h.adaptRefuse (.ite h.adaptRefuse h.upd)))

theorem Mach.Canon.adaptSelect {ent} (h : m.Canon) : (adaptSelect ent m).Canon :=
  h.adaptTake (fun _ _ _ _ h => .ite h.adaptRefuse (.ite h.adaptRefuse h.upd))

theorem Mach.Canon.adaptCommit {ent} (h : m.Canon) : (adaptCommit ent m).Canon := by
  unfold Machine.adaptCommit
  refine h.adaptTake fun _ _ _ _ h => ?_
  extract_lets _
  split
  · exact h.adaptRefuse
  refine .ite h.commitBanks.adaptAbout ?_
  split
  · rename_i e
    have h1 := h.sealHead.of_snd e
    exact h1.commitBanks.adaptAbout
  rename_i e
  have h2 := h.sealHead.of_snd e
  exact h2.adaptRefuse

theorem Mach.Canon.adaptDiscard {ent} (h : m.Canon) : (adaptDiscard ent m).Canon := by
  unfold Machine.adaptDiscard
  refine h.adaptTake fun _ _ _ _ h => ?_
  refine .ite h.adaptRefuse ?_
  split
  · exact h.adaptRefuse
  exact h.upd.adaptAbout

theorem Mach.Canon.drawIvs {n} (h : m.Canon) : (m.drawIvs n).2.Canon := by
  induction n generalizing m with
  | zero => exact h
  | succ n ih => exact ih h.draw

theorem Mach.Canon.adaptExport {ent} (h : m.Canon) : (adaptExport ent m).Canon := by
  unfold Machine.adaptExport
  refine h.adaptTake fun _ _ _ _ h => ?_
  extract_lets _
  split
  · exact h.adaptRefuse
  split
  · split
    rename_i e1
    split
    rename_i e2
    split
    rename_i e3
    extract_lets _
    split
    rename_i e4
    have h1 := (((h.draw.of_snd e1).draw.of_snd e2).drawIvs.of_snd e3).makeBlob.of_snd e4
    exact h1.upd.adaptAbout
  exact h.adaptRefuse

theorem Mach.Canon.adaptClear {ent} (h : m.Canon) : (adaptClear ent m).Canon := h.adaptTake (fun _ _ _ _ h => .ite h.upd h.upd.adaptRefuse)
theorem Mach.Canon.adaptStatus {ent} (h : m.Canon) : (adaptStatus ent m).Canon := h.adaptTake (fun _ _ _ _ h => h.adaptReply)
theorem Mach.Canon.setRun {r} (h : m.Canon) : (m.setRun r).Canon := h.upd
theorem Mach.Canon.sectionLoaded {a r} (h : m.Canon) : (m.sectionLoaded a r).Canon := h.setRun.setStore.loadFabric.upd

theorem Mach.Canon.epochStart (h : m.Canon) : (epochStart m).Canon := by
  unfold Machine.epochStart
  split
  · exact .ite h (.ite h.gate h.gate.upd.setRun)
  exact h

theorem Mach.Canon.endPrograms {a r} (h : m.Canon) : (m.endPrograms a r).Canon := h.freeFabric.upd.setRun

theorem Mach.Canon.runEnd (h : m.Canon) : (runEnd m).Canon := by
  unfold Machine.runEnd
  split
  · refine .ite h <| .ite h.endPrograms <| .ite h ?_
    extract_lets _ _ _ m1
    have h1 : m1.Canon := .ite h.upd h.upd
    exact h1.endPrograms
  exact h

theorem Mach.Canon.runTimeout (h : m.Canon) : (runTimeout m).Canon := by
  unfold Machine.runTimeout
  split
  · exact .ite h.endPrograms h
  exact h

theorem Mach.Canon.reloaded {a r} (h : m.Canon) : (m.reloaded a r).Canon := by
  unfold Mach.reloaded
  split
  · exact h.setRun
  extract_lets _ _ _ _ _ _ _ m1 _ _ m2 _ m3
  have h1 : m1.Canon := h.upd.loadWeave
  clear_value m1
  have h2 : m2.Canon := (h1.withStack h).upd
  clear_value m2
  have h3 : m3.Canon := .ite h2.writeHead h2.writeHead.measureHead
  exact h3.upd.setRun

theorem Mach.Canon.runResult {r} (h : m.Canon) : (m.runResult r).Canon := by
  unfold Mach.runResult
  extract_lets _ _ _ m1
  have h1 : m1.Canon := h.upd.adaptReply
  clear_value m1
  refine .foldl ?_ fun _ h _ => h.upd.adaptRefuse
  exact h1.upd

end Sys2Proof.Machine
end

section
/-! PROOFS. O57: positions and the field side. -/
namespace Sys2Proof.Machine

-- One theorem after the other: checked all at once, so many short proofs ask for more threads than the memory limit lets start.
set_option Elab.async false

variable {m n : Mach}

/-! ### Pos -/

theorem Mach.Canon.countStep {e step close} (h : m.Canon) : (m.countStep e step close).Canon := by
  unfold Mach.countStep
  extract_lets _ _ _ m1
  have h1 : m1.Canon := h.setEnc.putBit.lotClose
  exact .ite h1.raiseEnc h1

theorem Mach.Canon.encoderStep {e a b close} (h : m.Canon) : (encoderStep e a b close m).Canon := by
  unfold Machine.encoderStep
  refine .ite h.setEnc ?_
  split
  · exact h.setEnc.raiseEnc
  exact .ite h.setEnc h.setEnc.countStep

theorem Mach.Canon.setPtrig {t x} (h : m.Canon) : (m.setPtrig t x).Canon := h.upd
theorem Mach.Canon.deliver {ports trail pos} (h : m.Canon) : (m.deliver ports trail pos).Canon := h.foldl (fun _ h _ => .ite h.marker h)
theorem Mach.Canon.leadAt {t pos} (h : m.Canon) : (m.leadAt t pos).Canon := h.setPtrig.setReg.deliver
theorem Mach.Canon.pitchMarker {t} (h : m.Canon) : (pitchMarker t m).Canon := .ite h.setPtrig.leadAt h

theorem Mach.Canon.trailingMarker {t} (h : m.Canon) : (trailingMarker t m).Canon := by
  unfold Machine.trailingMarker
  extract_lets _
  split
  · exact h
  exact h.setPtrig.deliver

theorem Mach.Canon.indexEdge {e} (h : m.Canon) : (indexEdge e m).Canon := by
  unfold Machine.indexEdge
  extract_lets _ _ _ m1 m2
  have h2 : m2.Canon := by
    unfold m2
    refine .ite ?_ h
    have h1 : m1.Canon := h.setReg64.setEnc
    exact .ite h1.raiseEnc h1
  exact h2.foldl (fun _ h _ => .ite h.leadAt h)

theorem Mach.Canon.ptWrite {t r v} (h : m.Canon) : (ptWrite t r v m).Canon := .ite h (.ite h.raisePos (.ite h.writeReg h.writeReg.setPtrig))
theorem Mach.Canon.encCmdLoad {e} (h : m.Canon) : (encCmdLoad e m).Canon := .ite h (.ite h.raiseEnc h.setEnc)
theorem Mach.Canon.encCfgWrite {e v} (h : m.Canon) : (encCfgWrite e v m).Canon := .ite h (.ite h.raiseEnc (.ite h.writeReg h.writeReg.setEnc))
theorem Mach.Canon.obsG3Write {e v} (h : m.Canon) : (obsG3Write e v m).Canon := .ite h (.ite h.raiseEnc h.setReg.setEnc)
theorem Mach.Canon.raiseOvs {b} (h : m.Canon) : (m.raiseOvs b).Canon := h.upd.putBit.inc.raiseEnc

theorem Mach.Canon.observerUpdate {e} (h : m.Canon) : (observerUpdate e m).Canon := by
  unfold Machine.observerUpdate
  extract_lets _ _ _ m1
  have h1 : m1.Canon := h.setEnc.setReg.setReg.setReg
  split
  · exact h1
  exact .ite h1.raiseOvs h1

theorem Mach.Canon.overspeedClear {e} (h : m.Canon) : (overspeedClear e m).Canon := .ite h.putBit h

theorem Mach.Canon.inputMarker {i level te ta late} (h : m.Canon) : (m.inputMarker i level te ta late).Canon := by
  unfold Mach.inputMarker
  extract_lets _ _ _ _ m1
  have h1 : m1.Canon := by
    unfold m1
    refine h.foldl fun _ h _ => ?_
    refine .ite ?_ h
    refine .ite h.setPtrig.setReg.deliver ?_
    split
    · exact h.setPtrig.deliver
    exact h
  exact .ite h1.raisePos h1

theorem Mach.Canon.lateCheck (h : m.Canon) : (lateCheck m).Canon := h.foldl (fun _ h _ => .ite h.commitRecord.inc.raisePos h)

theorem Mach.Canon.backstop {idx} (h : m.Canon) : (backstop idx m).Canon := by
  unfold Machine.backstop
  split
  · exact h
  split
  · exact h
  exact .ite h.commitRecord h

theorem Mach.Canon.posSnapCapture (h : m.Canon) : (posSnapCapture m).Canon := .ite h (h.foldl (fun _ h _ => h.setReg64))

/-! ### Field -/

theorem Mach.Canon.setFldSt {f} (h : m.Canon) : (m.setFldSt f).Canon := h.upd
theorem Mach.Canon.commandOuts (h : m.Canon) : m.commandOuts.Canon := .ite h h.setFldSt
theorem Mach.Canon.queueCfg {a d} (h : m.Canon) : (m.queueCfg a d).Canon := h.setFldSt.putBit
theorem Mach.Canon.fldCmdResume (h : m.Canon) : (fldCmdResume m).Canon := .ite h.queueCfg h
theorem Mach.Canon.fldCmdForceSafe (h : m.Canon) : (fldCmdForceSafe m).Canon := .ite h.queueCfg h
theorem Mach.Canon.fldOcClear {v} (h : m.Canon) : (fldOcClear v m).Canon := .ite h (.ite h.writeReg h.writeReg.queueCfg)
theorem Mach.Canon.fldOutHostWrite {v} (h : m.Canon) : (fldOutHostWrite v m).Canon := .ite h.writeReg.commandOuts h

theorem Mach.Canon.configurationWrite {r v} (h : m.Canon) : (configurationWrite r v m).Canon := by
  unfold Machine.configurationWrite
  refine .ite h ?_
  split
  · exact h.setReg.queueCfg
  · exact h.setReg.queueCfg.queueCfg
  · exact h.setReg.queueCfg
  exact h.writeReg.queueCfg

theorem Mach.Canon.downFrame (h : m.Canon) : (downFrame m).Canon := by
  unfold Machine.downFrame
  refine .ite h ?_
  extract_lets _ _ _
  split
  · exact h.putBit.setFldSt
  exact .ite h.putBit.setFldSt.raiseFld h.putBit.setFldSt

theorem Mach.Canon.setSide {x} (h : m.Canon) : (m.setSide x).Canon := h.setFldSt
theorem Mach.Canon.fldNote {f} (h : m.Canon) (hk : ∀ (n : Mach), n.Canon → (f n).Canon) : (m.fldNote f).Canon := .ite h (hk _ h)

theorem Mach.Canon.enterSafe {silence} (h : m.Canon) : (m.enterSafe silence).Canon :=
  .ite h (h.setSide.fldNote (fun _ h => .ite h.inc.raiseFld h.inc))

theorem Mach.Canon.loseDown (h : m.Canon) : m.loseDown.Canon := .ite h.setSide.enterSafe h

theorem Mach.Canon.downArrives {fr k} (h : m.Canon) (hk : ∀ x1 (n : Mach), n.Canon → (k x1 n).Canon) : (m.downArrives fr k).Canon := by
  unfold Mach.downArrives
  refine .ite ?_ (.ite (hk _ _ h.setFldSt.setSide) (h.setFldSt.setSide.fldNote (fun _ h => h.inc)))
  extract_lets m1
  have h1 : m1.Canon := h.setFldSt.setSide.fldNote (fun _ h => h.inc.raiseFld)
  exact .ite h1.loseDown h1

theorem Mach.Canon.downOfKind {fr kind k} (h : m.Canon) (hk : ∀ x1 (n : Mach), n.Canon → (k x1 n).Canon) : (m.downOfKind fr kind k).Canon :=
  .ite (h.downArrives hk) h

theorem Mach.Canon.eventFrame {fr} (h : m.Canon) : (eventFrame fr m).Canon := h.downOfKind (fun _ _ h => .ite h (.ite h h.setSide))

theorem Mach.Canon.stateApply (h : m.Canon) : (stateApply m).Canon := by
  unfold Machine.stateApply
  extract_lets _
  split
  · exact .ite h.setSide h
  exact h

theorem Mach.Canon.configurationFrame {fr} (h : m.Canon) : (configurationFrame fr m).Canon := by
  unfold Machine.configurationFrame
  refine h.downOfKind fun _ _ h => ?_
  extract_lets _
  split
  · exact h.setSide
  exact h

theorem Mach.Canon.fldResume {fr} (h : m.Canon) : (fldResume fr m).Canon := h.downOfKind (fun _ _ h => h.setSide)
theorem Mach.Canon.fldForceSafe {fr} (h : m.Canon) : (fldForceSafe fr m).Canon := h.downOfKind (fun _ _ h => h.setSide.enterSafe)
theorem Mach.Canon.sideRuns {f} (h : m.Canon) (hk : ∀ (n : Mach), n.Canon → (f n).Canon) : (m.sideRuns f).Canon := .ite (hk _ h) h
theorem Mach.Canon.inputEdge {i level} (h : m.Canon) : (inputEdge i level m).Canon := h.sideRuns (fun _ h => .ite h h.setSide)
theorem Mach.Canon.silenceTimeout (h : m.Canon) : (silenceTimeout m).Canon := h.sideRuns (fun _ h => .ite h h.enterSafe)
theorem Mach.Canon.downLockLoss (h : m.Canon) : (downLockLoss m).Canon := h.sideRuns (fun _ h => .ite h h.loseDown)
theorem Mach.Canon.controllerStart (h : m.Canon) : (controllerStart m).Canon := .ite h (h.setSide.fldNote (fun _ h => h.inc))
theorem Mach.Canon.lplusUv (h : m.Canon) : (lplusUv m).Canon := h.sideRuns (fun _ h => h.setSide)
theorem Mach.Canon.lplusOk (h : m.Canon) : (lplusOk m).Canon := h.sideRuns (fun _ h => h.setSide)
theorem Mach.Canon.overcurrent {i} (h : m.Canon) : (overcurrent i m).Canon := h.sideRuns (fun _ h => h.setSide)
theorem Mach.Canon.wireBreak {i} (h : m.Canon) : (wireBreak i m).Canon := h.sideRuns (fun _ h => .ite h.setSide h)
theorem Mach.Canon.wireBreakClear {i} (h : m.Canon) : (wireBreakClear i m).Canon := h.sideRuns (fun _ h => h.setSide)
theorem Mach.Canon.fieldSideOvertemp {on} (h : m.Canon) : (fieldSideOvertemp on m).Canon := h.sideRuns (fun _ h => h.setSide)
theorem Mach.Canon.upFrameSend (h : m.Canon) : (upFrameSend m).Canon := h.sideRuns (fun _ h => .ite h h.setSide.setFldSt)

theorem Mach.Canon.follow {a bit v} (h : m.Canon) : (m.follow a bit v).Canon := by
  unfold Mach.follow
  extract_lets _ _ _ m1
  have h1 : m1.Canon := h.setReg.foldl (fun _ h _ => .ite h.upd h)
  exact .ite h1 h1.raiseFld

theorem Mach.Canon.diagnostic {fr} (h : m.Canon) : (m.diagnostic fr).Canon := by
  unfold Mach.diagnostic
  refine .ite h.follow <| .ite h.follow ?_
  split
  · extract_lets _ _ _ _ m1 m2
    have h1 : m1.Canon := h.putBit.putBit.putBit
    have h2 : m2.Canon := .ite h1.raiseFld h1
    exact .ite h2.raiseFld h2
  split
  · exact h
  exact .ite h.setFldSt.putBit h

theorem Mach.Canon.edgeReport {fr j} (h : m.Canon) : (m.edgeReport fr j).Canon := by
  unfold Mach.edgeReport
  refine .ite h ?_
  extract_lets _ _ _ _ m1
  have h1 : m1.Canon := .ite h.inc.raiseFld h.inc
  exact h1.inputMarker

theorem Mach.Canon.loseUp (h : m.Canon) : m.loseUp.Canon := .ite h.setFldSt.putBit.raiseFld h

theorem Mach.Canon.upFrame {fr} (h : m.Canon) : (upFrame fr m).Canon := by
  unfold Machine.upFrame
  refine .ite h <| .ite ?_ (.ite h.setFldSt.inc (.ite h.setFldSt.setReg.diagnostic h.setFldSt.setReg.setReg.setFldSt.edgeReport))
  extract_lets m1
  have h1 : m1.Canon := h.setFldSt.inc.raiseFld
  exact .ite h1.loseUp h1

theorem Mach.Canon.upLock (h : m.Canon) : (upLock m).Canon := by
  unfold Machine.upLock
  refine .ite h ?_
  extract_lets +onlyGivenNames _ m1
  have h1 : m1.Canon := h.putBit.foldl (fun _ h _ => h.queueCfg)
  exact h1.queueCfg.queueCfg.queueCfg.queueCfg

theorem Mach.Canon.upLost (h : m.Canon) : (upLost m).Canon := .ite h h.loseUp
theorem Mach.Canon.rbMis {i} (h : m.Canon) : (rbMis i m).Canon := .ite h.putBit.raiseFld h
theorem Mach.Canon.actFieldSafe {r} (h : m.Canon) : (actFieldSafe r m).Canon := h.act (fun _ _ h => h.queueCfg)

theorem Mach.Canon.actFieldResume {r} (h : m.Canon) : (actFieldResume r m).Canon := by
  unfold Machine.actFieldResume
  split
  · exact h
  exact h.upd

theorem Mach.Canon.actFieldResumeWaitEnd {r} (h : m.Canon) : (actFieldResumeWaitEnd r m).Canon := by
  unfold Machine.actFieldResumeWaitEnd
  split
  · exact h
  exact .ite h.upd.queueCfg.endAction (.ite h.upd.endAction h)

end Sys2Proof.Machine
end

section
/-! PROOFS. O57: lanes and links. -/
namespace Sys2Proof.Machine

-- One theorem after the other: checked all at once, so many short proofs ask for more threads than the memory limit lets start.
set_option Elab.async false

variable {m n : Mach}

/-! ### Lane -/

theorem Mach.Canon.setCl {j hi lo v} (h : m.Canon) : (m.setCl j hi lo v).Canon := .ite h.setFld h
theorem Mach.Canon.setTaps {j pre post} (h : m.Canon) : (m.setTaps j pre post).Canon := h.setReg
theorem Mach.Canon.setRpState {p s} (h : m.Canon) : (m.setRpState p s).Canon := h.setFld
theorem Mach.Canon.showTx {k} (h : m.Canon) : (m.showTx k).Canon := h.foldl (fun _ h _ => .ite h h.setLane)

theorem Mach.Canon.startLane {j} (h : m.Canon) : (m.startLane j).Canon := by
  unfold Mach.startLane
  extract_lets c _ m1
  have h1 : m1.Canon := h.setLane
  clear_value c m1
  split
  · exact .ite h1.setReg h1
  exact .ite h1.setTaps.setReg h1.setTaps

theorem Mach.Canon.startLink {k} (h : m.Canon) : (m.startLink k).Canon := by
  unfold Mach.startLink
  extract_lets +onlyGivenNames m1
  have h1 : m1.Canon := h.foldl (fun _ h _ => h.startLane)
  exact .showTx (.ite h1.setLink.setLstate.setFld h1.setLink.setReg)

theorem Mach.Canon.classify {k sel cable} (h : m.Canon) : (m.classify k sel cable).Canon := h.foldl (fun _ h _ => .ite h.setLane.raiseLnk h.setLane)

theorem Mach.Canon.failCam {k bit} (h : m.Canon) : (m.failCam k bit).Canon := by
  unfold Mach.failCam
  extract_lets +onlyGivenNames m1
  have h1 : m1.Canon := h.foldl (fun _ h _ => h.setCl)
  exact h1.setLink.showTx.raiseLnk

theorem Mach.Canon.downLink {p} (h : m.Canon) : (m.downLink p).Canon := .ite h.raiseLnk.upd.startLink h.raiseLnk.upd.setLink.showTx.setReg
theorem Mach.Canon.failRing {p bit} (h : m.Canon) : (m.failRing p bit).Canon := h.setLink.showTx.raiseLnk

theorem Mach.Canon.portOff {p} (h : m.Canon) : (m.portOff p).Canon := by
  unfold Mach.portOff
  refine .ite h ?_
  extract_lets _ _ _ _ m1
  have h1 : m1.Canon := h.endAcquisition.putBit.putBit.foldl (fun _ h _ => h.setLane.setReg)
  exact h1.setLink.setReg

theorem Mach.Canon.freshPort {p} (h : m.Canon) : (m.freshPort p).Canon := h.setReg.setReg64.setReg.setReg.setFld.setPort

theorem Mach.Canon.portEnable {p v cable} (h : m.Canon) : (portEnable p v cable m).Canon :=
  .ite h (.ite (.ite h h.raisePort) (.ite h.writeReg.putBit.raisePort h.writeReg.freshPort.classify.startLink))

theorem Mach.Canon.portDisable {p v} (h : m.Canon) : (portDisable p v m).Canon := .ite h (.ite h.writeReg (.ite h.portOff h.raisePort))
theorem Mach.Canon.onLocked {k} (h : m.Canon) : (m.onLocked k).Canon := .ite h (.ite h.setLink h.setLink)

theorem Mach.Canon.blockLock {lane marker inv} (h : m.Canon) : (blockLock lane marker inv m).Canon := by
  unfold Machine.blockLock
  extract_lets +onlyGivenNames _
  split
  · exact h
  refine .ite h ?_
  extract_lets +onlyGivenNames _ m1 m2
  have h1 : m1.Canon := h.setLane.setCl
  have h2 : m2.Canon := .ite h1.putBit h1
  exact .ite h2.onLocked (.ite h2.putBit (.ite h2.putBit.failRing h2.putBit.onLocked))

theorem Mach.Canon.relock {k} (h : m.Canon) : (m.relock k).Canon := by
  unfold Mach.relock
  extract_lets +onlyGivenNames _ m1
  have h1 : m1.Canon := h.closeFrame.raisePort.foldl (fun _ h _ => h.setLane.setCl.setCl)
  exact .ite h1.setLink h1.setLink.setLstate

theorem Mach.Canon.camLost {k} (h : m.Canon) : (m.camLost k).Canon := by
  unfold Mach.camLost
  split
  any_goals exact h.failCam
  · exact h.relock
  · exact h.relock
  exact h

/-! ### Rill -/

theorem Mach.Canon.setRing {r} (h : m.Canon) : (m.setRing r).Canon := h.upd
theorem Mach.Canon.takeTb2 (h : m.Canon) : m.takeTb2.Canon := .ite h (.ite h.upd.putBit h.upd)
theorem Mach.Canon.showRing (h : m.Canon) : m.showRing.Canon := h.setReg.putBit.setFld.setFld.setFld.setReg
theorem Mach.Canon.ringView (h : m.Canon) : m.ringView.Canon := h.takeTb2.showRing
theorem Mach.Canon.emitFrame {p f} (h : m.Canon) : (m.emitFrame p f).Canon := .ite h.setLink h.setLink

theorem Mach.Canon.sendBy {p ty f hops} (h : m.Canon) : (m.sendBy p ty f hops).Canon :=
  .ite h (.ite (.ite h.raiseLnk h.emitFrame) (.ite h.emitFrame h.inc.raiseLnk))

theorem Mach.Canon.tookSeq {session ty dst} (h : m.Canon) : (m.tookSeq session ty dst).Canon := h.upd
theorem Mach.Canon.sendOut {p ty dst f} (h : m.Canon) : (m.sendOut p ty dst f).Canon := h.foldl (fun _ h _ => h.sendBy)
theorem Mach.Canon.sendClear {p ty dst spec} (h : m.Canon) : (m.sendClear p ty dst spec).Canon := .ite h.sendOut.tookSeq h

theorem Mach.Canon.sendSealed {p ty dst spec payload} (h : m.Canon) : (m.sendSealed p ty dst spec payload).Canon := by
  unfold Mach.sendSealed
  refine .ite h ?_
  split
  · exact h.inc.raiseSec
  exact .ite h.inc.raiseSec h.sendOut.tookSeq

theorem Mach.Canon.setWrap {p on} (h : m.Canon) : (m.setWrap p on).Canon := h.setLink.putBit.upd.raiseLnk.sendClear
theorem Mach.Canon.faultLink {p} (h : m.Canon) : (m.faultLink p).Canon := .ite h.downLink.setWrap h.downLink
theorem Mach.Canon.ringPortOff {p} (h : m.Canon) : (m.ringPortOff p).Canon := .ite h (.ite h.putBit.faultLink h.putBit.setLink.showTx.setReg)

/-! ### Bringup -/

theorem Mach.Canon.laneLost {j} (h : m.Canon) : (m.laneLost j).Canon := by
  unfold Mach.laneLost
  refine .ite h ?_
  extract_lets _ m1
  have h1 : m1.Canon := h.setLane.setCl
  split
  · exact h1
  exact .ite h1.raiseLnk.camLost h1.faultLink

theorem Mach.Canon.badHeaders {j n} (h : m.Canon) : (m.badHeaders j n).Canon := .ite h.addReg h
theorem Mach.Canon.blockLockLoss {lane bad} (h : m.Canon) : (blockLockLoss lane bad m).Canon := .ite h h.badHeaders.laneLost
theorem Mach.Canon.windowFault {lane bad} (h : m.Canon) : (windowFault lane bad m).Canon := .ite h (.ite h.badHeaders h.badHeaders.faultLink)
theorem Mach.Canon.lockTimeout {port} (h : m.Canon) : (lockTimeout port m).Canon := .ite h (.ite h.failCam h.setLink)

theorem Mach.Canon.presetRetry {p} (h : m.Canon) : (presetRetry p m).Canon := by
  unfold Machine.presetRetry
  refine .ite h <| .ite ?_ h.raiseLnk.startLink
  extract_lets _ m1
  have h1 : m1.Canon := h.foldl (fun _ h _ => h.setTaps)
  exact h1.setLink

theorem Mach.Canon.bringupRetry {port} (h : m.Canon) : (bringupRetry port m).Canon := .ite h.startLink h
theorem Mach.Canon.relockTimeout {p} (h : m.Canon) : (relockTimeout p m).Canon := .ite h.startLink h
theorem Mach.Canon.askPartner {k j} (h : m.Canon) : (m.askPartner k j).Canon := .ite h.upd h

theorem Mach.Canon.beginAdapt {k} (h : m.Canon) : (m.beginAdapt k).Canon := by
  unfold Mach.beginAdapt
  extract_lets +onlyGivenNames _ m1
  have h1 : m1.Canon := h.foldl (fun _ h _ => h.setLane)
  exact .ite (h1.setLink.foldl (fun _ h _ => h.setCl)) h1.setLink.setRpState.putBit

theorem Mach.Canon.mapLanes {k} (h : m.Canon) : (m.mapLanes k).Canon := by
  unfold Mach.mapLanes
  refine .ite h ?_
  extract_lets +onlyGivenNames m1
  have h1 : m1.Canon := h.foldl (fun _ h _ => h.setCl)
  refine .ite ?_ h1.failCam
  extract_lets +onlyGivenNames m2
  have h2 : m2.Canon := h1.foldl (fun _ h _ => h.setCl)
  exact h2.setLink

theorem Mach.Canon.pairLanes {k} (h : m.Canon) : (m.pairLanes k).Canon := h.foldl (fun _ h _ => .ite h.setCl.setCl h)

theorem Mach.Canon.bothReady {k} (h : m.Canon) : (m.bothReady k).Canon := by
  unfold Mach.bothReady
  refine .ite ?_ h
  extract_lets +onlyGivenNames m1
  have h1 : m1.Canon := h.foldl (fun _ h _ => h.setCl)
  exact h1.setLink

theorem Mach.Canon.trainAlong {k} (h : m.Canon) : (m.trainAlong k).Canon := .ite h.beginAdapt h

theorem Mach.Canon.trainingBlock {lane o inv} (h : m.Canon) : (trainingBlock lane o inv m).Canon := by
  unfold Machine.trainingBlock
  extract_lets _
  split
  · exact h
  refine .ite h ?_
  extract_lets m1 m2 m3 m4
  have h1 : m1.Canon := .ite h h.trainAlong
  have h2 : m2.Canon := h1.setLane.askPartner
  have h3 : m3.Canon := .ite h2.mapLanes h2
  have h4 : m4.Canon := .ite h3.pairLanes.bothReady h3
  exact h4.showTx

theorem Mach.Canon.updateTaps {j} (h : m.Canon) : (m.updateTaps j).Canon := by
  unfold Mach.updateTaps
  extract_lets +onlyGivenNames _
  split <;> exact h.setLane.setTaps

theorem Mach.Canon.tapUpdate {lane} (h : m.Canon) : (tapUpdate lane m).Canon := by
  unfold Machine.tapUpdate
  refine .ite h ?_
  split
  · exact h.updateTaps
  exact h.updateTaps.showTx

theorem Mach.Canon.checkPassed {k} (h : m.Canon) : (m.checkPassed k).Canon := by
  unfold Mach.checkPassed
  refine .ite ?_ h.setLink.setRpState
  extract_lets m1
  have h1 : m1.Canon := h.foldl (fun _ h _ => h.setLane)
  exact h1.pairLanes.setLink.showTx

theorem Mach.Canon.qualityCheck {port bad} (h : m.Canon) : (qualityCheck port bad m).Canon := by
  unfold Machine.qualityCheck
  refine .ite h ?_
  extract_lets _ m1
  have h1 : m1.Canon := h.foldl (fun _ h _ => h.badHeaders)
  exact .ite h1.checkPassed (.ite h1.beginAdapt.showTx (.ite h1.failCam h1.failRing))

theorem Mach.Canon.adaptiveTrainingEnd {port} (h : m.Canon) : (adaptiveTrainingEnd port m).Canon := by
  unfold Machine.adaptiveTrainingEnd
  refine .ite h ?_
  extract_lets m1 m2
  have h1 : m1.Canon := h.foldl (fun _ h _ => h.setLane)
  have h2 : m2.Canon := h1.setLink.showTx
  exact .ite (h2.foldl (fun _ h _ => h.setCl)) h2

theorem Mach.Canon.deskewDone {port skew} (h : m.Canon) : (deskewDone port skew m).Canon := by
  unfold Machine.deskewDone
  refine .ite h <| .ite (.ite h.failCam h.failRing) <| .ite ?_ h.setLink
  extract_lets +onlyGivenNames m1
  have h1 : m1.Canon := h.foldl (fun _ h _ => h.setCl)
  exact .ite h1.setLink h1.setLink.enterVersion

theorem Mach.Canon.ringLinkEnable {p v cable} (h : m.Canon) : (ringLinkEnable p v cable m).Canon :=
  .ite h (.ite h.ringPortOff.setReg (.ite h.setReg h.setReg.classify.startLink))

theorem Mach.Canon.ringRetrain {p} (h : m.Canon) : (ringRetrain p m).Canon := .ite h.faultLink h
theorem Mach.Canon.ringLinkFault {p} (h : m.Canon) : (ringLinkFault p m).Canon := .ite h.faultLink h
theorem Mach.Canon.weirInsert {v} (h : m.Canon) : (weirInsert v m).Canon := .ite h h.setFld.putBit

theorem Mach.Canon.weirSwitchDone {plane settled} (h : m.Canon) : (weirSwitchDone plane settled m).Canon := by
  unfold Machine.weirSwitchDone
  refine .ite h ?_
  extract_lets _ m1
  have h1 : m1.Canon := .ite h.putBit h.raiseLnk
  exact h1.putBit

theorem Mach.Canon.actPortOff {r} (h : m.Canon) : (actPortOff r m).Canon := by
  unfold Machine.actPortOff
  refine h.act fun _ _ h => ?_
  split
  · exact h.portOff
  exact h

theorem Mach.Canon.actRingPortOff {r} (h : m.Canon) : (actRingPortOff r m).Canon := by
  unfold Machine.actRingPortOff
  refine h.act fun _ _ h => ?_
  split
  · exact h.ringPortOff
  exact h

end Sys2Proof.Machine
end

section
/-! PROOFS. O57: the tick and the bundle, power and resets, the ring, time and spouts. -/
namespace Sys2Proof.Machine

-- One theorem after the other: checked all at once, so many short proofs ask for more threads than the memory limit lets start.
set_option Elab.async false

variable {m n : Mach}

/-! ### Bundle -/

theorem Mach.Canon.settle {t n} (h : m.Canon) : (m.settle t n).Canon := by
  induction n generalizing m with
  | zero => exact h
  | succ n ih => exact .ite (ih h.tick) h

theorem Mach.Canon.room {t sl} (h : m.Canon) : (m.room t sl).Canon := by
  unfold Mach.room
  extract_lets +onlyGivenNames _ m1
  have h1 : m1.Canon := .ite h.advanceTo.offer.endBundle h.advanceTo
  exact .ite h1.settle.tick h1.settle

theorem Mach.Canon.present {t i} (h : m.Canon) : (m.present t i).Canon := .ite h (.ite h.room (.ite h.room.offer.endBundle h.room.offer))

/-! ### Power -/

theorem Mach.Canon.moduleReset {cause p} (_ : m.Canon) : (m.moduleReset cause p).Canon := canon_reset.upd
theorem Mach.Canon.powerOn (h : m.Canon) : (powerOn m).Canon := .ite h h.upd
theorem Mach.Canon.powerLoss (h : m.Canon) : (powerLoss m).Canon := .ite h.moduleReset h
theorem Mach.Canon.mrst (h : m.Canon) : (mrst m).Canon := .ite h.moduleReset h
theorem Mach.Canon.glbRst {v} (h : m.Canon) : (glbRst v m).Canon := .ite h.moduleReset h
theorem Mach.Canon.dexzonReset (h : m.Canon) : (dexzonReset m).Canon := .ite h.moduleReset h
theorem Mach.Canon.setTemp {i t} (h : m.Canon) : (m.setTemp i t).Canon := h.setReg
theorem Mach.Canon.thermalTrip {sensor t} (h : m.Canon) : (thermalTrip sensor t m).Canon := .ite h.moduleReset.setTemp h
theorem Mach.Canon.regulatorFault (h : m.Canon) : (regulatorFault m).Canon := .ite h.moduleReset h
theorem Mach.Canon.resetRelease (h : m.Canon) : (resetRelease m).Canon := .ite h.upd.setReg h
theorem Mach.Canon.clockAlignment {fails} (h : m.Canon) : (clockAlignment fails m).Canon := .ite h (.ite h.upd h.upd.raiseClk)
theorem Mach.Canon.ddrReady (h : m.Canon) : (ddrReady m).Canon := .ite h (.ite h.upd.putBit h.upd)
theorem Mach.Canon.refLoss (h : m.Canon) : (refLoss m).Canon := .ite h.upd.raiseClk h
theorem Mach.Canon.refRestored (h : m.Canon) : (refRestored m).Canon := .ite h.upd h
theorem Mach.Canon.pllUnlock {d} (h : m.Canon) : (pllUnlock d m).Canon := .ite h.upd.raiseClk h
theorem Mach.Canon.pllRelock {d} (h : m.Canon) : (pllRelock d m).Canon := .ite h.upd h
theorem Mach.Canon.phaseDrift (h : m.Canon) : (phaseDrift m).Canon := .ite h.raiseClk h
theorem Mach.Canon.pgFault {d} (h : m.Canon) : (pgFault d m).Canon := .ite h.upd.raiseClk h
theorem Mach.Canon.thermWarn {sensor t} (h : m.Canon) : (thermWarn sensor t m).Canon := .ite h.upd.setTemp.raiseClk h
theorem Mach.Canon.thermCrit {sensor t} (h : m.Canon) : (thermCrit sensor t m).Canon := .ite h.upd.setTemp.raiseClk h
theorem Mach.Canon.setTemps {ts} (h : m.Canon) : (m.setTemps ts).Canon := h.foldl (fun _ h _ => .ite h.setTemp h)
theorem Mach.Canon.thermWarnClear {ts} (h : m.Canon) : (thermWarnClear ts m).Canon := .ite h.upd.setTemps h
theorem Mach.Canon.setVin {v} (h : m.Canon) : (m.setVin v).Canon := h.setFld
theorem Mach.Canon.vinUv {v} (h : m.Canon) : (vinUv v m).Canon := .ite h.upd.setVin.raiseClk h
theorem Mach.Canon.vinOv {v} (h : m.Canon) : (vinOv v m).Canon := .ite h.upd.setVin.raiseClk h
theorem Mach.Canon.vinInRange {v} (h : m.Canon) : (vinInRange v m).Canon := .ite h.upd.setVin h
theorem Mach.Canon.overpower {pkg mod} (h : m.Canon) : (overpower pkg mod m).Canon := .ite h.setReg.raiseClk h
theorem Mach.Canon.freeQueueEngines (h : m.Canon) : m.freeQueueEngines.Canon := h.foldl (fun _ h _ => h.setEngine)

theorem Mach.Canon.hifReset (h : m.Canon) : m.hifReset.Canon := by
  refine .freeQueueEngines ?_
  obtain ⟨hm, hr⟩ := h
  dsimp only [Mach.Canon]
  exact ⟨hm, FMap.wf_clear hr⟩

theorem Mach.Canon.perst (h : m.Canon) : (perst m).Canon := .ite h.hifReset h
theorem Mach.Canon.functionLevelReset (h : m.Canon) : (functionLevelReset m).Canon := .ite h.hifReset h
theorem Mach.Canon.d3hot {enter} (h : m.Canon) : (d3hot enter m).Canon := .ite h.upd h

/-! ### Ring -/

theorem Mach.Canon.scrubbed (h : m.Canon) : m.scrubbed.Canon := by
  unfold Mach.scrubbed
  split
  · exact h.upd
  exact h

theorem Mach.Canon.consume {p ty f k} (h : m.Canon) (hk : ∀ x1 (n : Mach), n.Canon → (k x1 n).Canon) : (m.consume p ty f k).Canon := by
  unfold Mach.consume
  split
  · exact h.raiseLnk
  exact hk _ _ (.ite h.upd h)

theorem Mach.Canon.forward {p ty f} (h : m.Canon) : (m.forward p ty f).Canon := .ite h.sendBy h

theorem Mach.Canon.receive {p ty f onward k} (h : m.Canon) (hk : ∀ x1 (n : Mach), n.Canon → (k x1 n).Canon) : (m.receive p ty f onward k).Canon :=
  .ite h (.ite h.scrubbed (.ite (h.consume hk) (.ite (.ite h (.consume (.ite h.forward h) hk)) h.forward)))

theorem Mach.Canon.frameCrcFail {p k} (h : m.Canon) : (frameCrcFail p k m).Canon := by
  unfold Machine.frameCrcFail
  refine .ite h ?_
  split
  · exact h.inc.raiseLnk
  · exact h.raiseLnk
  exact h.raiseLnk

theorem Mach.Canon.ringXoff {p cls} (h : m.Canon) : (ringXoff p cls m).Canon := .ite h.setLink h
theorem Mach.Canon.ringXon {p cls} (h : m.Canon) : (ringXon p cls m).Canon := .ite h h.setLink
theorem Mach.Canon.sendNear {p ty spec} (h : m.Canon) : (m.sendNear p ty spec).Canon := .ite h h.emitFrame.tookSeq
theorem Mach.Canon.rillVerSend {p} (h : m.Canon) : (rillVerSend p m).Canon := .ite h.sendNear h

theorem Mach.Canon.rillVer {p f} (h : m.Canon) : (rillVer p f m).Canon := by
  unfold Machine.rillVer
  refine .ite h <| .ite h.scrubbed ?_
  extract_lets _ _ m1
  have h1 : m1.Canon := h.setLink.setFld.setFld
  exact .ite h1.setRpState.raiseLnk (.ite h1.setRpState.raiseLnk h1.setFld.sendNear)

theorem Mach.Canon.ringActive {p} (h : m.Canon) : (m.ringActive p).Canon := by
  unfold Mach.ringActive
  extract_lets +onlyGivenNames _ _ _ m1
  have h1 : m1.Canon := .ite h.setReg.raiseLnk h.setReg
  exact h1.setLink.setRpState

theorem Mach.Canon.rillEcho {p f t} (h : m.Canon) : (rillEcho p f t m).Canon :=
  .ite h (.ite h.scrubbed (.ite h.sendNear (.ite h (.ite h.setLink.sendNear h.setLink.ringActive))))

theorem Mach.Canon.helloSend (h : m.Canon) : (helloSend m).Canon := by
  unfold Machine.helloSend
  extract_lets _ _ m1
  have h1 : m1.Canon := .ite h.sendClear h
  exact .ite h1.sendClear h1

theorem Mach.Canon.ringHello {p f} (h : m.Canon) : (ringHello p f m).Canon :=
  .ite h.putBit.raiseLnk (h.receive (fun _ _ h => .ite h.setRing.ringView h))

theorem Mach.Canon.memberExpiry {k} (h : m.Canon) : (memberExpiry k m).Canon := by
  unfold Machine.memberExpiry
  split
  · exact h
  exact .ite h h.setRing.ringView

theorem Mach.Canon.tokenSend (h : m.Canon) : (tokenSend m).Canon := .ite h.sendClear.setRing.showRing h
theorem Mach.Canon.ringToken {p f} (h : m.Canon) : (ringToken p f m).Canon := h.receive (fun _ _ h => .ite h.setRing.showRing h)

theorem Mach.Canon.tokenExpiry (h : m.Canon) : (tokenExpiry m).Canon := by
  unfold Machine.tokenExpiry
  refine .ite h ?_
  extract_lets +onlyGivenNames _ m1
  have h1 : m1.Canon := h.setRing.raiseLnk
  exact .ite h1.setRing.raiseLnk.showRing h1.showRing

theorem Mach.Canon.tokenPass (h : m.Canon) : (tokenPass m).Canon := .ite h.sendClear.setRing.showRing h
theorem Mach.Canon.tb2syncSend (h : m.Canon) : (tb2syncSend m).Canon := .ite h.sendClear.sendClear h
theorem Mach.Canon.tb2sync {p f} (h : m.Canon) : (tb2sync p f m).Canon := h.receive (fun _ _ h => .ite h (.ite h.setRing h.upd.putBit.forward))
theorem Mach.Canon.tb2Lost (h : m.Canon) : (tb2Lost m).Canon := .ite h.setRing.putBit.raiseLnk h
theorem Mach.Canon.ringWrapn {p f} (h : m.Canon) : (ringWrapn p f m).Canon := h.receive (fun _ _ h => h.upd)
theorem Mach.Canon.unwrapHoldoff {p} (h : m.Canon) : (unwrapHoldoff p m).Canon := .ite h.setWrap h
theorem Mach.Canon.unwrap (h : m.Canon) : (unwrap m).Canon := .ite (h.foldl (fun _ h _ => .ite h.setWrap h)) h
theorem Mach.Canon.ringWrite {p f} (h : m.Canon) : (ringWrite p f m).Canon := h.receive (fun _ _ h => h.upd)
theorem Mach.Canon.answerDrops (h : m.Canon) : m.answerDrops.Canon := h.setRing.foldl (fun _ h _ => h.sendClear)
theorem Mach.Canon.remoteWriteArrival {i} (h : m.Canon) : (remoteWriteArrival i m).Canon := h.arriveFlight.answerDrops.prepDrops

theorem Mach.Canon.ringDrop {p f} (h : m.Canon) : (ringDrop p f m).Canon := by
  unfold Machine.ringDrop
  refine h.receive fun _ _ h => ?_
  extract_lets +onlyGivenNames m1
  have h1 : m1.Canon := h.incFld.raiseLnk
  exact .ite h1 h1.setReg.setReg.putBit

theorem Mach.Canon.ringFrames {plane r} (h : m.Canon) : (m.ringFrames plane r).Canon := h.foldl (fun _ h _ => h.sendSealed)

theorem Mach.Canon.ringFlush {plane rs} (h : m.Canon) : (m.ringFlush plane rs).Canon := by
  induction rs generalizing m with
  | nil => exact h
  | cons r rs ih =>
    refine .ite (ih h) <| .ite h ?_
    extract_lets _ m1
    have h1 : m1.Canon := .ite h h.ringFrames
    exact ih h1.setRingEng

theorem Mach.Canon.launchRing {plane d index pass} (h : m.Canon) : (m.launchRing plane d index pass).Canon := h.upd.setRingEng.ringFlush

theorem Mach.Canon.ringPlanDescriptor {plane} (h : m.Canon) : (ringPlanDescriptor plane m).Canon := by
  unfold Machine.ringPlanDescriptor
  split
  · exact h
  extract_lets m1
  have h1 : m1.Canon := h.advanceTo
  split
  rename_i e
  have h2 := h1.gated.of_fst e
  exact .ite h2.setRingEng h2.setRingEng.launchRing

theorem Mach.Canon.ringPlanComplete {plane} (h : m.Canon) : (ringPlanComplete plane m).Canon := by
  unfold Machine.ringPlanComplete
  extract_lets +onlyGivenNames _
  split
  · exact h
  refine .ite h ?_
  extract_lets _ _ _ m1
  have h1 : m1.Canon := .ite h.setRingEng.upd h.setRingEng
  exact .ite h1.sendSignal h1

theorem Mach.Canon.ringTx {q msg} (h : m.Canon) : (ringTx q msg m).Canon := by
  unfold Machine.ringTx
  refine .ite h ?_
  extract_lets _ m1 _ _ _ _ _ _ _ _ m2
  have h1 : m1.Canon := h.foldl (fun _ h _ => h.qTake)
  have h2 : m2.Canon := .ite h1.sendSealed h1
  split
  · exact h2.qPush
  exact h2

theorem Mach.Canon.ringRemap {p f} (h : m.Canon) : (ringRemap p f m).Canon := by
  unfold Machine.ringRemap
  refine h.receive fun _ _ h => ?_
  refine .ite h ?_
  extract_lets +onlyGivenNames _
  split
  · exact h
  exact h.foldl (fun _ h _ => h.qPush)

theorem Mach.Canon.ringVerdict {p f} (h : m.Canon) : (ringVerdict p f m).Canon := by
  unfold Machine.ringVerdict
  refine h.receive fun _ _ h => ?_
  split
  · exact h.upd
  exact h

theorem Mach.Canon.verdictCommit (h : m.Canon) : (verdictCommit m).Canon := by
  unfold Machine.verdictCommit
  split
  · exact h
  extract_lets _ m1
  have h1 : m1.Canon := h.upd
  clear_value m1
  refine .ite h1.upd.sendSealed <| .ite h1 ?_
  split
  · exact h1.commitRecord
  · exact h1.upd.commitRecord
  exact .ite h1.inc.raiseHif h1.inc.upd

/-! ### Channel -/

theorem Mach.Canon.serve {q} (h : m.Canon) : (m.serve q).Canon := by
  unfold Mach.serve
  extract_lets m1
  have h1 : m1.Canon := by
    unfold m1
    split
    · exact h
    split
    · exact h.setGran
    exact h
  split
  · exact h1
  · exact h1.stackRead.upd
  · exact h1.stackRead.sluiceGot
  · exact h1.stackRead.roiGot
  · exact h1.stackRead.prepGot
  exact h1.stackRead.setRingEng.ringFlush

theorem Mach.Canon.stackChannelAccess {st ch} (h : m.Canon) : (stackChannelAccess st ch m).Canon := by
  unfold Machine.stackChannelAccess
  extract_lets _
  split
  · exact h
  extract_lets m1
  have h1 : m1.Canon := h.advanceTo.awaitChannel
  split
  · exact h1
  exact h1.upd.serve

/-! ### Ptp -/

theorem Mach.Canon.setPtpState {s} (h : m.Canon) : (m.setPtpState s).Canon := h.setFld
theorem Mach.Canon.setPtp {p} (h : m.Canon) : (m.setPtp p).Canon := h.upd
theorem Mach.Canon.selectMaster {a} (h : m.Canon) : (m.selectMaster a).Canon := h.setPtp.putBit.setReg64

theorem Mach.Canon.holdOver {gmChange} (h : m.Canon) : (m.holdOver gmChange).Canon := by
  unfold Mach.holdOver
  extract_lets m1
  have h1 : m1.Canon := h.setPtpState.putBit.raisePos
  exact .ite h1.raisePos h1

theorem Mach.Canon.ptpEnable {v} (h : m.Canon) : (ptpEnable v m).Canon := by
  unfold Machine.ptpEnable
  refine .ite h ?_
  extract_lets _ m1
  have h1 : m1.Canon := .ite h.putBit h.writeReg
  exact .ite h1 h1.setPtp.selectMaster.setReg.putBit

theorem Mach.Canon.chooseMaster (h : m.Canon) : m.chooseMaster.Canon := by
  unfold Mach.chooseMaster
  split
  · exact h
  · extract_lets m1
    have h1 : m1.Canon := h.selectMaster
    exact .ite h1.setPtpState h1
  extract_lets _ m2
  have h2 : m2.Canon := .ite h.setPtp.setReg64 h.selectMaster
  exact .ite h2 h2.holdOver

theorem Mach.Canon.ptpAnnounce {a} (h : m.Canon) : (ptpAnnounce a m).Canon := .ite h h.setPtp.chooseMaster
theorem Mach.Canon.ptpSync {x} (h : m.Canon) : (ptpSync x m).Canon := .ite h h.setPtp.putBit
theorem Mach.Canon.ptpFollowUp {src seq t1} (h : m.Canon) : (ptpFollowUp src seq t1 m).Canon := .ite h.setPtp h
theorem Mach.Canon.ptpDelayReq {seq} (h : m.Canon) : (ptpDelayReq seq m).Canon := .ite h (.ite h.incFld.putBit.raisePos h.setPtp)
theorem Mach.Canon.ptpSlave (h : m.Canon) : m.ptpSlave.Canon := h.setPtpState.putBit.putBit

theorem Mach.Canon.ptpDelayResp {src seq t4} (h : m.Canon) : (ptpDelayResp src seq t4 m).Canon := by
  unfold Machine.ptpDelayResp
  extract_lets _
  split
  · exact h
  refine .ite h ?_
  extract_lets _
  split
  · exact h.setPtp
  exact .ite h.setPtp.setReg h.setPtp.setReg.fresh.setReg.ptpSlave

theorem Mach.Canon.tb0Step {v} (h : m.Canon) : (tb0Step v m).Canon := by
  unfold Machine.tb0Step
  refine .ite h ?_
  extract_lets _ m1
  have h1 : m1.Canon := h.upd.raisePos
  exact .ite h1.ptpSlave h1

theorem Mach.Canon.loseParent (h : m.Canon) : m.loseParent.Canon := h.setPtp.selectMaster.chooseMaster

theorem Mach.Canon.holdover {gmChange} (h : m.Canon) : (holdover gmChange m).Canon := by
  unfold Machine.holdover
  refine .ite h ?_
  extract_lets +onlyGivenNames m1
  have h1 : m1.Canon := .ite h h.loseParent
  exact h1.holdOver

theorem Mach.Canon.mgmtLinkDown (h : m.Canon) : (mgmtLinkDown m).Canon := .ite h (.ite h.setPtp.setPtp.selectMaster.holdOver h.setPtp.setPtp)

/-! ### Spout -/

theorem Mach.Canon.setSpout {n x} (h : m.Canon) : (m.setSpout n x).Canon := h.upd
theorem Mach.Canon.endSpout {n x status} (h : m.Canon) : (m.endSpout n x status).Canon := h.upd.commandOuts.qPush

theorem Mach.Canon.arm {a} (h : m.Canon) : (m.arm a).Canon := by
  unfold Mach.arm
  refine .ite (.ite h.upd.qPush h.upd) ?_
  exact (Mach.Canon.ite h.upd.inc.raisePos (.ite h.upd.raisePos h.upd)).qPush

theorem Mach.Canon.spoutTake {q ent op other k} (h : m.Canon)
    (hk : ∀ x1 x2 (n : Mach), n.Canon → (k x1 x2 n).Canon) : (m.spoutTake q ent op other k).Canon :=
  .ite h (.ite (hk _ _ _ h.qTake) h.qTake.qPush)

theorem Mach.Canon.spoutArm {q ent} (h : m.Canon) : (spoutArm q ent m).Canon := h.spoutTake (fun _ _ _ h => h.arm)

theorem Mach.Canon.spoutCancel {q ent} (h : m.Canon) : (spoutCancel q ent m).Canon := by
  unfold Machine.spoutCancel
  refine h.spoutTake fun _ _ _ h => ?_
  refine .ite h.qPush ?_
  split
  · exact .ite h.endSpout.qPush h.raisePos.qPush
  exact h.raisePos.qPush

theorem Mach.Canon.spoutRuleArm (h : m.Canon) : (spoutRuleArm m).Canon := by
  unfold Machine.spoutRuleArm
  split
  · exact h
  refine h.upd.foldl fun _ h _ => ?_
  split
  · exact .ite h.arm h
  exact h

theorem Mach.Canon.fire {n x f} (h : m.Canon) : (m.fire n x f).Canon := .ite h.setSpout h.setSpout.inc

theorem Mach.Canon.strobeFire {n} (h : m.Canon) : (strobeFire n m).Canon := by
  unfold Machine.strobeFire
  split
  · exact h
  exact .ite h.fire h

theorem Mach.Canon.commandInstant {n} (h : m.Canon) : (commandInstant n m).Canon := by
  unfold Machine.commandInstant
  split
  · exact h
  exact .ite h.fire.commandOuts h

theorem Mach.Canon.afterPulse {n x} (h : m.Canon) : (m.afterPulse n x).Canon := .ite h.endSpout h.setSpout.commandOuts

theorem Mach.Canon.pulseEnd {n} (h : m.Canon) : (pulseEnd n m).Canon := by
  unfold Machine.pulseEnd
  split
  · exact h
  exact .ite h.afterPulse h

theorem Mach.Canon.pulseMaxon {n} (h : m.Canon) : (pulseMaxon n m).Canon := by
  unfold Machine.pulseMaxon
  split
  · exact h
  exact .ite h.raisePos.afterPulse h

theorem Mach.Canon.flushSpouts (h : m.Canon) : m.flushSpouts.Canon := by
  unfold Mach.flushSpouts
  extract_lets m1
  have h1 : m1.Canon := h.foldl (fun _ h _ => h.spoutRuleArm)
  exact h1.foldl (fun _ h _ => h.endSpout)

end Sys2Proof.Machine
end

section
/-! PROOFS. O57: dumps, the accesses of the host, context switches and replay. -/
namespace Sys2Proof.Machine

-- One theorem after the other: checked all at once, so many short proofs ask for more threads than the memory limit lets start.
set_option Elab.async false

variable {m n : Mach}

/-! ### Dump -/

theorem Mach.Canon.holdDump {d flags bytes} (h : m.Canon) : (m.holdDump d flags bytes).Canon := h.upd.putBit.putBit.setFld.setReg.dev

theorem Mach.Canon.dumpComplete (h : m.Canon) : (dumpComplete m).Canon := by
  unfold Machine.dumpComplete
  split
  · exact h
  extract_lets _
  split
  refine .ite ((fun _ _ => h.holdDump) _ _) ?_
  split
  · exact (fun _ _ => h.holdDump) _ _
  exact h.upd.holdDump

/-! ### HostRead -/

theorem Mach.Canon.bar0Read {a} (h : m.Canon) : (m.bar0Read a).2.Canon := by
  unfold Mach.bar0Read
  split
  · exact h.upd
  split
  · exact h.upd
  exact h

theorem Mach.Canon.hostRead {b off size} (h : m.Canon) : (hostRead b off size m).2.Canon := by
  unfold Machine.hostRead
  split
  · exact h
  split
  · exact h
  split
  · exact h.badAccess
  split
  · exact h.bar0Read
  · split
    · exact h
    exact h.accessError
  exact h

theorem Mach.Canon.answerRead {b off size} (h : m.Canon) : (m.answerRead b off size).Canon := .ite h.hostRead.upd h
theorem Mach.Canon.badWidth {bar off size write} (h : m.Canon) : (badWidth bar off size write m).Canon := .ite h (.ite h.badAccess h.answerRead)

theorem Mach.Canon.stagingAccess {write off size data} (h : m.Canon) : (stagingAccess write off size data m).Canon :=
  .ite h (.ite h.stagingWrite h.answerRead)

theorem Mach.Canon.lowHalfRead {a} (h : m.Canon) : (lowHalfRead a m).Canon := .ite h.answerRead h

/-! ### RegWrite -/

theorem Mach.Canon.writeLeast {a v hi lo least} (h : m.Canon) : (m.writeLeast a v hi lo least).Canon := .ite h.writeReg.setFld h.writeReg
theorem Mach.Canon.clearFirst {a v} (h : m.Canon) : (m.clearFirst a v).Canon := .ite h.writeReg.setFld h.writeReg

theorem Mach.Canon.writeLocked {n : Mach} {a locked refuse} (h : m.Canon) (hn : n.Canon) (hk : ∀ n : Mach, n.Canon → (refuse n).Canon) :
    (m.writeLocked n a locked refuse).Canon :=
  .ite (hk _ h) hn

theorem Mach.Canon.writeGlb {a v} (h : m.Canon) : (m.writeGlb a v).Canon := .ite h.wvReserved h.writeReg
theorem Mach.Canon.writeMem {a v} (h : m.Canon) : (m.writeMem a v).Canon := .ite h.writeLeast (.ite h.clearFirst h.writeReg)

theorem Mach.Canon.writePort {p o a v} (h : m.Canon) : (m.writePort p o a v).Canon := by
  have lock {n : Mach} (hn : n.Canon) : (m.writeLocked n a (m.portEn p) fun m => m.raisePort p 15).Canon :=
    h.writeLocked hn fun _ h => h.raisePort
  unfold Mach.writePort
  split
  · exact h
  · exact lock h.writeReg
  · exact lock h.writeLeast
  · exact lock h.writeReg
  · exact .ite h.writeReg h.writeReg.putBit
  · exact lock h.writeReg
  exact h.writeReg

theorem Mach.Canon.writeInt {a v} (h : m.Canon) : (m.writeInt a v).Canon := by
  unfold Mach.writeInt
  refine .ite ?_ (.ite h.writePort h.writeReg)
  split
  · exact .ite h h.writeReg
  exact h.writeLocked h.writeReg fun _ h => h.raiseInt

theorem Mach.Canon.writePrep {a v} (h : m.Canon) : (m.writePrep a v).Canon := .ite (.ite h.writeReg h) h.writeReg
theorem Mach.Canon.writeEnc {e o a v} (h : m.Canon) : (m.writeEnc e o a v).Canon := .ite h (.ite (.ite h.raiseEnc h.writeReg) h.writeReg)

theorem Mach.Canon.writePt {t o a v} (h : m.Canon) : (m.writePt t o a v).Canon := by
  unfold Mach.writePt
  split
  · exact .ite h.raisePos h.writeReg
  · exact .ite h.raisePos h.writeReg.setPtrig
  exact h

theorem Mach.Canon.writePos {a v} (h : m.Canon) : (m.writePos a v).Canon := .ite h.writeLeast (.ite h.writeEnc (.ite h.writePt (.ite h h.writeReg)))
theorem Mach.Canon.writeFld {a v} (h : m.Canon) : (m.writeFld a v).Canon := .ite h (.ite h.writeLeast h.writeReg)

theorem Mach.Canon.writeRingCfg {v} (h : m.Canon) : (m.writeRingCfg v).Canon := by
  unfold Mach.writeRingCfg
  extract_lets _ _ _ _ m1
  have h1 : m1.Canon := .ite h.writeReg.upd.putBit h.writeReg
  exact h1.ringView

theorem Mach.Canon.writeCl {j a v} (h : m.Canon) : (m.writeCl j a v).Canon := by
  unfold Mach.writeCl
  refine .ite h ?_
  split
  · exact h.raisePort
  exact .ite h.writeReg.setFld h.writeReg

theorem Mach.Canon.writeLnk {a v} (h : m.Canon) : (m.writeLnk a v).Canon :=
  .ite h.writeRingCfg (.ite h.writeLeast (.ite h.writeLeast (.ite h.clearFirst (.ite h (.ite h (.ite h.writeCl h.writeReg))))))

theorem Mach.Canon.writeQueue {q o a v} (h : m.Canon) : (m.writeQueue q o a v).Canon := by
  have free {n : Mach} (hn : n.Canon) : (if m.qEn q then m.badCfg q else n).Canon := .ite h.raiseHif hn
  unfold Mach.writeQueue
  extract_lets _
  split
  · exact h
  · exact free h.writeReg
  · exact free h.writeReg
  · exact free h.writeReg
  · exact free h.writeReg
  exact h.writeReg

theorem Mach.Canon.writeHif {a v} (h : m.Canon) : (m.writeHif a v).Canon := .ite h.writeQueue h.writeReg

theorem Mach.Canon.writeSec {a v} (h : m.Canon) : (m.writeSec a v).Canon :=
  .ite (.ite h.writeReg.putBit h.writeReg) (.ite h (.ite (.ite (h.mbx (fun _ _ _ h => h.mbxResult)) h) h.writeReg))

theorem Mach.Canon.writeFlt {a v} (h : m.Canon) : (m.writeFlt a v).Canon :=
  .ite (.ite h.writeReg h) <| .ite h.writeReg <|
    .ite (.ite h.writeReg h) (.ite h.writeLeast (.ite (.ite h h.writeReg) (.ite (.ite h h.writeReg) (.ite h.writeReg h.writeReg))))

theorem Mach.Canon.writeBar0 {a v} (h : m.Canon) : (m.writeBar0 a v).Canon :=
  .ite h <| .ite h.writeGlb <| .ite h.writeReg <| .ite h.writeMem <|
    .ite h.writeInt (.ite h.writePrep (.ite h.writePos (.ite h.writeFld (.ite h.writeLnk (.ite h.writeHif (.ite h.writeSec h.writeFlt))))))

theorem Mach.Canon.writeMsix {k v} (h : m.Canon) : (m.writeMsix k v).Canon := .ite h.upd.signal h.upd

theorem Mach.Canon.registerWrite {bar a v} (h : m.Canon) : (registerWrite bar a v m).Canon := by
  unfold Machine.registerWrite
  refine .ite h ?_
  split
  · exact .ite h.writeBar0 h
  · exact h
  exact .ite h.writeMsix h

/-! ### Switch -/

theorem Mach.Canon.importGranule {w st g v} (h : m.Canon) : (m.importGranule w st g v).Canon := by
  unfold Mach.importGranule
  split
  · exact h.setGran
  exact h.dropWrite

theorem Mach.Canon.writeSegment {x s plain} (h : m.Canon) : (m.writeSegment x s plain).Canon := by
  unfold Mach.writeSegment
  refine .ite h.setDdrBytes ?_
  split
  · exact h
  exact h.foldl (fun _ h _ => h.importGranule)

theorem Mach.Canon.zeroSegment {x s} (h : m.Canon) : (m.zeroSegment x s).Canon := by
  refine .ite h.setDdrBytes ?_
  obtain ⟨⟨h1, h2, h3, h4, h5, h6, h7, h8, h9, h10, h11⟩, hr⟩ := h
  dsimp only [Mach.Canon, Mem.Wf, Mach.setStack, zeroCells]
  exact ⟨⟨h1, FMap.wf_clear h2, h3, h4, h5, h6, h7, h8, h9, h10, h11⟩, hr⟩

/-- The import of a segment and of those behind it. The opening stays a variable up to the kernel: unfolded, it is too deep for it. -/
theorem importSegments_cons {x key hdr past s l} :
    m.importSegments x key hdr past (s :: l) = match gcmOpen key s.iv (hdr ++ s.entry) s.body s.tag with
      | none => (past.foldl (fun m s => m.zeroSegment x s) m, false)
      | some plain => (m.writeSegment x s plain).importSegments x key hdr (past ++ [s]) l := by
  delta Mach.importSegments Mach.importSegments._f
  generalize gcmOpen = opens
  as_aux_lemma => rfl

theorem Mach.Canon.importSegments {x key hdr past l} (h : m.Canon) : (m.importSegments x key hdr past l).1.Canon := by
  induction l generalizing m past with
  | nil => exact h
  | cons s l ih =>
    rw [importSegments_cons]
    split
    · exact Mach.Canon.foldl h fun _ h _ => h.zeroSegment
    exact ih h.writeSegment

theorem Mach.Canon.importPackage {x key digest off len} (h : m.Canon) : (m.importPackage x key digest off len).1.Canon := by
  unfold Mach.importPackage
  extract_lets +onlyGivenNames _
  split
  · exact h
  extract_lets _
  split
  · exact h.readHost
  split
  · exact h.readHost
  exact h.readHost.importSegments

theorem Mach.Canon.afterLoad (h : m.Canon) : m.afterLoad.Canon := by
  unfold Mach.afterLoad
  split
  · exact h.upd
  exact h

theorem Mach.Canon.switchStop (h : m.Canon) : m.switchStop.Canon := by
  unfold Mach.switchStop
  extract_lets m1 _ _ _ _ m2 m3 m4 m5
  have h1 : m1.Canon := h.flushAll
  clear_value m1
  have h2 : m2.Canon := h1.upd
  clear_value m2
  have h3 : m3.Canon := h2.unloadAll
  clear_value m3
  have h4 : m4.Canon := h3.upd
  have h5 : m5.Canon := h4.flushSpouts.setFldSt.putBit
  exact h5.foldl fun _ h _ => h.endAcquisition.setPort

theorem Mach.Canon.mbxCtxSwitch {via} (h : m.Canon) : (mbxCtxSwitch via m).Canon := by
  unfold Machine.mbxCtxSwitch
  refine h.mbx fun _ _ _ h => ?_
  refine .ite h.mbxResult <| .ite h.mbxResult ?_
  split
  · exact h.mbxResult
  refine .ite h.mbxResult ?_
  extract_lets +onlyGivenNames _ _ _ _ _ m1
  have h1 : m1.Canon := h.upd.putBit.switchStop
  exact .ite h1.upd.setFld.extendM3 h1.upd

theorem Mach.Canon.scrub (h : m.Canon) : m.scrub.Canon := canon_scrub h
theorem Mach.Canon.switchEnd {w} (h : m.Canon) : (m.switchEnd w).Canon := h.upd.extendM3.mbxResult

theorem Mach.Canon.switchKeys {w} (h : m.Canon) : (m.switchKeys w).Canon := by
  unfold Mach.switchKeys
  split
  rename_i e
  have h1 := h.draw.of_snd e
  extract_lets m1 _ _
  have h1 : m1.Canon := by
    unfold m1
    split
    · exact h1.setCtx.rekey.upd
    exact h1
  split
  · exact h1.upd
  exact h1.upd.zeroM.zeroM.zeroM.switchEnd

theorem Mach.Canon.scrubDone (h : m.Canon) : (scrubDone m).Canon := by
  unfold Machine.scrubDone
  split
  · exact h
  refine .ite h ?_
  extract_lets _ _ m1 m2
  have h1 : m1.Canon := .ite h.scrub.raiseSec h.scrub
  have h2 : m2.Canon := by
    unfold m2
    split
    · exact h1.setCtx.zeroDdr
    exact h1
  exact h2.switchKeys

theorem Mach.Canon.switchLoaded {w} (h : m.Canon) : (m.switchLoaded w).Canon := by
  unfold Mach.switchLoaded
  split
  · exact h.switchEnd
  refine .ite h.zeroM.zeroM.zeroM.switchEnd ?_
  extract_lets +onlyGivenNames m1
  have h1 : m1.Canon := h.loadActive.afterLoad
  exact .ite h1.upd h1.switchEnd

theorem Mach.Canon.importDone (h : m.Canon) : (importDone m).Canon := by
  unfold Machine.importDone
  split
  · exact h
  extract_lets _ _ m1
  have h1 : m1.Canon := by
    unfold m1
    split
    · exact h.upd
    split
    · exact .ite h.upd.importPackage.setCtx.startLoaded h.upd.importPackage.raiseSec
    exact h.upd
  split
  · exact .ite h1.switchEnd h1
  exact h1

theorem Mach.Canon.mbxKeyImport {via} (h : m.Canon) : (mbxKeyImport via m).Canon := by
  unfold Machine.mbxKeyImport
  refine h.mbx fun _ _ _ h => ?_
  refine .ite h.mbxResult <| .ite h.mbxResult <| .ite h.mbxResult ?_
  split
  · exact h.mbxResult
  refine .ite h.mbxResult <| .ite h.readHost.raiseSec.mbxResult ?_
  split
  · exact h.readHost.raiseSec.raiseSec.mbxResult
  split
  · exact h.readHost.dropPair.raiseSec.mbxResult
  refine .ite h.readHost.dropPair.raiseSec.mbxResult ?_
  split
  rename_i e
  have h1 := h.readHost.dropPair.importPackage.of_fst e
  exact .ite h1.raiseSec.mbxResult h1.upd.startLoaded.mbxResult

/-! ### Replay -/

theorem Mach.Canon.rplResult {r} (h : m.Canon) : (m.rplResult r).Canon := h.setFld

theorem Mach.Canon.rpl {k} (h : m.Canon) (hk : ∀ (n : Mach), n.Canon → (k n).Canon) : (m.rpl k).Canon :=
  .ite h (.ite h.rplResult (.ite h.rplResult (hk _ h.rplResult)))

theorem Mach.Canon.rplRestart (h : m.Canon) : (rplRestart m).Canon := by
  unfold Machine.rplRestart
  refine h.rpl fun _ h => ?_
  split
  · exact h.rplResult
  extract_lets _ head m1 _ m2 m3
  have h1 : m1.Canon := h.flushAll.unloadWeave.loadWeave
  clear_value head m1
  have h2 : m2.Canon := h1.upd
  have h3 : m3.Canon := by
    unfold m3
    split
    · exact h2.writeHead
    exact h2
  split
  · exact h3.writeParams
  exact h3

theorem Mach.Canon.rplInject (h : m.Canon) : (rplInject m).Canon := by
  unfold Machine.rplInject
  refine h.rpl fun _ h => ?_
  refine .ite h.rplResult ?_
  extract_lets +onlyGivenNames _
  split
  · exact h.readHost.rplResult
  exact .ite h.readHost.rplResult h.readHost.putBit.openBatch.batchHandover

theorem Mach.Canon.rplCapture (h : m.Canon) : (rplCapture m).Canon := h.rpl (fun _ h => .ite h.rplResult h.setHostBytes)
theorem Mach.Canon.rplThaw (h : m.Canon) : (rplThaw m).Canon := h.rpl (fun _ h => h.upd)
theorem Mach.Canon.freezeAt (h : m.Canon) : (freezeAt m).Canon := .ite h.tick h

theorem Mach.Canon.batchCapture {v} (h : m.Canon) : (batchCapture v m).Canon := by
  refine .ite h ?_
  extract_lets m1
  have h1 : m1.Canon := h.writeReg.setReg
  exact h1.upd

/-! ### Swap -/

theorem Mach.Canon.setCmd {c} (h : m.Canon) : (m.setCmd c).Canon := h.upd

theorem Mach.Canon.pStop (h : m.Canon) : (pStop m).Canon := by
  unfold Machine.pStop
  split
  · exact .ite h.setRun h
  · exact .ite h.setCmd.putBit h
  exact h

theorem Mach.Canon.drainEnd (h : m.Canon) : (drainEnd m).Canon := by
  unfold Machine.drainEnd
  split
  · exact .ite h.unloadAll.setRun h
  · exact .ite (.ite h.unloadAll.upd.wvEnd h.unloadAll.setCmd) h
  exact h

theorem Mach.Canon.loadedAlone {c b} (h : m.Canon) : (m.loadedAlone c b).Canon := by
  unfold Mach.loadedAlone
  extract_lets +onlyGivenNames m1
  have h1 : m1.Canon := .ite h h.rotate
  exact h1.loadActive.afterLoad.wvDrop.wvEnd

theorem Mach.Canon.loadedBeside {c b} (h : m.Canon) : (m.loadedBeside c b).Canon := h.loadWeave.afterLoad.setCmd
theorem Mach.Canon.loadedInDrain {c b recipe} (h : m.Canon) : (m.loadedInDrain c b recipe).Canon := h.loadWeave.afterLoad.upd.setCmd

theorem Mach.Canon.cmdLoaded {c b} (h : m.Canon) : (m.cmdLoaded c b).Canon := by
  unfold Mach.cmdLoaded
  refine .ite ?_ (.ite h (.ite (.ite h.setCmd h.wvDrop.wvEnd) (.ite h.loadedInDrain (.ite h.loadedAlone h.loadedBeside))))
  split
  · extract_lets +onlyGivenNames m1 m2
    have h1 : m1.Canon := h.loadedInDrain
    have h2 : m2.Canon := by
      unfold m2
      split
      · exact h1.writeHead
      exact h1
    exact h2.upd
  exact h.upd.wvEnd

theorem Mach.Canon.loadComplete (h : m.Canon) : (loadComplete m).Canon := by
  unfold Machine.loadComplete
  split
  · exact .ite h.sectionLoaded (.ite h.reloaded h)
  split
  · exact .ite h.switchLoaded h
  split
  · exact h
  split
  · exact h.cmdLoaded
  exact h

theorem Mach.Canon.cmdResumes {c} (h : m.Canon) : (m.cmdResumes c).Canon := by
  unfold Mach.cmdResumes
  extract_lets +onlyGivenNames _
  split
  · extract_lets _ _ m1
    have h1 : m1.Canon := by
      unfold m1
      split
      · exact h.setReg.rotate.loadRecipe
      exact h.setReg.upd
    exact h1.upd.measureWeave.wvDrop.wvEnd
  exact h.setReg.wvDrop.wvEnd

theorem Mach.Canon.pResume (h : m.Canon) : (pResume m).Canon := by
  unfold Machine.pResume
  split
  · exact .ite h.setReg.runResult h
  · exact .ite h.cmdResumes h
  exact h

end Sys2Proof.Machine
end

section
/-! PROOFS. O57: every command, and the step. -/
namespace Sys2Proof.Machine

/-- The module after a command is in the form (R27, R102, R105, R107, R136). -/
theorem completes_canon {s : State} (h : s.m.Canon) (c : Instr) : Completes c s Mach.Canon := by
  cases c with
  | powerOn => exact ⟨_, rfl, h.powerOn⟩
  | powerLoss => exact ⟨_, rfl, h.powerLoss⟩
  | mrst => exact ⟨_, rfl, h.mrst⟩
  | glbRst => exact ⟨_, rfl, h.glbRst⟩
  | dexzonReset => exact ⟨_, rfl, h.dexzonReset⟩
  | thermalTrip => exact ⟨_, rfl, h.thermalTrip⟩
  | regulatorFault => exact ⟨_, rfl, h.regulatorFault⟩
  | resetRelease => exact ⟨_, rfl, h.resetRelease⟩
  | clockAlignment => exact ⟨_, rfl, h.clockAlignment⟩
  | rotBoot => exact ⟨_, rfl, h.rotBoot⟩
  | ddrReady => exact ⟨_, rfl, h.ddrReady⟩
  | refLoss => exact ⟨_, rfl, h.refLoss⟩
  | pllUnlock => exact ⟨_, rfl, h.pllUnlock⟩
  | phaseDrift => exact ⟨_, rfl, h.phaseDrift⟩
  | pgFault => exact ⟨_, rfl, h.pgFault⟩
  | thermWarn => exact ⟨_, rfl, h.thermWarn⟩
  | thermCrit => exact ⟨_, rfl, h.thermCrit⟩
  | vinUv => exact ⟨_, rfl, h.vinUv⟩
  | vinOv => exact ⟨_, rfl, h.vinOv⟩
  | overpower => exact ⟨_, rfl, h.overpower⟩
  | perst => exact ⟨_, rfl, h.perst⟩
  | functionLevelReset => exact ⟨_, rfl, h.functionLevelReset⟩
  | nop | macMm | macWld | macXld | macAclr | vecAdd | vecSub | vecMul | vecFma | vecMin | vecMax | vecAbs | vecNeg | vecClt | vecCeq
   | vecSel | vecAnd | vecOr | vecXor | vecShl | vecShr | vecSra | vecRcp | vecRsq | vecExp2 | vecLog2 | vecRsum | vecRmax | vecShuf
   | vecRot | vecBcst | vecCvt | vecQnt | vecSrnd | vecGen | vecRdac | vecWrac | vecMovv | movLdv | movStv | movCpy | movPut | movGld
   | movGst | movSeta | movTags | movVout | syncLwait | syncLsig | syncNext | syncPass | syncWopn | syncWcls | ctlLoop | ctlEndl | ctlStep
   | ctlArst | ctlTaly | ctlHalt => exact ⟨_, rfl, h.present⟩
  | slip => exact ⟨_, rfl, h.slip⟩
  | remoteWriteArrival => exact ⟨_, rfl, h.remoteWriteArrival⟩
  | inboundDrain => exact ⟨_, rfl, h.inboundDrain⟩
  | gldReply => exact ⟨_, rfl, h.gldReply⟩
  | stackChannelAccess => exact ⟨_, rfl, h.stackChannelAccess⟩
  | stackWindowUpdate => exact ⟨_, rfl, h.stackWindowUpdate⟩
  | latchSignalArrival => exact ⟨_, rfl, h.latchSignalArrival⟩
  | latchWaitGrant => exact ⟨_, rfl, h.latchWaitGrant⟩
  | sluiceDescriptorStart => exact ⟨_, rfl, h.sluiceStart⟩
  | sluiceComplete => exact ⟨_, rfl, h.sluiceComplete⟩
  | sluiceQueueDescriptor => exact ⟨_, rfl, h.sluiceQueueDescriptor⟩
  | sluiceAbort => exact ⟨_, rfl, h.sluiceAbort⟩
  | sluiceFault => exact ⟨_, rfl, h.sluiceFault⟩
  | patrolScrub => exact ⟨_, rfl, h.patrolScrub⟩
  | leaseExpiry => exact ⟨_, rfl, h.leaseExpiry⟩
  | revocationComplete => exact ⟨_, rfl, h.revocationComplete⟩
  | memCeClr => exact ⟨_, rfl, h.memCeClr⟩
  | tileCntClr => exact ⟨_, rfl, h.tileCntClr⟩
  | pmemUe => exact ⟨_, rfl, h.pmemUe⟩
  | stemLineTake => exact ⟨_, rfl, h.stemLineTake⟩
  | stemRowWrite => exact ⟨_, rfl, h.stemRowWrite⟩
  | stemRowDone => exact ⟨_, rfl, h.stemRowDone⟩
  | roiJobStart => exact ⟨_, rfl, h.roiJobStart⟩
  | roiJobComplete => exact ⟨_, rfl, h.roiJobComplete⟩
  | roiAbort => exact ⟨_, rfl, h.roiAbort⟩
  | roiFault => exact ⟨_, rfl, h.roiFault⟩
  | portEnable => exact ⟨_, rfl, h.portEnable⟩
  | portDisable => exact ⟨_, rfl, h.portDisable⟩
  | trainingBlock => exact ⟨_, rfl, h.trainingBlock⟩
  | tapUpdate => exact ⟨_, rfl, h.tapUpdate⟩
  | blockLock => exact ⟨_, rfl, h.blockLock⟩
  | blockLockLoss => exact ⟨_, rfl, h.blockLockLoss⟩
  | windowFault => exact ⟨_, rfl, h.windowFault⟩
  | lockTimeout => exact ⟨_, rfl, h.lockTimeout⟩
  | qualityCheck => exact ⟨_, rfl, h.qualityCheck⟩
  | adaptiveTrainingEnd => exact ⟨_, rfl, h.adaptiveTrainingEnd⟩
  | deskewDone => exact ⟨_, rfl, h.deskewDone⟩
  | bringupRetry => exact ⟨_, rfl, h.bringupRetry⟩
  | relockTimeout => exact ⟨_, rfl, h.relockTimeout⟩
  | verSend => exact ⟨_, rfl, h.verSend⟩
  | camVer => exact ⟨_, rfl, h.camVer⟩
  | frameStart => exact ⟨_, rfl, h.frameStart⟩
  | frameEnd => exact ⟨_, rfl, h.frameEnd⟩
  | lineStart => exact ⟨_, rfl, h.lineStart⟩
  | lineEnd => exact ⟨_, rfl, h.lineEnd⟩
  | pixelPacket => exact ⟨_, rfl, h.pixelPacket⟩
  | camEcho => exact ⟨_, rfl, h.camEcho⟩
  | pmark => exact ⟨_, rfl, h.pmark⟩
  | hdrUe => exact ⟨_, rfl, h.hdrUe⟩
  | framingError => exact ⟨_, rfl, h.framingError⟩
  | ltrig => exact ⟨_, rfl, h.ltrig⟩
  | portExpCommit => exact ⟨_, rfl, h.portExpCommit⟩
  | ffcTableWrite => exact ⟨_, rfl, h.ffcTableWrite⟩
  | cropRequest => exact ⟨_, rfl, h.cropRequest⟩
  | coderStart => exact ⟨_, rfl, h.coderStart⟩
  | archiveRecord => exact ⟨_, rfl, h.archiveRecord⟩
  | markerRecord => exact ⟨_, rfl, h.markerRecord⟩
  | sampleReady => exact ⟨_, rfl, h.sampleReady⟩
  | prepDeadline => exact ⟨_, rfl, h.prepDeadline⟩
  | refDecodeStart => exact ⟨_, rfl, h.refDecodeStart⟩
  | refDecodeDone => exact ⟨_, rfl, h.refDecodeDone⟩
  | batchCloseTimeout => exact ⟨_, rfl, h.batchCloseTimeout⟩
  | batchHandover => exact ⟨_, rfl, h.batchHandover⟩
  | adaptLabel => exact ⟨_, rfl, h.adaptLabel⟩
  | adaptRun => exact ⟨_, rfl, h.adaptRun⟩
  | adaptSelect => exact ⟨_, rfl, h.adaptSelect⟩
  | adaptCommit => exact ⟨_, rfl, h.adaptCommit⟩
  | adaptDiscard => exact ⟨_, rfl, h.adaptDiscard⟩
  | adaptExport => exact ⟨_, rfl, h.adaptExport⟩
  | adaptClear => exact ⟨_, rfl, h.adaptClear⟩
  | adaptStatus => exact ⟨_, rfl, h.adaptStatus⟩
  | epochStart => exact ⟨_, rfl, h.epochStart⟩
  | runEnd => exact ⟨_, rfl, h.runEnd⟩
  | runTimeout => exact ⟨_, rfl, h.runTimeout⟩
  | pStop => exact ⟨_, rfl, h.pStop⟩
  | drainEnd => exact ⟨_, rfl, h.drainEnd⟩
  | loadComplete => exact ⟨_, rfl, h.loadComplete⟩
  | pResume => exact ⟨_, rfl, h.pResume⟩
  | pSw => exact ⟨_, rfl, h.pSw⟩
  | oldWeaveDone => exact ⟨_, rfl, h.oldWeaveDone⟩
  | encoderStep => exact ⟨_, rfl, h.encoderStep⟩
  | los => exact ⟨_, rfl, h.putBit.raiseEnc⟩
  | losClear => exact ⟨_, rfl, h.putBit⟩
  | indexEdge => exact ⟨_, rfl, h.indexEdge⟩
  | encCmdLoad => exact ⟨_, rfl, h.encCmdLoad⟩
  | encCfgWrite => exact ⟨_, rfl, h.encCfgWrite⟩
  | obsG3Write => exact ⟨_, rfl, h.obsG3Write⟩
  | observerUpdate => exact ⟨_, rfl, h.observerUpdate⟩
  | overspeedClear => exact ⟨_, rfl, h.overspeedClear⟩
  | ptWrite => exact ⟨_, rfl, h.ptWrite⟩
  | pitchMarker => exact ⟨_, rfl, h.pitchMarker⟩
  | trailingMarker => exact ⟨_, rfl, h.trailingMarker⟩
  | spoutArm => exact ⟨_, rfl, h.spoutArm⟩
  | spoutCancel => exact ⟨_, rfl, h.spoutCancel⟩
  | spoutRuleArm => exact ⟨_, rfl, h.spoutRuleArm⟩
  | strobeFire => exact ⟨_, rfl, h.strobeFire⟩
  | commandInstant => exact ⟨_, rfl, h.commandInstant⟩
  | pulseEnd => exact ⟨_, rfl, h.pulseEnd⟩
  | pulseMaxon => exact ⟨_, rfl, h.pulseMaxon⟩
  | lateCheck => exact ⟨_, rfl, h.lateCheck⟩
  | backstop => exact ⟨_, rfl, h.backstop⟩
  | posSnapCapture => exact ⟨_, rfl, h.posSnapCapture⟩
  | ptpAnnounce => exact ⟨_, rfl, h.ptpAnnounce⟩
  | ptpSync => exact ⟨_, rfl, h.ptpSync⟩
  | ptpFollowUp => exact ⟨_, rfl, h.ptpFollowUp⟩
  | ptpDelayReq => exact ⟨_, rfl, h.ptpDelayReq⟩
  | ptpDelayResp => exact ⟨_, rfl, h.ptpDelayResp⟩
  | tb0Step => exact ⟨_, rfl, h.tb0Step⟩
  | holdover => exact ⟨_, rfl, h.holdover⟩
  | mgmtLinkDown => exact ⟨_, rfl, h.mgmtLinkDown⟩
  | downFrame => exact ⟨_, rfl, h.downFrame⟩
  | eventFrame => exact ⟨_, rfl, h.eventFrame⟩
  | stateApply => exact ⟨_, rfl, h.stateApply⟩
  | configurationFrame => exact ⟨_, rfl, h.configurationFrame⟩
  | fldResume => exact ⟨_, rfl, h.fldResume⟩
  | fldForceSafe => exact ⟨_, rfl, h.fldForceSafe⟩
  | upFrameSend => exact ⟨_, rfl, h.upFrameSend⟩
  | upFrame => exact ⟨_, rfl, h.upFrame⟩
  | inputEdge => exact ⟨_, rfl, h.inputEdge⟩
  | silenceTimeout => exact ⟨_, rfl, h.silenceTimeout⟩
  | downLockLoss => exact ⟨_, rfl, h.downLockLoss⟩
  | controllerStart => exact ⟨_, rfl, h.controllerStart⟩
  | lplusUv => exact ⟨_, rfl, h.lplusUv⟩
  | overcurrent => exact ⟨_, rfl, h.overcurrent⟩
  | wireBreak => exact ⟨_, rfl, h.wireBreak⟩
  | wireBreakClear => exact ⟨_, rfl, h.wireBreakClear⟩
  | rbMis => exact ⟨_, rfl, h.rbMis⟩
  | upLock => exact ⟨_, rfl, h.upLock⟩
  | upLost => exact ⟨_, rfl, h.upLost⟩
  | fldCmdResume => exact ⟨_, rfl, h.fldCmdResume⟩
  | fldCmdForceSafe => exact ⟨_, rfl, h.fldCmdForceSafe⟩
  | fldOcClear => exact ⟨_, rfl, h.fldOcClear⟩
  | fldOutHostWrite => exact ⟨_, rfl, h.fldOutHostWrite⟩
  | ringLinkEnable => exact ⟨_, rfl, h.ringLinkEnable⟩
  | ringRetrain => exact ⟨_, rfl, h.ringRetrain⟩
  | presetRetry => exact ⟨_, rfl, h.presetRetry⟩
  | ringLinkFault => exact ⟨_, rfl, h.ringLinkFault⟩
  | unwrapHoldoff => exact ⟨_, rfl, h.unwrapHoldoff⟩
  | unwrap => exact ⟨_, rfl, h.unwrap⟩
  | rillVerSend => exact ⟨_, rfl, h.rillVerSend⟩
  | rillVer => exact ⟨_, rfl, h.rillVer⟩
  | rillEcho => exact ⟨_, rfl, h.rillEcho⟩
  | helloSend => exact ⟨_, rfl, h.helloSend⟩
  | ringHello => exact ⟨_, rfl, h.ringHello⟩
  | memberExpiry => exact ⟨_, rfl, h.memberExpiry⟩
  | tokenSend => exact ⟨_, rfl, h.tokenSend⟩
  | ringToken => exact ⟨_, rfl, h.ringToken⟩
  | tokenExpiry => exact ⟨_, rfl, h.tokenExpiry⟩
  | tokenPass => exact ⟨_, rfl, h.tokenPass⟩
  | tb2syncSend => exact ⟨_, rfl, h.tb2syncSend⟩
  | tb2sync => exact ⟨_, rfl, h.tb2sync⟩
  | tb2Lost => exact ⟨_, rfl, h.tb2Lost⟩
  | ringWrapn => exact ⟨_, rfl, h.ringWrapn⟩
  | ringWrite => exact ⟨_, rfl, h.ringWrite⟩
  | ringDrop => exact ⟨_, rfl, h.ringDrop⟩
  | ringVerdict => exact ⟨_, rfl, h.ringVerdict⟩
  | ringRemap => exact ⟨_, rfl, h.ringRemap⟩
  | frameCrcFail => exact ⟨_, rfl, h.frameCrcFail⟩
  | ringXoff => exact ⟨_, rfl, h.ringXoff⟩
  | ringXon => exact ⟨_, rfl, h.ringXon⟩
  | ringPlanDescriptor => exact ⟨_, rfl, h.ringPlanDescriptor⟩
  | ringPlanComplete => exact ⟨_, rfl, h.ringPlanComplete⟩
  | weirInsert => exact ⟨_, rfl, h.weirInsert⟩
  | weirSwitchDone => exact ⟨_, rfl, h.weirSwitchDone⟩
  | stagingAccess => exact ⟨_, rfl, h.stagingAccess⟩
  | badWidthAccess => exact ⟨_, rfl, h.badWidth⟩
  | lowHalfRead => exact ⟨_, rfl, h.lowHalfRead⟩
  | recordAreaWrite => exact ⟨_, rfl, h.recordAreaWrite⟩
  | registerWrite => exact ⟨_, rfl, h.registerWrite⟩
  | doorbellWrite => exact ⟨_, rfl, h.doorbellWrite⟩
  | qCfgWrite => exact ⟨_, rfl, h.qCfgWrite⟩
  | irqTimer => exact ⟨_, rfl, h.irqTimer⟩
  | queueFetchFail => exact ⟨_, rfl, h.queueFetchFail⟩
  | recipeLoad => exact ⟨_, rfl, h.recipeCmd⟩
  | lotStart => exact ⟨_, rfl, h.lotStart⟩
  | lotEnd => exact ⟨_, rfl, h.lotEnd⟩
  | lotEndDone => exact ⟨_, rfl, h.lotEndDone⟩
  | fence => exact ⟨_, rfl, h.fenceCmd⟩
  | ringTx => exact ⟨_, rfl, h.ringTx⟩
  | verdictCommit => exact ⟨_, rfl, h.verdictCommit⟩
  | mbxGetId => exact ⟨_, rfl, h.mbxGetId⟩
  | mbxGetCerts => exact ⟨_, rfl, h.mbxGetCerts⟩
  | mbxQuote => exact ⟨_, rfl, h.mbxQuote⟩
  | mbxHostRegion => exact ⟨_, rfl, h.mbxHostRegion⟩
  | mbxCtxCreate => exact ⟨_, rfl, h.mbxCtxCreate⟩
  | mbxCtxDelete => exact ⟨_, rfl, h.mbxCtxDelete⟩
  | mbxCtxSwitch => exact ⟨_, rfl, h.mbxCtxSwitch⟩
  | scrubDone => exact ⟨_, rfl, h.scrubDone⟩
  | importDone => exact ⟨_, rfl, h.importDone⟩
  | mbxKeyImport => exact ⟨_, rfl, h.mbxKeyImport⟩
  | mbxRevoke => exact ⟨_, rfl, h.mbxRevoke⟩
  | mbxRingKeygen => exact ⟨_, rfl, h.mbxRingKeygen⟩
  | mbxRingInstall => exact ⟨_, rfl, h.mbxRingInstall⟩
  | mbxMgmtCa => exact ⟨_, rfl, h.mbxMgmtCa⟩
  | mbxFwUpdate => exact ⟨_, rfl, h.mbxFwUpdate⟩
  | ephemeralExpiry => exact ⟨_, rfl, h.upd⟩
  | dexzonConnect => exact ⟨_, rfl, h.dexzonConnect⟩
  | weaveStage => exact ⟨_, rfl, h.weaveStage⟩
  | weaveLoad => exact ⟨_, rfl, h.weaveLoad⟩
  | weaveActivate => exact ⟨_, rfl, h.weaveActivate⟩
  | weaveRollback => exact ⟨_, rfl, h.weaveRollback⟩
  | weaveStop => exact ⟨_, rfl, h.weaveStop⟩
  | weaveDiscard => exact ⟨_, rfl, h.weaveDiscard⟩
  | weaveAbort => exact ⟨_, rfl, h.weaveAbort⟩
  | response => exact ⟨_, rfl, h.response⟩
  | actNone => exact ⟨_, rfl, h.actNone⟩
  | actFieldSafe => exact ⟨_, rfl, h.actFieldSafe⟩
  | actFieldResume => exact ⟨_, rfl, h.actFieldResume⟩
  | actFieldResumeWaitEnd => exact ⟨_, rfl, h.actFieldResumeWaitEnd⟩
  | actPortOff => exact ⟨_, rfl, h.actPortOff⟩
  | actRingPortOff => exact ⟨_, rfl, h.actRingPortOff⟩
  | actWeaveStop => exact ⟨_, rfl, h.actWeaveStop⟩
  | actRevoke => exact ⟨_, rfl, h.actRevoke⟩
  | actDump => exact ⟨_, rfl, h.actDump⟩
  | dumpReq => exact ⟨_, rfl, h.dumpReq⟩
  | dumpComplete => exact ⟨_, rfl, h.dumpComplete⟩
  | dumpCopy => exact ⟨_, rfl, h.dumpCopy⟩
  | dumpRelease => exact ⟨_, rfl, h.dumpRelease⟩
  | rplRestart => exact ⟨_, rfl, h.rplRestart⟩
  | rplInject => exact ⟨_, rfl, h.rplInject⟩
  | rplCapture => exact ⟨_, rfl, h.rplCapture⟩
  | rplThaw => exact ⟨_, rfl, h.rplThaw⟩
  | freeze => exact ⟨_, rfl, h.freezeAt⟩
  | batchCapture => exact ⟨_, rfl, h.batchCapture⟩
  | lplusOk => exact ⟨_, rfl, h.lplusOk⟩
  | lplusLoss => exact ⟨_, rfl, h.setSide⟩
  | fieldSideOvertemp => exact ⟨_, rfl, h.fieldSideOvertemp⟩
  | mgmtLinkUp => exact ⟨_, rfl, h.setPtp⟩
  | ptpEnable => exact ⟨_, rfl, h.ptpEnable⟩
  | configurationWrite => exact ⟨_, rfl, h.configurationWrite⟩
  | secCfgWrite => exact ⟨_, rfl, h.secCfgWrite⟩
  | d3hot => exact ⟨_, rfl, h.d3hot⟩
  | thermWarnClear => exact ⟨_, rfl, h.thermWarnClear⟩
  | vinInRange => exact ⟨_, rfl, h.vinInRange⟩
  | refRestored => exact ⟨_, rfl, h.refRestored⟩
  | pllRelock => exact ⟨_, rfl, h.pllRelock⟩

/-- Settles O57: on an empty queue the tick keeps the form, else the command at the front does. -/
theorem everyStepKeepsTheCanonicalForm : Obligations.EveryStepKeepsTheCanonicalForm := by
  unfold Obligations.EveryStepKeepsTheCanonicalForm
  intro s s' h hs
  unfold step at hs
  split at hs
  case h_1 =>
    cases hs
    exact h.tick
  case h_2 c rest _ =>
    obtain ⟨m', he, hm⟩ := completes_canon (s := { s with pending := rest }) h c
    cases he.symm.trans hs
    exact hm

end Sys2Proof.Machine
end

section
/-! PROOFS. O14: the events of clocks, supplies and temperatures, their recoveries, and the resets of the endpoint. -/
namespace Sys2Proof.Machine

variable {m : Mach}

/-- Out of reset a module runs. -/
theorem Mach.up_of_not_inReset (h : m.pwr.inReset = false) : m.up = true := by simp [Mach.up, h]

theorem Mach.OnlyReported.tiles_eq {m' : Mach} (h : m.OnlyReported m') : m'.tiles = m.tiles := by
  unfold Mach.OnlyReported at h
  rw [h]

theorem raised_raiseClk (bit source : Nat) : m.Raised (m.raiseClk bit source) rClkErr bit := raised_raise (by decide)

/-- A reading is stored as it is, in the low half of its register. -/
theorem setTemp_eq (i : Nat) (c : BitVec 16) : m.setTemp i c = m.setReg (rPwrTemp i) (c.setWidth 32) := by
  rw [Mach.setTemp, BitVec.ofNat_toNat]

theorem tempReaches_iff {c : BitVec 16} {deg : Nat} : tempReaches c deg = true ↔ 16 * (deg : Int) ≤ c.toInt := decide_eq_true_iff

/-! ### Events -/

section
variable (hu : m.up = true)
include hu

theorem refLoss_raised (h : m.pwr.refOk = true) : ({ m with pwr := { m.pwr with refOk := false } } : Mach).Raised (refLoss m) rClkErr 0 := by
  rw [refLoss, if_pos (by simp [hu, h])]
  exact raised_raiseClk ..

theorem pllUnlock_raised {d : Nat} (h : m.pwr.locks.getLsbD d = true) : (m.setLock d false).Raised (pllUnlock d m) rClkErr 1 := by
  rw [pllUnlock, if_pos (by simp [hu, h])]
  exact raised_raiseClk ..

theorem phaseDrift_raised (h : m.pwr.aligned = true) : m.Raised (phaseDrift m) rClkErr 3 := by
  rw [phaseDrift, if_pos (by simp [hu, h])]
  exact raised_raiseClk ..

theorem pgFault_raised {d : Nat} (h : m.pwr.good.getLsbD d = true) :
    ({ m with pwr := { m.pwr with good := setBits m.pwr.good d d 0 } } : Mach).Raised (pgFault d m) rClkErr 4 := by
  rw [pgFault, if_pos (by simp [hu, h])]
  exact raised_raiseClk ..

theorem vinUv_raised {v : BitVec 16} (he : m.pwr.excursion = false) (h : v.toNat < 4000) :
    (({ m with pwr := { m.pwr with excursion := true } } : Mach).setFld rPwrVin 15 0 v.toNat).Raised (vinUv v m) rClkErr 5 := by
  rw [vinUv, if_pos (by simp [hu, he, h])]
  exact raised_raiseClk ..

theorem vinOv_raised {v : BitVec 16} (he : m.pwr.excursion = false) (h : 6000 < v.toNat) :
    (({ m with pwr := { m.pwr with excursion := true } } : Mach).setFld rPwrVin 15 0 v.toNat).Raised (vinOv v m) rClkErr 6 := by
  rw [vinOv, if_pos (by simp [hu, he, h])]
  exact raised_raiseClk ..

theorem overpower_raised {pkg mod : BitVec 16} (h : m.variant.packageLimit < pkg.toNat ∨ m.variant.moduleLimit < mod.toNat) :
    (m.setReg rPwrPower (mod ++ pkg)).Raised (overpower pkg mod m) rClkErr 9 := by
  rw [overpower, if_pos (by simp [hu, h])]
  exact raised_raiseClk ..

theorem thermWarn_raised {i : Nat} {c : BitVec 16} (hs : m.variant.hasSensor i = true) (h : 16 * (m.rbits rPwrTherm 7 0 : Int) ≤ c.toInt) :
    (({ m with pwr := { m.pwr with thermWarn := true } } : Mach).setReg (rPwrTemp i) (c.setWidth 32)).Raised (thermWarn i c m) rClkErr 7 := by
  rw [thermWarn, if_pos (by simp [hu, hs, tempReaches_iff.mpr h]), ← setTemp_eq]
  exact raised_raiseClk ..

theorem thermCrit_raised {i : Nat} {c : BitVec 16} (hs : m.variant.hasSensor i = true) (h : 16 * (m.rbits rPwrTherm 15 8 : Int) ≤ c.toInt) :
    (({ m with pwr := { m.pwr with thermWarn := m.pwr.thermWarn || tempReaches c (m.rbits rPwrTherm 7 0) } } : Mach).setReg
      (rPwrTemp i) (c.setWidth 32)).Raised (thermCrit i c m) rClkErr 8 := by
  rw [thermCrit, if_pos (by simp [hu, hs, tempReaches_iff.mpr h]), ← setTemp_eq]
  exact raised_raiseClk ..

/-- What the report of THERM_CRIT leaves: the reading, the bit of CLK_ERR, and memories and tiles as they were. -/
theorem thermCrit_shows {i : Nat} {c : BitVec 16} (hi : i < 8) (hs : m.variant.hasSensor i = true)
    (h : 16 * (m.rbits rPwrTherm 15 8 : Int) ≤ c.toInt) :
    (thermCrit i c m).reg (rPwrTemp i) = c.setWidth 32 ∧ ((thermCrit i c m).reg rClkErr).getLsbD 8 = true
      ∧ (thermCrit i c m).mem = m.mem ∧ (thermCrit i c m).tiles = m.tiles := by
  have hr := thermCrit_raised hu hs h
  have hout : outsideFlt (rPwrTemp i) := by
    unfold outsideFlt rPwrTemp
    omega
  have hne : rPwrTemp i ≠ rClkErr := by
    unfold rPwrTemp rClkErr
    omega
  refine ⟨?_, hr.bit_set (by decide), hr.1.mem_eq, hr.1.tiles_eq⟩
  rw [hr.2.2 _ hout hne, reg_setReg, if_pos rfl]

/-! ### Recoveries and resets -/

theorem refRestored_eq : refRestored m = { m with pwr := { m.pwr with refOk := true } } := if_pos hu

theorem pllRelock_eq {d : Nat} (h : m.variant.clocks.getLsbD d = true) : pllRelock d m = m.setLock d true := by
  rw [pllRelock, if_pos (by simp [hu, h])]

theorem vinInRange_eq {v : BitVec 16} (hl : 4000 ≤ v.toNat) (hh : v.toNat ≤ 6000) :
    vinInRange v m = ({ m with pwr := { m.pwr with excursion := false } } : Mach).setFld rPwrVin 15 0 v.toNat := by
  rw [vinInRange, if_pos (by simp [hu, hl, hh])]
  rfl

theorem thermWarnClear_eq {ts : List (BitVec 16)}
    (h : ∀ i < 8, m.variant.hasSensor i = true → (ts.getD i 0).toInt < 16 * (m.rbits rPwrTherm 7 0 : Int)) :
    thermWarnClear ts m = ({ m with pwr := { m.pwr with thermWarn := false } } : Mach).setTemps ts := by
  have hall : ((List.range 8).all fun i => !m.variant.hasSensor i || !tempReaches (ts.getD i 0) (m.rbits rPwrTherm 7 0)) = true := by
    rw [List.all_eq_true]
    intro i hi
    have hi := h i (List.mem_range.mp hi)
    cases hs : m.variant.hasSensor i with
    | false => rfl
    | true =>
      have hlow : tempReaches (ts.getD i 0) (m.rbits rPwrTherm 7 0) = false :=
        Bool.eq_false_iff.mpr fun ht => absurd (tempReaches_iff.mp ht) (Int.not_le.mpr (hi hs))
      rw [hlow]
      rfl
  rw [thermWarnClear, if_pos (by rw [hu, hall]; rfl)]

theorem perst_eq : perst m = m.hifReset := if_pos hu

end

theorem functionLevelReset_eq (h : m.endpointOn = true) : functionLevelReset m = m.hifReset := if_pos h

theorem d3hot_eq (b : Bool) (h : m.endpointOn = true) : d3hot b m = { m with hif := { m.hif with d3 := b } } := if_pos h

/-- Settles O14: each event takes its branch, which shows the condition and raises the bit; each recovery and reset takes its own. -/
theorem supplyClockAndEndpointEventsAreShown : Obligations.SupplyClockAndEndpointEventsAreShown := by
  unfold Obligations.SupplyClockAndEndpointEventsAreShown
  refine ⟨fun s hreset => ?_, fun s hreset => ?_⟩
  all_goals have hu := Mach.up_of_not_inReset hreset
  · refine ⟨fun h => ?_, fun d h => ?_, fun h => ?_, fun d h => ?_, fun v he => ⟨fun h => ?_, fun h => ?_⟩, fun pkg mod h => ?_,
      fun i c hs => ⟨fun h => ?_, fun h => ?_⟩⟩
    · exact ⟨_, exec_refLoss .., refLoss_raised hu h⟩
    · exact ⟨_, exec_pllUnlock .., pllUnlock_raised hu h⟩
    · exact ⟨_, exec_phaseDrift .., phaseDrift_raised hu h⟩
    · exact ⟨_, exec_pgFault .., pgFault_raised hu h⟩
    · exact ⟨_, exec_vinUv .., vinUv_raised hu he h⟩
    · exact ⟨_, exec_vinOv .., vinOv_raised hu he h⟩
    · exact ⟨_, exec_overpower .., overpower_raised hu h⟩
    · exact ⟨_, exec_thermWarn .., thermWarn_raised hu hs h⟩
    · exact ⟨_, exec_thermCrit .., thermCrit_shows hu i.isLt hs h⟩
  · refine ⟨?_, fun d h => ?_, fun v hl hh => ?_, fun ts h => ?_, ?_, fun h => ?_, fun b h => ?_⟩
    · exact gives_of_eq (exec_refRestored ..) (refRestored_eq hu)
    · exact gives_of_eq (exec_pllRelock ..) (pllRelock_eq hu h)
    · exact gives_of_eq (exec_vinInRange ..) (vinInRange_eq hu hl hh)
    · exact gives_of_eq (exec_thermWarnClear ..) (thermWarnClear_eq hu h)
    · exact gives_of_eq (exec_perst ..) (perst_eq hu)
    · exact gives_of_eq (exec_functionLevelReset ..) (functionLevelReset_eq h)
    · exact gives_of_eq (exec_d3hot ..) (d3hot_eq b h)

end Sys2Proof.Machine
end

section
/-! PROOFS. O43: the tracking observer with OVERSPEED, the records of late samples, and the snapshot of the time bases. -/
namespace Sys2Proof.Machine

variable {m n n' : Mach}

/-! ### What the late check reads

The check of one sample looks at the parts' recipes and weaves, the position bases, the time, and OVS and OBS_SPEED of the encoders. Committing a
record changes none of it, so that the record of one sample does not make or unmake another late. -/

/-- A register of encoder 0 or 1. -/
abbrev encoderReg (a : Nat) : Prop := 0x1b00100 ≤ a ∧ a < 0x1b00200

/-- The module stands as before in all that the late check reads beside the sample itself. -/
structure Mach.KeepsLateness (m n : Mach) : Prop where
  wv : n.wv = m.wv
  recipe : n.prep.recipe = m.prep.recipe
  serial : n.prep.serial = m.prep.serial
  enc : n.pos.enc = m.pos.enc
  cyc : n.cyc = m.cyc
  reg : ∀ a, encoderReg a → n.reg a = m.reg a

theorem encoderReg_encStat (b : Bool) : encoderReg (rEncStat (b2n b)) := by cases b <;> decide
theorem encoderReg_obsSpeed (b : Bool) : encoderReg (rObsSpeed (b2n b)) := by cases b <;> decide

theorem ne_of_encoderReg {a b : Nat} (ha : ¬encoderReg a) (hb : encoderReg b) : a ≠ b := fun e => ha (e ▸ hb)

theorem not_encoderReg_qStat (q : Nat) : ¬encoderReg (rQStat q) := by
  unfold rQStat
  omega
theorem not_encoderReg_qLost (q : Nat) : ¬encoderReg (rQLost q) := by
  unfold rQLost
  omega

theorem recipeOf_congr (hw : n.wv = m.wv) (hr : n.prep.recipe = m.prep.recipe) (hs : n.prep.serial = m.prep.serial) : n.recipeOf = m.recipeOf := by
  funext k
  simp only [Mach.recipeOf, Mach.weaveOf, hw, hr, hs]

theorem baseOf_congr (h : n.recipeOf = m.recipeOf) : n.baseOf = m.baseOf := by
  funext k
  simp only [Mach.baseOf, h]

theorem recipeOn_congr (hw : n.wv = m.wv) (hr : n.prep.recipe = m.prep.recipe) : n.recipeOn = m.recipeOn := by
  funext b
  simp only [Mach.recipeOn, hw, hr]

theorem ovs_congr {b : Bool} (h : n.reg (rEncStat (b2n b)) = m.reg (rEncStat (b2n b))) : n.ovs b = m.ovs b := by
  simp only [Mach.ovs, Mach.bit, h]

namespace Mach.KeepsLateness

theorem refl (m : Mach) : m.KeepsLateness m := ⟨rfl, rfl, rfl, rfl, rfl, fun _ _ => rfl⟩

theorem trans (h : m.KeepsLateness n) (k : n.KeepsLateness n') : m.KeepsLateness n' :=
  ⟨k.wv.trans h.wv, k.recipe.trans h.recipe, k.serial.trans h.serial, k.enc.trans h.enc, k.cyc.trans h.cyc,
    fun a ha => (k.reg a ha).trans (h.reg a ha)⟩

theorem ite {p : Prop} [Decidable p] (h : m.KeepsLateness n) (k : m.KeepsLateness n') : m.KeepsLateness (if p then n else n') := by
  split <;> assumption

/-! #### What it is for -/

theorem recipeOf_eq (h : m.KeepsLateness n) : n.recipeOf = m.recipeOf := recipeOf_congr h.wv h.recipe h.serial
theorem baseOf_eq (h : m.KeepsLateness n) : n.baseOf = m.baseOf := baseOf_congr h.recipeOf_eq
theorem ovs_eq (h : m.KeepsLateness n) (b : Bool) : n.ovs b = m.ovs b := ovs_congr (h.reg _ (encoderReg_encStat b))
theorem obsSpeed_eq (h : m.KeepsLateness n) : n.obsSpeed = m.obsSpeed := by
  funext b
  simp only [Mach.obsSpeed, h.reg _ (encoderReg_obsSpeed b)]
theorem contractOf_eq (h : m.KeepsLateness n) : n.contractOf = m.contractOf := by
  funext p
  simp only [Mach.contractOf, h.recipeOf_eq, Mach.weaveOf, h.wv]
theorem pos32_eq (h : m.KeepsLateness n) : n.pos32 = m.pos32 := by
  funext b
  simp only [Mach.pos32, Mach.tbp, h.enc]
theorem tb1_eq (h : m.KeepsLateness n) : n.tb1 = m.tb1 := by simp only [Mach.tb1, h.cyc]
theorem isLate_eq (h : m.KeepsLateness n) : n.isLate = m.isLate := by
  funext p
  unfold Mach.isLate
  rw [h.contractOf_eq, h.obsSpeed_eq, h.pos32_eq, h.tb1_eq]

/-! #### Updates that keep it -/

theorem quiet (h : m.KeepsLateness n) (k : n.Quiet n') : m.KeepsLateness n' := by
  obtain ⟨hr, hreg⟩ := k
  refine h.trans ⟨?_, ?_, ?_, ?_, ?_, fun a ha => hreg a (Nat.lt_trans ha.2 (by decide))⟩
  all_goals
    unfold Mach.OnlyReported at hr
    rw [hr]

theorem setReg {a : Nat} {v : W32} (h : m.KeepsLateness n) (ha : ¬encoderReg a) : m.KeepsLateness (n.setReg a v) :=
  h.trans ⟨rfl, rfl, rfl, rfl, rfl, fun b hb => by rw [reg_setReg, if_neg (ne_of_encoderReg ha hb)]⟩

theorem putBit {a i : Nat} {v : Bool} (h : m.KeepsLateness n) (ha : ¬encoderReg a) : m.KeepsLateness (n.putBit a i v) :=
  h.trans ⟨rfl, rfl, rfl, rfl, rfl, fun b hb => by rw [reg_putBit, if_neg (ne_of_encoderReg ha hb)]⟩

theorem inc {a : Nat} (h : m.KeepsLateness n) (ha : ¬encoderReg a) : m.KeepsLateness (n.inc a) := h.setReg ha

theorem raise {err en block bit source : Nat} {x : EvX} (h : m.KeepsLateness n) (ha : ¬encoderReg err) :
    m.KeepsLateness (n.raise err en block bit source x) :=
  have hn := (h.putBit ha).quiet (quiet_noteRun block bit source)
  .ite (hn.quiet (quiet_report _)) hn

theorem setQueue {q : Nat} {x : Queue} (h : m.KeepsLateness n) : m.KeepsLateness (n.setQueue q x) := h.trans ⟨rfl, rfl, rfl, rfl, rfl, fun _ _ => rfl⟩
theorem setEcc {x : List (Nat × Ecc)} (h : m.KeepsLateness n) : m.KeepsLateness { n with hif := { n.hif with ecc := x } } :=
  h.trans ⟨rfl, rfl, rfl, rfl, rfl, fun _ _ => rfl⟩
theorem setDdrBytes {a : Nat} {bs : List Byte} (h : m.KeepsLateness n) : m.KeepsLateness (n.setDdrBytes a bs) :=
  h.trans ⟨rfl, rfl, rfl, rfl, rfl, fun _ _ => rfl⟩
theorem signal {v : Nat} (h : m.KeepsLateness n) : m.KeepsLateness (n.signal v) := h.quiet (quiet_signal v)
theorem raiseHif {bit source : Nat} (h : m.KeepsLateness n) : m.KeepsLateness (n.raiseHif bit source) :=
  (h.raise (by decide)).quiet quiet_signalErr

/-! #### The commit of a record -/

theorem qNotify {q : Nat} (h : m.KeepsLateness n) : m.KeepsLateness (n.qNotify q) := .ite h.setQueue.signal h.setQueue

theorem qLose {q : Nat} {full : Bool} (h : m.KeepsLateness n) : m.KeepsLateness (n.qLose q full) := by
  unfold Mach.qLose
  extract_lets _ lost counted
  have hl : m.KeepsLateness lost := (h.inc (by decide)).setQueue
  have hc : m.KeepsLateness counted := .ite ((hl.inc (not_encoderReg_qLost q)).putBit (not_encoderReg_qStat q)) hl
  exact hc.raiseHif

theorem qStore {q : Nat} {entry : List Byte} (h : m.KeepsLateness n) : m.KeepsLateness (n.qStore q entry) :=
  .ite h.qLose (.ite h.qLose.qNotify h.setQueue.qNotify)

theorem qPush {q : Nat} {entry : List Byte} (h : m.KeepsLateness n) : m.KeepsLateness (n.qPush q entry) := by
  unfold Mach.qPush
  split
  case h_1 => exact h.qStore
  case h_2 => exact h.setEcc.raiseHif.qStore
  case h_3 => exact (h.setEcc.raiseHif.inc (not_encoderReg_qLost q)).qLose

theorem ringPut {lo : Nat} {ent : List Byte} (h : m.KeepsLateness n) (hlo : 0x1b00200 ≤ lo) : m.KeepsLateness (n.ringPut lo ent).1 := by
  unfold Mach.ringPut
  extract_lets _ _ _ _ _ _ _ _ skipped _
  have hs : m.KeepsLateness skipped := .ite h h.setDdrBytes
  split
  · exact h
  · split
    · exact h.inc (by omega)
    · exact hs.setDdrBytes.setReg (by omega)

theorem writeTallyRing {idx : Nat} {flags : BitVec 16} (h : m.KeepsLateness n) : m.KeepsLateness (n.writeTallyRing idx flags) :=
  List.foldlRecOn _ _ h fun _ hk _ _ => hk.ringPut (by decide)

theorem commitRecord {p : Part} {b : Ballot} {r : Reason} (h : m.KeepsLateness n) : m.KeepsLateness (n.commitRecord p b r) := by
  unfold Mach.commitRecord
  extract_lets _ _ _ _ _ _ pushed tallied
  have hp : m.KeepsLateness pushed := h.setQueue.qPush.inc (by decide)
  have ht : m.KeepsLateness tallied := .ite hp.writeTallyRing hp
  exact ht.trans ⟨rfl, rfl, rfl, rfl, rfl, fun _ _ => rfl⟩

end Mach.KeepsLateness

/-! ### Late samples -/

/-- A sample found late gets its record, is counted, and LATE is raised (R300). -/
def Mach.recordLate (m : Mach) (p : Part) : Mach := ((m.commitRecord p Ballot.none .late).inc rPosLate).raisePos 3

/-- The late check of one sample, with what it does. -/
def Mach.checkLate (m : Mach) (p : Part) : Mach := if m.ovs (m.baseOf p.weave) && m.isLate p then m.recordLate p else m

theorem lateCheck_eq_foldl (m : Mach) : lateCheck m = m.prep.outstanding.foldl Mach.checkLate m := rfl

theorem keepsLateness_recordLate (m : Mach) (p : Part) : m.KeepsLateness (m.recordLate p) :=
  ((Mach.KeepsLateness.refl m).commitRecord.inc (by decide)).raise (by decide)

/-- Samples that are not late under OVERSPEED pass the check without effect, before a record of another one as after it. -/
theorem foldl_checkLate_of_onTime {l : List Part} (h : m.KeepsLateness n)
    (hl : ∀ q ∈ l, m.ovs (m.baseOf q.weave) = false ∨ m.isLate q = false) : l.foldl Mach.checkLate n = n := by
  have one : ∀ q ∈ l, n.checkLate q = n := fun q hq => by
    have : ¬((n.ovs (n.baseOf q.weave) && n.isLate q) = true) := by
      rw [h.baseOf_eq, h.ovs_eq, h.isLate_eq]
      rcases hl q hq with ho | ho <;> simp [ho]
    exact if_neg this
  induction l with
  | nil => rfl
  | cons q l ih =>
    rw [List.foldl_cons, one q (by simp)]
    exact ih (fun r hr => hl r (by simp [hr])) fun r hr => one r (by simp [hr])

theorem lateCheck_of_onTime (h : ∀ p ∈ m.prep.parts, p.done = false → m.ovs (m.baseOf p.weave) = true → m.isLate p = false) : lateCheck m = m := by
  refine foldl_checkLate_of_onTime (.refl m) fun p hp => ?_
  obtain ⟨hmem, hdone⟩ := List.mem_filter.mp hp
  cases ho : m.ovs (m.baseOf p.weave) with
  | false => exact .inl rfl
  | true => exact .inr (h p hmem (by simpa using hdone) ho)

theorem lateCheck_of_oneLate {pre post : List Part} {p : Part} (hout : m.prep.outstanding = pre ++ p :: post)
    (ho : m.ovs (m.baseOf p.weave) = true) (hp : m.isLate p = true)
    (hrest : ∀ q ∈ pre ++ post, m.ovs (m.baseOf q.weave) = false ∨ m.isLate q = false) : lateCheck m = m.recordLate p := by
  rw [lateCheck_eq_foldl, hout, List.foldl_append, List.foldl_cons,
    foldl_checkLate_of_onTime (.refl m) fun q hq => hrest q (List.mem_append_left _ hq)]
  have hlate : m.checkLate p = m.recordLate p := if_pos (by rw [ho, hp]; rfl)
  rw [hlate]
  exact foldl_checkLate_of_onTime (keepsLateness_recordLate m p) fun q hq => hrest q (List.mem_append_right _ hq)

/-! ### The backstop -/

section
variable {idx : BitVec 48} {p : Part} {r : Recipe} (hp : m.prep.part idx = some p) (hr : m.recipeOf p.weave = some r)
include hp hr

theorem backstop_before (h : diff32 (m.pos32 r.tb4) p.pt < (r.d : Int) - marginOf r.vMax) : backstop idx m = m := by
  have : ¬((r.d : Int) - marginOf r.vMax ≤ diff32 (m.pos32 r.tb4) p.pt) := Int.not_le.mpr h
  simp [backstop, hp, hr, this]

theorem backstop_reached (ha : p.accepted = true) (h : (r.d : Int) - marginOf r.vMax ≤ diff32 (m.pos32 r.tb4) p.pt) :
    backstop idx m = m.commitRecord p Ballot.none (if p.ovs then .late else .slip) := by
  simp [backstop, hp, hr, ha, h]

end

/-! ### Encoder errors -/

theorem b2n_encBase (e : Fin 2) : b2n (encBase e) = e := by
  revert e
  decide

section
variable (e : Fin 2)

theorem raised_raisePos (bit : Nat) : m.Raised (m.raisePos bit) rPosErr bit := raised_raise (by decide)

theorem outsideFlt_encErr : outsideFlt (rEncErr e) := by
  have := e.isLt
  unfold outsideFlt rEncErr
  omega

theorem raised_raiseEncErr (bit : Nat) : m.Raised (m.raise (rEncErr e) (rEncErrEn e) 9 bit e) (rEncErr e) bit := raised_raise (outsideFlt_encErr e)

theorem onlyReported_raiseEnc (bit : Nat) : m.OnlyReported (m.raiseEnc e bit) :=
  OnlyReported.trans (raised_raiseEncErr e bit).1 (raised_raisePos _).1

/-- An encoder error changes no register below the FLT block but ENC_ERR of its encoder and POS_ERR. -/
theorem reg_raiseEnc {a : Nat} (bit : Nat) (ho : outsideFlt a) (he : a ≠ rEncErr e) (hp : a ≠ rPosErr) : (m.raiseEnc e bit).reg a = m.reg a :=
  ((raised_raisePos _).2.2 a ho hp).trans ((raised_raiseEncErr e bit).2.2 a ho he)

theorem raiseEnc_sets_bit {bit : Nat} (hb : bit < 32) : ((m.raiseEnc e bit).reg (rEncErr e)).getLsbD bit = true := by
  have hne : rEncErr e ≠ rPosErr := by
    unfold rEncErr rPosErr
    omega
  have hkept : (m.raiseEnc e bit).reg (rEncErr e) = (m.raise (rEncErr e) (rEncErrEn e) 9 bit e).reg (rEncErr e) :=
    (raised_raisePos _).2.2 _ (outsideFlt_encErr e) hne
  rw [hkept]
  exact (raised_raiseEncErr e bit).bit_set hb

end

/-! ### The observer -/

theorem obsG3Write_eq {e : Nat} {v : W32} (hu : m.hostUp = true) (hb : m.namesBase (encBase e) = false) :
    obsG3Write e v m = (m.setReg (rObsG3 e) v).setEnc (encBase e)
      { m.pos.enc (encBase e) with gHeld := some ((m.reg (rObsG1 e)).toNat, (m.reg (rObsG2 e)).toNat, v.toNat) } := by
  simp [obsG3Write, hu, hb]

theorem obsG3Write_named {e : Nat} {v : W32} (hu : m.hostUp = true) (hb : m.namesBase (encBase e) = true) : obsG3Write e v m = m.raiseEnc e 6 := by
  simp [obsG3Write, hu, hb]

/-- The speed that the next update of an encoder's observer shows. -/
def Mach.nextSpeed (m : Mach) (e : Nat) : Int := ((m.pos.enc (encBase e)).update m.tb1).speed (m.encDiv (encBase e))

/-- The observer of an encoder with its next state, which OBS_SPEED, OBS_ACCEL and OBS_DEV show (R283, R284). -/
def Mach.observe (m : Mach) (e : Nat) : Mach :=
  let x := (m.pos.enc (encBase e)).update m.tb1
  let div := m.encDiv (encBase e)
  (((m.setEnc (encBase e) x).setReg (rObsSpeed e) (BitVec.ofInt 32 (x.speed div))).setReg (rObsAccel e)
    (BitVec.ofInt 32 (x.accel div))).setReg (rObsDev e) (BitVec.ofInt 32 x.dev)

theorem reg_setEnc (b : Bool) (x : Enc) (a : Nat) : (m.setEnc b x).reg a = m.reg a := by cases b <;> rfl
theorem setEnc_fields (b : Bool) (x : Enc) : (m.setEnc b x).mem = m.mem ∧ (m.setEnc b x).wv = m.wv ∧ (m.setEnc b x).prep = m.prep := by
  cases b <;> exact ⟨rfl, rfl, rfl⟩
theorem enc_setEnc (b : Bool) (x : Enc) : (m.setEnc b x).pos.enc b = x := by cases b <;> rfl

section
variable (e : Nat)

theorem observe_fields : (m.observe e).pos.enc (encBase e) = (m.pos.enc (encBase e)).update m.tb1
    ∧ (m.observe e).mem = m.mem ∧ (m.observe e).wv = m.wv ∧ (m.observe e).prep = m.prep := by
  simp [Mach.observe, enc_setEnc, setEnc_fields]

/-- OBS_SPEED, OBS_ACCEL and OBS_DEV of an observer are shown, and no other register changes (R284). -/
theorem observe_shows :
    (m.observe e).reg (rObsSpeed e) = BitVec.ofInt 32 (m.nextSpeed e)
    ∧ (m.observe e).reg (rObsAccel e) = BitVec.ofInt 32 (((m.pos.enc (encBase e)).update m.tb1).accel (m.encDiv (encBase e)))
    ∧ (m.observe e).reg (rObsDev e) = BitVec.ofInt 32 ((m.pos.enc (encBase e)).update m.tb1).dev
    ∧ ∀ a, a ≠ rObsSpeed e → a ≠ rObsAccel e → a ≠ rObsDev e → (m.observe e).reg a = m.reg a := by
  refine ⟨?_, ?_, ?_, fun a hs ha hd => ?_⟩
  · simp [Mach.observe, Mach.nextSpeed]
  · simp [Mach.observe]
  · simp [Mach.observe]
  · simp [Mach.observe, reg_setEnc, hs.symm, ha.symm, hd.symm]

theorem observe_reg_encStat : (m.observe e).reg (rEncStat e) = m.reg (rEncStat e) := by
  obtain ⟨-, -, -, hother⟩ := observe_shows (m := m) e
  exact hother _ (by simp) (by simp) (by simp)

theorem observe_reg_ovsCnt : (m.observe e).reg (rEncOvsCnt e) = m.reg (rEncOvsCnt e) := by
  obtain ⟨-, -, -, hother⟩ := observe_shows (m := m) e
  exact hother _ (by simp) (by simp) (by simp)

end

/-! ### OVERSPEED -/

section
variable (e : Fin 2)

/-- The outstanding samples of a base and the waiting markers note OVERSPEED (R299, R301). -/
def Mach.tellOvs (m : Mach) (b : Bool) : Mach :=
  let parts := m.prep.parts.map fun p => if m.baseOf p.weave == b then { p with ovs := true } else p
  let markers := m.prep.markers.map fun k => if b then { k with ovs4 := true } else { k with ovs3 := true }
  { m with prep := { m.prep with parts := parts, markers := markers } }

/-- A rise of OVERSPEED, all but its error: samples and markers note it, OVS is set, and the count advances. -/
def Mach.noteOvs (m : Mach) : Mach := ((m.tellOvs (encBase e)).putBit (rEncStat e) 4 true).inc (rEncOvsCnt e)

theorem raiseOvs_eq : m.raiseOvs (encBase e) = (m.noteOvs e).raiseEnc e 4 := by
  simp only [Mach.raiseOvs, Mach.noteOvs, Mach.tellOvs, b2n_encBase]

theorem Mach.OnlyReported.pos_eq (h : m.OnlyReported n) : n.pos = m.pos := by
  unfold Mach.OnlyReported at h
  rw [h]
theorem Mach.OnlyReported.wv_eq (h : m.OnlyReported n) : n.wv = m.wv := by
  unfold Mach.OnlyReported at h
  rw [h]
theorem Mach.OnlyReported.prep_eq (h : m.OnlyReported n) : n.prep = m.prep := by
  unfold Mach.OnlyReported at h
  rw [h]

theorem raiseOvs_fields : (m.raiseOvs (encBase e)).pos = m.pos ∧ (m.raiseOvs (encBase e)).mem = m.mem ∧ (m.raiseOvs (encBase e)).wv = m.wv
    ∧ (m.raiseOvs (encBase e)).prep = (m.noteOvs e).prep := by
  have h : (m.noteOvs e).OnlyReported (m.raiseOvs (encBase e)) := raiseOvs_eq (m := m) e ▸ onlyReported_raiseEnc e 4
  exact ⟨h.pos_eq, h.mem_eq, h.wv_eq, h.prep_eq⟩

@[simp] theorem reg_tellOvs (b : Bool) (a : Nat) : (m.tellOvs b).reg a = m.reg a := rfl

/-- Raising the error of OVERSPEED changes no register of an encoder but ENC_ERR. -/
theorem reg_raiseOvs {a : Nat} (ha : encoderReg a) (he : a ≠ rEncErr e) : (m.raiseOvs (encBase e)).reg a = (m.noteOvs e).reg a := by
  obtain ⟨hlo, hhi⟩ := ha
  rw [raiseOvs_eq]
  refine reg_raiseEnc e 4 (Nat.lt_trans hhi (by decide)) he fun h => ?_
  rw [h] at hlo
  exact absurd hlo (by decide)

theorem encoderReg_of_offset {o : Nat} (ho : o < 0x80) : encoderReg (0x1b00100 + o + e * 0x80) := by
  have := e.isLt
  omega

theorem raiseOvs_shows :
    (m.raiseOvs (encBase e)).reg (rObsSpeed e) = m.reg (rObsSpeed e) ∧ (m.raiseOvs (encBase e)).reg (rObsAccel e) = m.reg (rObsAccel e)
    ∧ (m.raiseOvs (encBase e)).reg (rObsDev e) = m.reg (rObsDev e)
    ∧ (m.raiseOvs (encBase e)).reg (rEncOvsCnt e) = satInc (m.reg (rEncOvsCnt e))
    ∧ (m.raiseOvs (encBase e)).reg (rEncStat e) = setBits (m.reg (rEncStat e)) 4 4 1 := by
  have hreg {o : Nat} (ho : o < 0x80) (he : 0x1b00100 + o + e * 0x80 ≠ rEncErr e) :=
    reg_raiseOvs (m := m) e (encoderReg_of_offset e ho) he
  refine ⟨?_, ?_, ?_, ?_, ?_⟩
  · exact (hreg (o := 0x34) (by decide) (by simp)).trans (by simp [Mach.noteOvs, reg_inc, reg_putBit])
  · exact (hreg (o := 0x38) (by decide) (by simp)).trans (by simp [Mach.noteOvs, reg_inc, reg_putBit])
  · exact (hreg (o := 0x3c) (by decide) (by simp)).trans (by simp [Mach.noteOvs, reg_inc, reg_putBit])
  · exact (hreg (o := 0x44) (by decide) (by simp)).trans (by simp [Mach.noteOvs, reg_inc, reg_putBit])
  · exact (hreg (o := 0x4) (by decide) (by simp)).trans (by simp [Mach.noteOvs, reg_inc, reg_putBit, b2n])

theorem raiseOvs_ovs : (m.raiseOvs (encBase e)).ovs (encBase e) = true := by
  obtain ⟨-, -, -, -, hstat⟩ := raiseOvs_shows (m := m) e
  rw [Mach.ovs, b2n_encBase, Mach.bit, hstat]
  exact getLsbD_setBits_same _ 4 (by decide)

theorem raiseOvs_error : ((m.raiseOvs (encBase e)).reg (rEncErr e)).getLsbD 4 = true :=
  raiseOvs_eq (m := m) e ▸ raiseEnc_sets_bit e (by decide)

/-! ### An update of the observer with OVERSPEED -/

theorem ovs_observe : (m.observe e).ovs (encBase e) = m.ovs (encBase e) :=
  ovs_congr (by rw [b2n_encBase, observe_reg_encStat])

theorem baseOf_observe : (m.observe e).baseOf = m.baseOf := by
  obtain ⟨-, -, hwv, hprep⟩ := observe_fields (m := m) e
  exact baseOf_congr (recipeOf_congr hwv (by rw [hprep]) (by rw [hprep]))

theorem recipeOn_observe : (m.observe e).recipeOn = m.recipeOn := by
  obtain ⟨-, -, hwv, hprep⟩ := observe_fields (m := m) e
  exact recipeOn_congr hwv (by rw [hprep])

/-- With a recipe on the base, a speed beyond V_MAX raises OVERSPEED if it was not raised (R299). -/
def Mach.checkSpeed (m : Mach) (b : Bool) (v : Int) : Mach :=
  match m.recipeOn b with
  | none => m
  | some r => if r.vMax < v.natAbs ∧ !m.ovs b then m.raiseOvs b else m

theorem observerUpdate_eq_checkSpeed : observerUpdate e m = (m.observe e).checkSpeed (encBase e) (m.nextSpeed e) := rfl

theorem checkSpeed_eq_self_or_raiseOvs (b : Bool) (v : Int) : m.checkSpeed b v = m ∨ m.checkSpeed b v = m.raiseOvs b := by
  unfold Mach.checkSpeed
  split
  · exact .inl rfl
  · split
    · exact .inr rfl
    · exact .inl rfl

section
variable {b : Bool} {v : Int} {r : Recipe} (hr : m.recipeOn b = some r)
include hr

theorem checkSpeed_of_raised_or_within (h : m.ovs b = true ∨ (-(r.vMax : Int) ≤ v ∧ v ≤ r.vMax)) : m.checkSpeed b v = m := by
  have : ¬(r.vMax < v.natAbs ∧ !m.ovs b) := by
    rintro ⟨hv, ho⟩
    rcases h with h | h
    · simp [h] at ho
    · omega
  simp only [Mach.checkSpeed, hr, if_neg this]

theorem checkSpeed_of_beyond (ho : m.ovs b = false) (h : (r.vMax : Int) < v ∨ v < -(r.vMax : Int)) : m.checkSpeed b v = m.raiseOvs b := by
  have : r.vMax < v.natAbs ∧ !m.ovs b := ⟨by omega, by simp [ho]⟩
  simp only [Mach.checkSpeed, hr, if_pos this]

end

/-- What every update shows, with or without a rise of OVERSPEED. -/
theorem observerUpdate_shows :
    let y := (m.pos.enc (encBase e)).update m.tb1
    let m' := observerUpdate e m
    m'.pos.enc (encBase e) = y ∧ m'.mem = m.mem ∧ m'.wv = m.wv
      ∧ m'.reg (rObsSpeed e) = BitVec.ofInt 32 (m.nextSpeed e)
      ∧ m'.reg (rObsAccel e) = BitVec.ofInt 32 (y.accel (m.encDiv (encBase e))) ∧ m'.reg (rObsDev e) = BitVec.ofInt 32 y.dev := by
  intro y m'
  obtain ⟨henc, hmem, hwv, -⟩ := observe_fields (m := m) e
  obtain ⟨hspeed, haccel, hdev, -⟩ := observe_shows (m := m) e
  rcases checkSpeed_eq_self_or_raiseOvs (m := m.observe e) (encBase e) (m.nextSpeed e) with h | h
  · have hm' : m' = m.observe e := h
    rw [hm']
    exact ⟨henc, hmem, hwv, hspeed, haccel, hdev⟩
  · have hm' : m' = (m.observe e).raiseOvs (encBase e) := h
    obtain ⟨hpos', hmem', hwv', -⟩ := raiseOvs_fields (m := m.observe e) e
    obtain ⟨hspeed', haccel', hdev', -⟩ := raiseOvs_shows (m := m.observe e) e
    rw [hm', hpos', hmem', hwv', hspeed', haccel', hdev']
    exact ⟨henc, hmem, hwv, hspeed, haccel, hdev⟩

section
variable {r : Recipe} (hr : m.recipeOn (encBase e) = some r)
include hr

/-- OVERSPEED stays as it is, within V_MAX or where it was raised before. -/
theorem observerUpdate_keeps_ovs (h : m.ovs (encBase e) = true ∨ (-(r.vMax : Int) ≤ m.nextSpeed e ∧ m.nextSpeed e ≤ r.vMax)) :
    (observerUpdate e m).ovs (encBase e) = m.ovs (encBase e) ∧ (observerUpdate e m).prep = m.prep
      ∧ (observerUpdate e m).reg (rEncOvsCnt e) = m.reg (rEncOvsCnt e) := by
  obtain ⟨-, -, -, hprep⟩ := observe_fields (m := m) e
  rw [observerUpdate_eq_checkSpeed, checkSpeed_of_raised_or_within (by rw [recipeOn_observe, hr]) (by rwa [ovs_observe])]
  exact ⟨ovs_observe e, hprep, observe_reg_ovsCnt e⟩

/-- OVERSPEED rises beyond V_MAX. -/
theorem observerUpdate_raises_ovs (ho : m.ovs (encBase e) = false) (h : (r.vMax : Int) < m.nextSpeed e ∨ m.nextSpeed e < -(r.vMax : Int)) :
    observerUpdate e m = (m.observe e).raiseOvs (encBase e) := by
  rw [observerUpdate_eq_checkSpeed, checkSpeed_of_beyond (by rw [recipeOn_observe, hr]) (by rwa [ovs_observe]) h]

end

theorem raiseOvs_observe_shows :
    let m' := (m.observe e).raiseOvs (encBase e)
    m'.ovs (encBase e) = true ∧ (m'.reg (rEncErr e)).getLsbD 4 = true ∧ m'.reg (rEncOvsCnt e) = satInc (m.reg (rEncOvsCnt e))
      ∧ m'.prep = (m.tellOvs (encBase e)).prep := by
  intro m'
  obtain ⟨-, -, -, hprep⟩ := observe_fields (m := m) e
  obtain ⟨-, -, -, hprep'⟩ := raiseOvs_fields (m := m.observe e) e
  obtain ⟨-, -, -, hcnt, -⟩ := raiseOvs_shows (m := m.observe e) e
  refine ⟨raiseOvs_ovs e, raiseOvs_error e, by rw [hcnt, observe_reg_ovsCnt], hprep'.trans ?_⟩
  show ((m.observe e).tellOvs (encBase e)).prep = _
  simp only [Mach.tellOvs, hprep, baseOf_observe]

theorem overspeedClear_of_low {r : Recipe} (hr : m.recipeOn (encBase e) = some r) (h : 64 * (m.obsSpeed (encBase e)).natAbs ≤ 63 * r.vMax) :
    overspeedClear e m = m.putBit (rEncStat e) 4 false := by
  simp [overspeedClear, hr, h]

theorem overspeedClear_of_high {r : Recipe} (hr : m.recipeOn (encBase e) = some r) (h : 63 * r.vMax < 64 * (m.obsSpeed (encBase e)).natAbs) :
    overspeedClear e m = m := by
  simp [overspeedClear, hr, Nat.not_le.mpr h]

theorem ovs_putBit_clear : (m.putBit (rEncStat e) 4 false).ovs (encBase e) = false := by
  rw [Mach.ovs, b2n_encBase, Mach.bit, reg_putBit, if_pos rfl, bitAt, getLsbD_setBits _ 4 4 _ 4 (Nat.le_refl 4) (by decide), if_pos (by decide)]
  rfl

end

/-! ### The snapshot -/

theorem reg64_setReg64_same (lo : Nat) (v : W64) : (m.setReg64 lo v).reg64 lo = v := by
  have hne : lo + 4 ≠ lo := by omega
  simp only [Mach.reg64, Mach.setReg64, reg_setReg, if_true, if_neg hne]
  refine BitVec.eq_of_getLsbD_eq fun i hi => ?_
  rw [BitVec.getLsbD_append]
  by_cases h : i < 32
  · simp [h]
  · simp [h, show i - 32 < 32 by omega, show 32 + (i - 32) = i by omega]

theorem reg64_setReg64_other {lo k : Nat} (v : W64) (h : lo + 8 ≤ k ∨ k + 8 ≤ lo) : (m.setReg64 lo v).reg64 k = m.reg64 k := by
  simp only [Mach.reg64, Mach.setReg64, reg_setReg]
  rw [if_neg (by omega), if_neg (by omega), if_neg (by omega), if_neg (by omega)]

/-- The first n snapshot registers take the values of v (R309). -/
def Mach.snap (m : Mach) (v : Nat → W64) (n : Nat) : Mach := (List.range n).foldl (fun x k => x.setReg64 (rPosSnapTbLo k) (v k)) m

theorem snap_succ (v : Nat → W64) (n : Nat) : m.snap v (n + 1) = (m.snap v n).setReg64 (rPosSnapTbLo n) (v n) := by
  simp [Mach.snap, List.range_succ]

theorem snap_regs (v : Nat → W64) (n : Nat) : m.snap v n = { m with regs := (m.snap v n).regs } := by
  induction n with
  | zero => rfl
  | succ n ih =>
    rw [snap_succ, ih]
    rfl

theorem reg64_snap (v : Nat → W64) {n k : Nat} (h : k < n) : (m.snap v n).reg64 (rPosSnapTbLo k) = v k := by
  induction n with
  | zero => omega
  | succ n ih =>
    rw [snap_succ]
    rcases Nat.lt_succ_iff_lt_or_eq.mp h with hk | rfl
    · rw [reg64_setReg64_other _ (by unfold rPosSnapTbLo; omega), ih hk]
    · exact reg64_setReg64_same ..

theorem posSnapCapture_eq (hu : m.hostUp = true) : posSnapCapture m = m.snap m.tbase 5 := by
  rw [posSnapCapture, if_neg (by simp [hu])]
  rfl

/-! ### What the commands do -/

/-- Every clause of O43, with the waiting markers' note of OVERSPEED where R301 has it: with the samples', when OVERSPEED rises. -/
theorem observerAndLateSampleCommands (s : State) (e : Fin 2) :
    let m := s.m
    let b := encBase e
    let y := (m.pos.enc b).update m.tb1
    (∀ v : W32, m.hostUp = true →
      (m.namesBase b = false → Gives (.obsG3Write e v) s ((m.setReg (rObsG3 e) v).setEnc b
        { m.pos.enc b with gHeld := some ((m.reg (rObsG1 e)).toNat, (m.reg (rObsG2 e)).toNat, v.toNat) }))
      ∧ (m.namesBase b = true → Gives (.obsG3Write e v) s (m.raiseEnc e 6)))
    ∧ Completes (.observerUpdate e) s (fun m' => m'.pos.enc b = y ∧ m'.mem = m.mem ∧ m'.wv = m.wv
        ∧ m'.reg (rObsSpeed e) = BitVec.ofInt 32 (m.nextSpeed e) ∧ m'.reg (rObsAccel e) = BitVec.ofInt 32 (y.accel (m.encDiv b))
        ∧ m'.reg (rObsDev e) = BitVec.ofInt 32 y.dev
        ∧ ∀ r, m.recipeOn b = some r →
          ((m.ovs b = true ∨ (-(r.vMax : Int) ≤ m.nextSpeed e ∧ m.nextSpeed e ≤ r.vMax)) →
            m'.ovs b = m.ovs b ∧ m'.prep = m.prep ∧ m'.reg (rEncOvsCnt e) = m.reg (rEncOvsCnt e))
          ∧ (m.ovs b = false → ((r.vMax : Int) < m.nextSpeed e ∨ m.nextSpeed e < -(r.vMax : Int)) → m'.ovs b = true
            ∧ (m'.reg (rEncErr e)).getLsbD 4 = true ∧ m'.reg (rEncOvsCnt e) = satInc (m.reg (rEncOvsCnt e))
            ∧ m'.prep = (m.tellOvs b).prep))
    ∧ (∀ r, m.recipeOn b = some r →
      (64 * (m.obsSpeed b).natAbs ≤ 63 * r.vMax → Completes (.overspeedClear e) s fun m' => m'.ovs b = false ∧ m' = { m with regs := m'.regs })
      ∧ (63 * r.vMax < 64 * (m.obsSpeed b).natAbs → Gives (.overspeedClear e) s m))
    ∧ ((∀ p ∈ m.prep.parts, p.done = false → m.ovs (m.baseOf p.weave) = true → m.isLate p = false) → Gives .lateCheck s m)
    ∧ (∀ pre post p, m.prep.outstanding = pre ++ p :: post → m.ovs (m.baseOf p.weave) = true → m.isLate p = true →
      (∀ q ∈ pre ++ post, m.ovs (m.baseOf q.weave) = false ∨ m.isLate q = false) → Gives .lateCheck s (m.recordLate p))
    ∧ (∀ (idx : BitVec 48) p r, m.prep.part idx = some p → m.recipeOf p.weave = some r → p.accepted = true →
      (diff32 (m.pos32 r.tb4) p.pt < (r.d : Int) - marginOf r.vMax → Gives (.backstop idx) s m)
      ∧ ((r.d : Int) - marginOf r.vMax ≤ diff32 (m.pos32 r.tb4) p.pt →
        Gives (.backstop idx) s (m.commitRecord p Ballot.none (if p.ovs then .late else .slip))))
    ∧ (m.hostUp = true → Completes .posSnapCapture s fun m' => m' = { m with regs := m'.regs }
      ∧ ∀ k < 5, m'.reg64 (rPosSnapTbLo k) = m.tbase k) := by
  intro m b y
  refine ⟨fun v hu => ⟨fun hb => ?_, fun hb => ?_⟩, ?_, fun r hr => ⟨fun h => ?_, fun h => ?_⟩, fun h => ?_,
    fun pre post p hout ho hp hrest => ?_, fun idx p r hp hr ha => ⟨fun h => ?_, fun h => ?_⟩, fun hu => ?_⟩
  · exact gives_of_eq (exec_obsG3Write ..) (obsG3Write_eq hu hb)
  · exact gives_of_eq (exec_obsG3Write ..) (obsG3Write_named hu hb)
  · obtain ⟨henc, hmem, hwv, hspeed, haccel, hdev⟩ := observerUpdate_shows (m := m) e
    refine ⟨_, exec_observerUpdate .., henc, hmem, hwv, hspeed, haccel, hdev, fun r hr => ⟨observerUpdate_keeps_ovs e hr, fun ho h => ?_⟩⟩
    rw [observerUpdate_raises_ovs e hr ho h]
    exact raiseOvs_observe_shows e
  · refine ⟨_, exec_overspeedClear .., ?_⟩
    rw [overspeedClear_of_low e hr h]
    exact ⟨ovs_putBit_clear e, rfl⟩
  · exact gives_of_eq (exec_overspeedClear ..) (overspeedClear_of_high e hr h)
  · exact gives_of_eq (exec_lateCheck ..) (lateCheck_of_onTime h)
  · exact gives_of_eq (exec_lateCheck ..) (lateCheck_of_oneLate hout ho hp hrest)
  · exact gives_of_eq (exec_backstop ..) (backstop_before hp hr h)
  · exact gives_of_eq (exec_backstop ..) (backstop_reached hp hr ha h)
  · refine ⟨_, exec_posSnapCapture .., ?_⟩
    rw [posSnapCapture_eq hu]
    exact ⟨snap_regs _ 5, fun k hk => reg64_snap _ hk⟩

/-! ### A marker that waits at rest -/

/-- A recipe on TB3 with V_MAX = 1000 ct/s. -/
def restingRecipe : Recipe :=
  { seed := 0, tb4 := false, d := 1000, cClose := 10, vMax := 1000, pMin := 10, tPrep := 1000, rates := [], groups := [], buckets := [],
    rules := [], refs := [], params := [], digest := 0, secNos := [] }

/-- A marker that has seen no OVERSPEED. -/
def restingMarker : Marker :=
  { port := 0, pmark := false, trail := false, tag := 0, pos := 0, l := 0, t := 0, ovs3 := false, ovs4 := false }

/-- The recipe is in force, the marker waits, and the line stands still. -/
def restingMach : Mach := { Mach.reset with prep := { Prep.empty with recipe := some restingRecipe, markers := [restingMarker] } }

/-- At rest an update leaves the marker as it was. -/
theorem observerUpdate_restingMach : (observerUpdate (0 : Fin 2) restingMach).prep.markers = [restingMarker] := by
  have hspeed : restingMach.nextSpeed (0 : Fin 2) = 0 := by decide
  obtain ⟨-, hprep, -⟩ := observerUpdate_keeps_ovs (m := restingMach) 0 (r := restingRecipe) rfl (.inr (by rw [hspeed]; decide))
  rw [hprep]
  rfl

/-- Refutes O43: its clause on the waiting markers stands beside the condition that OVERSPEED rises and not under it, so that it has them note
OVERSPEED at every update with a recipe on the base. At rest the model leaves a marker alone, as R301 asks and as the clause before says. -/
theorem not_observersUpdateAndLateSamplesGetTheirRecords : ¬ Obligations.ObserversUpdateAndLateSamplesGetTheirRecords := by
  unfold Obligations.ObserversUpdateAndLateSamplesGetTheirRecords
  intro h
  obtain ⟨-, -, hupdate, -⟩ := h { pending := [], m := restingMach } 0
  obtain ⟨m', hexec, -, -, -, -, -, -, hrecipe⟩ := hupdate (0, 0, 0) (.inr ⟨rfl, rfl⟩)
  obtain ⟨-, -, hmarkers⟩ := hrecipe restingRecipe rfl
  cases hexec
  exact absurd (observerUpdate_restingMach.symm.trans hmarkers) (by decide)

end Sys2Proof.Machine
end

section
/-! PROOFS. O30: the stem engines take lines, write due rows in turn, drop rows whose place is held, and report finished rows. -/
namespace Sys2Proof.Machine

variable {m m' : Mach} {p k : Nat}

/-! ### Stems and ports read back -/

@[simp] theorem stem_setStem (x : StemPort) : (m.setStem p x).stem k = if p = k then x else m.stem k := FMap.get_put

@[simp] theorem port_setPort (x : Port) : (m.setPort p x).port k = if p = k then x else m.port k := FMap.get_put

theorem Mach.OnlyReported.flights_eq (h : m.OnlyReported m') : m'.flights = m.flights := by
  unfold Mach.OnlyReported at h
  rw [h]
theorem Mach.OnlyReported.ports_eq (h : m.OnlyReported m') : m'.ports = m.ports := by
  unfold Mach.OnlyReported at h
  rw [h]
theorem Mach.OnlyReported.stems_eq (h : m.OnlyReported m') : m'.stems = m.stems := by
  unfold Mach.OnlyReported at h
  rw [h]

theorem Mach.OnlyReported.port_eq (h : m.OnlyReported m') : m'.port p = m.port p := by rw [Mach.port, h.ports_eq, Mach.port]
theorem Mach.OnlyReported.stem_eq (h : m.OnlyReported m') : m'.stem p = m.stem p := by rw [Mach.stem, h.stems_eq, Mach.stem]

/-! ### Error registers -/

theorem outsideFlt_stemErr (hp : p < 12) : outsideFlt (rStemErr (p / 6)) := by
  unfold outsideFlt rStemErr
  omega

theorem outsideFlt_portErr (hp : p < 12) : outsideFlt (rPortErr (p / 6) (p % 6)) := by
  unfold outsideFlt rPortErr
  omega

theorem portErr_ne_stemErr : rPortErr (p / 6) (p % 6) ≠ rStemErr (p / 6) := by
  unfold rPortErr rStemErr
  omega

theorem raised_raiseStem (hp : p < 12) (bit : Nat) (e : EvX) : m.Raised (m.raiseStem (p / 6) bit e) (rStemErr (p / 6)) bit :=
  raised_raise (outsideFlt_stemErr hp)

theorem raised_raisePort (hp : p < 12) (bit : Nat) : m.Raised (m.raisePort p bit) (rPortErr (p / 6) (p % 6)) bit :=
  raised_raise (outsideFlt_portErr hp)

/-! ### Taking a line (R182, R228) -/

theorem stemLineTake_of_room {l : VLine} {rest : List VLine} (hbuf : (m.port p).vbuf = l :: rest) (hen : (m.stem p).cfg.en = true)
    (hroom : l.r.l / (m.stem p).cfg.b < (m.stem p).oldest + (m.stem p).cfg.kh + 1) :
    stemLineTake p m = (m.setPort p { m.port p with vbuf := rest }).setStem p
      { m.stem p with store := (m.stem p).store ++ [l], taken := l.r.l + 1 } := by
  simp [stemLineTake, hbuf, hen, Nat.not_le.mpr hroom]

/-! ### Turns (R184) -/

/-- The row of port p is served before that of port k: its last line arrived first, or with k's and p is the lower port. -/
def Mach.stemBefore (m : Mach) (p k : Nat) : Prop :=
  (m.stem p).dueSince < (m.stem k).dueSince ∨ ((m.stem p).dueSince = (m.stem k).dueSince ∧ p < k)

theorem Mach.stemBefore.asymm (h : m.stemBefore p k) : ¬m.stemBefore k p := by
  unfold Mach.stemBefore at *
  omega

/-- A port has its turn when its row is due and comes before every other due row of its die. -/
theorem stemTurn_iff : m.stemTurn p = true ↔
    m.stemDue p = true ∧ ∀ k, k / 6 = p / 6 → k ≠ p → m.stemDue k = true → m.stemBefore p k := by
  simp only [Mach.stemTurn, Mach.stemBefore, Bool.and_eq_true, List.all_eq_true, List.mem_range, Bool.or_eq_true, beq_iff_eq,
    Bool.not_eq_true', decide_eq_true_eq]
  refine and_congr_right fun _ => ⟨fun h k hdie hne hdue => ?_, fun h i hi => ?_⟩
  · have hk : p / 6 * 6 + k % 6 = k := by omega
    have := h (k % 6) (by omega)
    rw [hk, hdue] at this
    simpa [hne] using this
  · by_cases hne : p / 6 * 6 + i = p
    · simp [hne]
    · have := h (p / 6 * 6 + i) (by omega) hne
      cases hdue : m.stemDue (p / 6 * 6 + i)
      · simp
      · simpa [hne] using this hdue

theorem stemRowWrite_out_of_turn (hdie : k / 6 = p / 6) (hne : k ≠ p) (hdue : m.stemDue k = true) (hk : m.stemBefore k p) :
    stemRowWrite p m = m := by
  have hturn : ¬m.stemTurn p = true := fun h => hk.asymm ((stemTurn_iff.mp h).2 k hdie hne hdue)
  simp [stemRowWrite, hturn]

theorem stemRowWrite_of_free (hturn : m.stemTurn p = true)
    (hfree : ((m.ringReady p).stem p).nextRow < ((m.ringReady p).stem p).released + ((m.ringReady p).stem p).cfg.ringRows) :
    stemRowWrite p m = (m.ringReady p).writeRow p := by
  simp [stemRowWrite, hturn, Nat.not_le.mpr hfree]

theorem stemRowWrite_of_held (hturn : m.stemTurn p = true)
    (hheld : ((m.ringReady p).stem p).released + ((m.ringReady p).stem p).cfg.ringRows ≤ ((m.ringReady p).stem p).nextRow) :
    stemRowWrite p m = (m.ringReady p).stemOverrun p := by
  simp [stemRowWrite, hturn, hheld]

/-! ### Writing a row (R182) -/

/-- The writes of the next row: one for each unit, in ascending order of their places in the ring. -/
def Mach.rowFlights (m : Mach) (p : Nat) : List Flight :=
  let x := m.stem p
  let n := x.cfg.rsl (m.portWidth p)
  (List.range n).map fun u =>
    { writer := BitVec.ofNat 16 (0xC000 + p / 6), target := .gran x.cfg.stack (x.cfg.base + (x.nextRow % x.cfg.ringRows) * n + u),
      data := some (x.unit (m.portWidth p) x.nextRow u), ovr := false, gen := none, issue := m.cyc, due := m.cyc, blocked := false,
      owner := .stem p x.nextRow }

/-- The stem once its next row has been computed: lines that no later row uses leave the line store. -/
def StemPort.rowComputed (x : StemPort) (width : Nat) : StemPort :=
  { x with
    nextRow := x.nextRow + 1
    store := x.store.filter fun l => decide ((x.nextRow + 1 - (x.cfg.kh - 1) / 2) * x.cfg.b ≤ l.r.l)
    checking := x.checking ++ [(x.nextRow, x.cfg.rsl width, false, x.wecc == Ecc.ue)] }

/-- The module once the writes of a row have set out, before an error of the weights is reported. -/
def Mach.rowSetOut (m : Mach) (p : Nat) : Mach :=
  { m with flights := m.flights ++ m.rowFlights p }.setStem p ((m.stem p).rowComputed (m.portWidth p))

/-- The row in hand, as the report of an error of the weights names it. -/
def Mach.rowEvent (m : Mach) (p : Nat) : EvX := { akind := 6, addr := (m.stem p).nextRow, info := p % 6 }

theorem writeRow_eq : m.writeRow p = match (m.stem p).wecc with
    | .ok => m.rowSetOut p
    | .ce => (m.rowSetOut p).raiseStem (p / 6) 0 (m.rowEvent p)
    | .ue => (m.rowSetOut p).raiseStem (p / 6) 1 (m.rowEvent p) := rfl

theorem writeRow_of_ok (h : (m.stem p).wecc = .ok) : m.writeRow p = m.rowSetOut p := by rw [writeRow_eq, h]

/-- An error of the weights is reported, and changes nothing else of the row. -/
theorem onlyReported_writeRow (hp : p < 12) : (m.rowSetOut p).OnlyReported (m.writeRow p) := by
  rw [writeRow_eq]
  split
  · exact OnlyReported.refl _
  · exact (raised_raiseStem hp ..).1
  · exact (raised_raiseStem hp ..).1

theorem writeRow_shows (hp : p < 12) :
    (m.writeRow p).flights = m.flights ++ m.rowFlights p ∧ (m.writeRow p).stem p = (m.stem p).rowComputed (m.portWidth p)
      ∧ (∀ k, k ≠ p → (m.writeRow p).stem k = m.stem k) ∧ (m.writeRow p).ports = m.ports ∧ (m.writeRow p).prep = m.prep
      ∧ (m.writeRow p).mem = m.mem ∧ ((m.stem p).wecc = .ok → (m.writeRow p).regs = m.regs) := by
  have h := onlyReported_writeRow (m := m) hp
  refine ⟨h.flights_eq, h.stem_eq.trans ?_, fun k hk => h.stem_eq.trans ?_, h.ports_eq, h.prep_eq, h.mem_eq, fun hok => ?_⟩
  · simp [Mach.rowSetOut]
  · rw [Mach.rowSetOut, stem_setStem, if_neg hk.symm]
    rfl
  · rw [writeRow_of_ok hok]
    rfl

/-! ### Dropping the rest of a frame (R183, R211, R228; log 22, log 119) -/

/-- What sample preparation hears of the next row and the rest of its frame: rows with dropped granules. -/
def Mach.droppedReps (m : Mach) (p : Nat) : List RowRep :=
  (List.range (m.restOfFrame p (m.stem p))).map fun i =>
    { die := p / 6, port := p % 6, row := (m.stem p).nextRow + i, dropped := true, ue := false, t := m.tb1 }

/-- The module once the next row and the rest of its frame have been dropped, before anything is said to the port. -/
def Mach.rowsDropped (m : Mach) (p : Nat) : Mach :=
  { m.setStem p { m.stem p with nextRow := (m.stem p).nextRow + m.restOfFrame p (m.stem p) } with
    prep := { m.prep with rows := m.prep.rows ++ m.droppedReps p } }

theorem exists_frame_of_rowsFrameOpen {row : Nat} (h : m.rowsFrameOpen p row = true) : ∃ f, (m.port p).frame = some f := by
  cases hf : (m.port p).frame with
  | none => simp [Mach.rowsFrameOpen, hf] at h
  | some f => exact ⟨f, rfl⟩

theorem stemOverrun_of_open {f : Frame} (hf : (m.port p).frame = some f) (ho : m.rowsFrameOpen p (m.stem p).nextRow = true) :
    m.stemOverrun p =
      ((m.rowsDropped p).setPort p { m.port p with drop := true, frame := some { f with ovf := true } }).raiseStem (p / 6) 2 := by
  simp only [Mach.stemOverrun, hf, ho]
  rfl

theorem stemOverrun_of_closed (hc : m.rowsFrameOpen p (m.stem p).nextRow = false) :
    m.stemOverrun p = ((m.rowsDropped p).raisePort p 10).raiseStem (p / 6) 2 := by
  cases hf : (m.port p).frame <;> simp only [Mach.stemOverrun, hf, hc] <;> rfl

/-- Beside its port, an overrun changes the same for an open and for a closed frame: it drops the rows, and reports. -/
theorem stemOverrun_shows (hp : p < 12) :
    (m.stemOverrun p).flights = m.flights ∧ (m.stemOverrun p).mem = m.mem
      ∧ ((m.stemOverrun p).stem p).nextRow = (m.stem p).nextRow + m.restOfFrame p (m.stem p)
      ∧ (m.stemOverrun p).prep.rows = m.prep.rows ++ m.droppedReps p
      ∧ ((m.stemOverrun p).reg (rStemErr (p / 6))).getLsbD 2 = true := by
  have hdropped : ((m.rowsDropped p).stem p).nextRow = (m.stem p).nextRow + m.restOfFrame p (m.stem p) := by
    show ((m.setStem p _).stem p).nextRow = _
    simp
  cases ho : m.rowsFrameOpen p (m.stem p).nextRow with
  | true =>
    obtain ⟨f, hf⟩ := exists_frame_of_rowsFrameOpen ho
    rw [stemOverrun_of_open hf ho]
    have h := raised_raiseStem (m := (m.rowsDropped p).setPort p { m.port p with drop := true, frame := some { f with ovf := true } }) hp 2 {}
    refine ⟨h.1.flights_eq, h.1.mem_eq, ?_, by rw [h.1.prep_eq]; rfl, h.bit_set (by decide)⟩
    rw [h.1.stem_eq]
    exact hdropped
  | false =>
    rw [stemOverrun_of_closed ho]
    have hport := (raised_raisePort (m := m.rowsDropped p) hp 10).1
    have h := raised_raiseStem (m := (m.rowsDropped p).raisePort p 10) hp 2 {}
    have hboth := OnlyReported.trans hport h.1
    exact ⟨hboth.flights_eq, hboth.mem_eq, by rw [hboth.stem_eq, hdropped], by rw [hboth.prep_eq]; rfl, h.bit_set (by decide)⟩

theorem stemOverrun_port_of_open (hp : p < 12) {f : Frame} (hf : (m.port p).frame = some f)
    (ho : m.rowsFrameOpen p (m.stem p).nextRow = true) :
    (m.stemOverrun p).port p = { m.port p with drop := true, frame := some { f with ovf := true } } := by
  rw [stemOverrun_of_open hf ho, (raised_raiseStem hp _ _).1.port_eq, port_setPort, if_pos rfl]

theorem stemOverrun_port_of_closed (hp : p < 12) (hc : m.rowsFrameOpen p (m.stem p).nextRow = false) :
    (m.stemOverrun p).port p = m.port p
      ∧ ((m.stemOverrun p).reg (rPortErr (p / 6) (p % 6))).getLsbD 10 = true := by
  have hport := raised_raisePort (m := m.rowsDropped p) hp 10
  have hstem := raised_raiseStem (m := (m.rowsDropped p).raisePort p 10) hp 2 {}
  rw [stemOverrun_of_closed hc]
  refine ⟨hstem.1.port_eq.trans hport.1.port_eq, ?_⟩
  rw [hstem.2.2 _ (outsideFlt_portErr hp) portErr_ne_stemErr]
  exact hport.bit_set (by decide)

/-! ### The state in which a place is judged (R239; log 115) -/

theorem ringReady_of_free (h : (m.stem p).nextRow < (m.stem p).released + (m.stem p).cfg.ringRows) : m.ringReady p = m :=
  if_neg (Nat.not_le.mpr h)

theorem ringReady_of_held (h : (m.stem p).released + (m.stem p).cfg.ringRows ≤ (m.stem p).nextRow) :
    m.ringReady p = m.sweep.release p := if_pos h

/-! ### Finished rows (R182, R194) -/

section
variable {r : Nat} {dropped ue : Bool} {rest : List (Nat × Nat × Bool × Bool)}

/-- The counter at a advances outside confidential mode (R194). -/
def Mach.countRow (m : Mach) (a : Nat) : Mach := if m.sec.conf then m else m.setReg a (m.reg a + 1)

theorem countRow_eq (a : Nat) : m.countRow a = { m with regs := (m.countRow a).regs } := by
  unfold Mach.countRow
  split <;> rfl

theorem reg_countRow (a : Nat) : (m.countRow a).reg a = if m.sec.conf then m.reg a else m.reg a + 1 := by
  unfold Mach.countRow
  split
  · rfl
  · rw [reg_setReg, if_pos rfl]

theorem tb1_countRow (a : Nat) : (m.countRow a).tb1 = m.tb1 := by rw [countRow_eq]; rfl

/-- A row is reported to sample preparation. -/
def Mach.reportRow (m : Mach) (r : RowRep) : Mach := { m with prep := { m.prep with rows := m.prep.rows ++ [r] } }

theorem stemRowDone_of_checked (h : (m.stem p).checking = (r, 0, dropped, ue) :: rest) :
    stemRowDone p m = ((m.setStem p { m.stem p with checking := rest }).countRow (rStemRows (p / 6) (p % 6))).reportRow
      { die := p / 6, port := p % 6, row := r, dropped := dropped, ue := ue, t := m.tb1 } := by
  have ht : ((m.setStem p { m.stem p with checking := rest }).countRow (rStemRows (p / 6) (p % 6))).tb1 = m.tb1 := tb1_countRow _
  rw [← ht]
  simp only [stemRowDone, h]
  rfl

end

/-! ### The statement -/

/-- Settles O30: each command is one of the cases above. A row in its turn is written or dropped by the ring place in the state that sample
preparation's releases leave, and an overrun differs for an open and for a closed frame only in what the port is told. -/
theorem stemEnginesTakeLinesAndWriteRows : Obligations.StemEnginesTakeLinesAndWriteRows := by
  unfold Obligations.StemEnginesTakeLinesAndWriteRows
  intro s die port p x q c
  have hp : p < 12 := by omega
  have hdie : p / 6 = die.val := by omega
  refine ⟨fun l rest hbuf hen hroom => gives_of_eq (exec_stemLineTake ..) (stemLineTake_of_room hbuf hen hroom),
    fun _ _ ⟨k, hk, hne, hdue, hbefore⟩ =>
      gives_of_eq (exec_stemRowWrite ..) (stemRowWrite_out_of_turn (hk.trans hdie.symm) hne hdue hbefore),
    fun hen hdue hfirst => ?_, ringReady_of_free, ringReady_of_held, fun r dropped ue rest hrow => ?_⟩
  · intro n y rsl
    have hturn : s.m.stemTurn p = true :=
      stemTurn_iff.mpr ⟨Bool.and_eq_true_iff.mpr ⟨hen, hdue⟩, fun k hk => hfirst k (hk.trans hdie)⟩
    refine ⟨fun hfree => ⟨_, exec_stemRowWrite .., ?_⟩, fun hheld => ⟨_, exec_stemRowWrite .., ?_⟩⟩
    · rw [stemRowWrite_of_free hturn hfree]
      obtain ⟨hflights, hstem, hrest⟩ := writeRow_shows (m := n) hp
      exact ⟨hflights, congrArg StemPort.nextRow hstem, congrArg StemPort.checking hstem, hrest⟩
    · rw [stemRowWrite_of_held hturn hheld]
      obtain ⟨hflights, hmem, hnext, hrows, herr⟩ := stemOverrun_shows (m := n) hp
      refine ⟨hflights, hmem, hnext, hrows, ?_, fun hc => (stemOverrun_port_of_closed hp hc).2, herr⟩
      cases ho : n.rowsFrameOpen p y.nextRow with
      | true =>
        obtain ⟨f, hf⟩ := exists_frame_of_rowsFrameOpen ho
        rw [hf]
        exact stemOverrun_port_of_open hp hf ho
      | false => cases (n.port p).frame <;> exact (stemOverrun_port_of_closed hp ho).1
  · refine ⟨_, exec_stemRowDone .., ?_⟩
    rw [stemRowDone_of_checked hrow]
    refine ⟨?_, ?_, reg_countRow _⟩
    · rw [countRow_eq]
      rfl
    · rw [countRow_eq]
      show ((s.m.setStem p _).stem p).checking = rest
      simp

end Sys2Proof.Machine
end
